-- ==== Sys2Proof/Word.lean ====
section
/-! DEFINITION. The words the manual speaks of: bytes, 32-bit register words, 40-bit physical addresses (R32) and
timekeeper values in 32.8 format (R325). -/

namespace Sys2Proof

/-- A byte. -/
abbrev Byte := BitVec 8

/-- A 32-bit register word (R42). -/
abbrev Word := BitVec 32

/-- A 40-bit physical address (R32). -/
abbrev Addr := BitVec 40

/-- A timekeeper value in 32.8 format (R325): bits [39:8] nanoseconds, bits [7:0] 1/256 ns. -/
abbrev Tk := BitVec 40

/-- An instruction of a Zhevi stream (R208). -/
abbrev IWord := BitVec 64

/-- A SHA3-512 digest, or any other 64-byte value (R536, R552). -/
abbrev Digest := BitVec 512

end Sys2Proof
end

