-- ==== Sys2Proof/Syntax.lean ====
section
/-! DEFINITION. The block's commands: one constructor of `Instr` per row of spec/opcode_table.json, in the table's
order, and the plain data their operands carry (requesters, frames, CSI-2 packets, memory requests).
Engine instructions name the core (and the engine) that issues; the instruction word is the one the engine fetches from
its own instruction cache (R137), so no row carries it. Reel commands name the reel; the 64 command bytes are the ones
JSC reads from the reel's ring (R285). -/

namespace Sys2Proof

/-- Roles, ordered operator < installer < maker (R533). -/
inductive Role where
  | operator | installer | maker
  deriving DecidableEq, Repr, Inhabited

/-- Who makes an access (R43, R44): an APU hart, the SEC management core, JSC for a reel command of a session, or any
other requester, named by its fabric port. -/
inductive Requester where
  | hart (n : Fin 8)
  | sec
  | jsc (session : Fin 256)
  | port (p : Fin 24)
  deriving DecidableEq, Repr, Inhabited

/-- The two engines of a core (chapter "The Tensor Core"). -/
inductive Engine where
  | fe | xe
  deriving DecidableEq, Repr, Inhabited

/-- How a read response returns (R382, R383, R594): clean, with an error that ECC corrected, poisoned, an error response
without poison, or clean by ECC but with content that no longer matches its continuity tag (R469). -/
inductive Resp where
  | ok | corrected | poisoned | error | corrupt
  deriving DecidableEq, Repr, Inhabited

/-- What ECC found in the beats of a read (R382, R383). -/
inductive Ecc where
  | clean | corrected | uncorrectable
  deriving DecidableEq, Repr, Inhabited

/-- The timestamped input pins (R328, R329). -/
inductive InPin where
  | phaA (n : Fin 8) | phaB (n : Fin 8) | phaZ (n : Fin 8) | ppsIn
  deriving DecidableEq, Repr, Inhabited

/-- A request to the memory controllers (R374 to R386, R596). `data` is the written line content from `addr` on. -/
structure MemReq where
  port : Fin 24
  addr : Addr
  write : Bool
  metered : Bool
  slateClass : Bool
  poisoned : Bool
  merge : Bool
  data : List Byte
  /-- the hart whose access it carries, on port 20 (R44) -/
  hart : Fin 8
  deriving DecidableEq, Repr, Inhabited

/-- The reel-protocol header (R420), fields in host order. -/
structure ReelHdr where
  magic : BitVec 16
  version : Byte
  type : Byte
  session : BitVec 16
  gen : BitVec 16
  reel : BitVec 16
  count : BitVec 16
  seq : Word
  ack : Word
  length : BitVec 16
  flags : BitVec 16
  deriving DecidableEq, Repr, Inhabited

/-- What a frame carries above Ethernet, as far as the device looks (R398, R403, R410). -/
inductive Payload where
  /-- the reel protocol over UDP to CMD_UDP_PORT (R419) -/
  | reel (h : ReelHdr) (body : List Byte)
  /-- IEEE 1722: subtype, stream id, sequence_num, avtp_timestamp, M flag / end of frame, payload (R410, R412) -/
  | avtp (subtype : Byte) (stream : BitVec 64) (seq : Byte) (ts : Word) (last : Bool) (fmt : List Byte) (data : List Byte)
  /-- RTP over UDP: payload type, SSRC, sequence number, timestamp, marker, payload (R410, R412) -/
  | rtp (pt : BitVec 7) (ssrc : Word) (seq : BitVec 16) (ts : Word) (marker : Bool) (data : List Byte)
  /-- PTP, by EtherType or by UDP port 319 or 320 (R403) -/
  | ptp (data : List Byte)
  /-- ARP or ICMPv6 neighbour discovery, for the port's own address or not (R402, R403) -/
  | neighbour (own : Bool) (data : List Byte)
  /-- a MAC control PAUSE frame of Annex 31B (R393) -/
  | pause
  | other (data : List Byte)
  deriving DecidableEq, Repr, Inhabited

/-- Defects of the IP and UDP headers that R398 names. -/
structure IpInfo where
  isV6 : Bool
  fragment : Bool
  options : Bool
  udpZero : Bool
  udpBad : Bool
  dscp : BitVec 6
  srcIp : BitVec 128
  dstIp : BitVec 128
  srcUdp : BitVec 16
  dstUdp : BitVec 16
  deriving DecidableEq, Repr, Inhabited

/-- A frame at the MDI. `raw` is what it holds from destination MAC to payload end; `secured` is the SC its SecTAG names, `an` and
`pn` the tag's association and packet number, and `secFailed` says that its integrity check fails (R399); in a buffer of the port,
`secured` is the SC on which MACsec verified the frame, none where it did not. `ts` is the time its first bit crossed the MDI,
before INGRESS_LAT is taken off. -/
structure Frame where
  raw : List Byte
  srcMac : BitVec 48
  tagged : Bool
  pcp : BitVec 3
  vid : BitVec 12
  ip : Option IpInfo
  secured : Option (BitVec 64)
  secFailed : Bool
  an : BitVec 2
  pn : Word
  ts : Tk
  payload : Payload
  deriving DecidableEq, Repr, Inhabited

/-- A CSI-2 packet as a port receives it (R437 to R444). -/
inductive CsiPacket where
  /-- short packets, with whether their header was corrected -/
  | frameStart (vc : BitVec 4) (hdrFixed : Bool)
  | frameEnd (vc : BitVec 4) (hdrFixed : Bool)
  /-- a long packet: its line start time, header and payload check results, and its samples -/
  | line (vc : BitVec 4) (dt : BitVec 6) (t : Tk) (hdrFixed : Bool) (crcOk : Bool) (samples : List (BitVec 16))
  | badHeader
  deriving DecidableEq, Repr, Inhabited

/-- Where a handshake message travels (R540, R545). -/
inductive HsOrigin where
  | port (p : Fin 4)
  | hart (n : Fin 8)
  deriving DecidableEq, Repr, Inhabited

/-- The health manager's verdict on one daily (R497, R498). -/
inductive DailyResult where
  | pass | fail (test : BitVec 16) (level : Byte) (sub : BitVec 16) (addr : Addr) | timeLimit (test : BitVec 16)
  deriving DecidableEq, Repr, Inhabited

/-- Instructions of the JTAG port (R558). -/
inductive JtagInstr where
  | idcode | bypass | samplePreload | extest | apuDebug | tensorScan | secDebug | dbgToken
  deriving DecidableEq, Repr, Inhabited

/-- The commands of the block: the rows of spec/opcode_table.json. -/
inductive Instr where
  | registerWrite (who : Requester) (addr : Addr) (size : Nat) (value : Word)
  | roleLockWrite (who : Requester) (page : BitVec 16) (value : Word)
  | softReset (who : Requester) (page : BitVec 16)
  | commit (who : Requester) (page : BitVec 16) (key : Word)
  | abort (who : Requester) (page : BitVec 16)
  | armedCommitApply (page : BitVec 16)
  | groupCommit (who : Requester) (key : Word)
  | winLoad (who : Requester) (page : BitVec 16)
  | winStore (who : Requester) (page : BitVec 16)
  | winStoreIfGen (who : Requester) (page : BitVec 16)
  | winLoadNext (who : Requester) (page : BitVec 16)
  | windowCmdDone (page : BitVec 16)
  | plicClaim (who : Requester) (ctx : Fin 16)
  | plicComplete (who : Requester) (ctx : Fin 16) (source : Word)
  | tcCntClear (who : Requester) (core : Fin 128) (value : Word)
  | clCntClear (who : Requester) (cl : Fin 8) (value : Word)
  | logTailWrite (who : Requester) (mc : Fin 8) (value : Word)
  | loadImage (reel : Fin 32)
  | loadImageVerified (slot : Fin 64)
  | bind (reel : Fin 32)
  | rebind (reel : Fin 32)
  | run (reel : Fin 32)
  | arm (reel : Fin 32)
  | cancel (reel : Fin 32)
  | cancelPending (reel : Fin 32)
  | cancelUnbind (reel : Fin 32)
  | cancelDone (job : BitVec 16)
  | query (reel : Fin 32)
  | regRead (reel : Fin 32)
  | regWrite (reel : Fin 32)
  | flowGateClose (reel : Fin 32)
  | flowGateOpen (reel : Fin 32)
  | setCap (reel : Fin 32)
  | timeGet (reel : Fin 32)
  | axisGet (reel : Fin 32)
  | cueSet (reel : Fin 32)
  | cueDisarm (reel : Fin 32)
  | axisSample (reel : Fin 32)
  | restepAuth (reel : Fin 32)
  | timeSet (reel : Fin 32)
  | evtRead (reel : Fin 32)
  | poisonedCmd (reel : Fin 32)
  | reelSubmit (who : Requester) (reel : Fin 32) (value : Word)
  | takeStart (job : BitVec 16)
  | feRelease (job : BitVec 16)
  | autoRearm (job : BitVec 16)
  | spill (job : BitVec 16)
  | spillDone (job : BitVec 16)
  | restoreDone (job : BitVec 16) (resp : Resp)
  | xeStart (core : Fin 128)
  | holdExpire (core : Fin 128)
  | nop (core : Fin 128) (eng : Engine)
  | loop (core : Fin 128) (eng : Engine)
  | endl (core : Fin 128) (eng : Engine)
  | bar (core : Fin 128) (eng : Engine)
  | barrierArrive (core : Fin 128) (eng : Engine)
  | jobBarrierRelease (job : BitVec 16) (bid : Fin 16)
  | cuewait (core : Fin 128) (eng : Engine)
  | slate (core : Fin 128) (eng : Engine)
  | slateCommit (job : BitVec 16)
  | yield (core : Fin 128) (eng : Engine)
  | phase (core : Fin 128)
  | endRun (core : Fin 128) (eng : Engine)
  | setsr (core : Fin 128)
  | ld (core : Fin 128)
  | mcastSourceIssue (core : Fin 128)
  | rcv (core : Fin 128)
  | gather (core : Fin 128)
  | st (core : Fin 128)
  | scatter (core : Fin 128)
  | srd (core : Fin 128)
  | swr (core : Fin 128)
  | ldp (core : Fin 128)
  | wcnt (core : Fin 128)
  | wcntResponse (core : Fin 128) (sb : Fin 32) (parityOk : Bool)
  | tileResponse (core : Fin 128) (q : Fin 3) (line : Nat) (resp : Resp)
  | shortResponse (core : Fin 128) (sb : Fin 32) (resp : Resp)
  | icacheFill (core : Fin 128) (eng : Engine) (resp : Resp)
  | ticketedStoreAccept (core : Fin 128)
  | mm (core : Fin 128)
  | cv (core : Fin 128)
  | arrayDrain (core : Fin 128) (upset : Option (Fin 33 × Fin 33 × Int))
  | os (core : Fin 128)
  | vmov (core : Fin 128)
  | vadd (core : Fin 128)
  | vsub (core : Fin 128)
  | vmul (core : Fin 128)
  | vfma (core : Fin 128)
  | vmax (core : Fin 128)
  | vmin (core : Fin 128)
  | vand (core : Fin 128)
  | vor (core : Fin 128)
  | vxor (core : Fin 128)
  | vshl (core : Fin 128)
  | vshr (core : Fin 128)
  | vcmplt (core : Fin 128)
  | vsel (core : Fin 128)
  | vcvt (core : Fin 128)
  | vqnt (core : Fin 128)
  | vlut (core : Fin 128)
  | vredadd (core : Fin 128)
  | vredmax (core : Fin 128)
  | vadd64 (core : Fin 128)
  | vsub64 (core : Fin 128)
  | vld (core : Fin 128)
  | vst (core : Fin 128)
  | vaccRead (core : Fin 128)
  | vaccWrite (core : Fin 128)
  | supd (core : Fin 128)
  | tld (core : Fin 128)
  | c1Stop (core : Fin 128)
  | c2Stop
  | tensorComplexReset
  | jobRestart (job : BitVec 16)
  | gafferUpdate
  | opSwitch (cl : Fin 8)
  | opChangeEnd (cl : Fin 8)
  | gatingSlot
  | barWaitWindow (waits : List (Nat × Nat))
  | calibrationUpdate (meas : List (Option Nat))
  | droopDetect (cl : Fin 8)
  | droopRecover (cl : Fin 8) (stretched : Nat)
  | sagWarn (rail : Fin 16)
  | sagReset (rail : Fin 16)
  | thermalSample (readings : List (BitVec 10))
  | thermalCeilingWindow (long : Bool)
  | thermalTrip (sensor : Fin 48)
  | prochotAssert
  | prochotRelease
  | standbyRequest (who : Requester) (value : Word)
  | wakeFrame (f : Frame)
  | wakeTimer
  | coldReset
  | poresetAssert
  | poresetRelease (straps : BitVec 4)
  | sysreset (straps : BitVec 4)
  | deviceReset (who : Requester) (value : Word)
  | internalReset (code : Byte) (index : Byte)
  | dramOpen (who : Requester) (value : Word)
  | bootDone (who : Requester) (value : Word)
  | tkWrap
  | tkNsRead (who : Requester)
  | inputEdge (pin : InPin) (rising : Bool) (t : Tk)
  | evtW0Latch (who : Requester)
  | evtPop (who : Requester) (value : Word)
  | ssiRead (axis : Fin 8) (t : Tk) (lineLow : Bool) (raw : Word)
  | axSwSample (who : Requester) (axis : Fin 8) (value : Word)
  | axisFilterUpdate (axis : Fin 8)
  | axisStall (axis : Fin 8)
  | axPhaseRead (who : Requester) (axis : Fin 8)
  | cueHandoff (slot : Fin 64)
  | cueFire (slot : Fin 64)
  | pulseEnd (pin : Fin 16)
  | remoteCaptureSend (slot : Fin 64)
  | ppsOutPulse (start : Bool)
  | ntMeasurement (who : Requester) (value : Word)
  | servoRateUpdate
  | ntHoldover
  | restep (who : Requester) (value : Word)
  | ptpSecRead (who : Requester)
  | memRequestIssue (req : MemReq)
  | meterRefill (port : Fin 8)
  | memReadComplete (ch : Fin 64) (ecc : Ecc) (syndrome : BitVec 16)
  | memWrite (ch : Fin 64)
  | cmdParityError (ch : Fin 64) (recent : Nat)
  | refresh (ch : Fin 64)
  | dramTempRead (mc : Fin 8) (degC : Byte)
  | bandChangeService (mc : Fin 8)
  | zeroFill (who : Requester) (value : Word)
  | zeroFillDone (seg : Fin 64)
  | linkUp (p : Fin 4)
  | linkDown (p : Fin 4)
  | frameReceive (p : Fin 4) (f : Frame)
  | pfcRefresh (p : Fin 4)
  | pfcReceive (p : Fin 4) (enable : BitVec 8) (quanta : Vector (BitVec 16) 8)
  | apuRxFrame (p : Fin 4)
  | txFrameDone (p : Fin 4)
  | flowFrame (p : Fin 4)
  | phaseFrame (p : Fin 4)
  | handshakeFrame (p : Fin 4)
  | attach (p : Fin 4)
  | detach (p : Fin 4)
  | cmdFrame (p : Fin 4)
  | ackFrame (p : Fin 4)
  | ackSend (reel : Fin 32)
  | cmplSend (reel : Fin 32)
  | cmplRetry (reel : Fin 32)
  | sessionLost (session : Fin 256)
  | csiPacket (port : Fin 4) (pkt : CsiPacket)
  | ispParamLoad (isp : Fin 4) (resp : Resp)
  | ispFrameDone (isp : Fin 4)
  | decodePicture (vc : Fin 2)
  | encodeFrame (vc : Fin 2) (ctx : Fin 1024)
  | trkFrame (feed : Fin 16)
  | dailyStart (unit : Fin 142)
  | dailyComplete (unit : Fin 142) (result : DailyResult) (tests : BitVec 16) (durationUs : Word)
  | packVerify
  | healthWrite (who : Requester) (unit : Fin 142) (value : Word)
  | tjPeakClear (who : Requester) (value : Word)
  | hello (origin : HsOrigin)
  | offer (origin : HsOrigin) (hsId : Byte)
  | accept (origin : HsOrigin)
  | done (origin : HsOrigin) (hsId : Byte)
  | hsTimeout (origin : HsOrigin) (hsId : Byte)
  | close (origin : HsOrigin)
  | sessClose (who : Requester) (value : Word)
  | sessionLifetimeExpiry (session : Fin 256)
  | attestReq (origin : HsOrigin)
  | attReq (who : Requester) (value : Word)
  | attestRsp
  | rekey (p : Fin 4)
  | rekeyTxSwitch (p : Fin 4)
  | mboxCmd (who : Requester) (value : Word)
  | enrol (who : Requester) (value : Word)
  | fwInstall (who : Requester) (value : Word)
  /-- `jtag` holds the token shifted in through the JTAG data register DBG_TOKEN, when it comes that way -/
  | debugToken (jtag : Option (List Byte)) (who : Requester) (value : Word)
  | jtagInstruction (i : JtagInstr)
  | measExtend (who : Requester) (value : Word)
  | fuseProgOemHash (who : Requester) (value : Word)
  | fuseRevokeRoot (who : Requester) (value : Word)
  | fuseRevokeOem (who : Requester) (value : Word)
  | auditFlashProgram (ok : Bool)
  | dmaTransferDone (resp : Resp)
  | pfcPauseExpiry (p : Fin 4) (cls : Fin 8)
  | dailyOverdue (unit : Fin 142)
  | clkLoss (port : Fin 4)
  deriving DecidableEq, Repr

end Sys2Proof
end

