-- ==== Sys2Proof/Machine/State.lean ====
section
/-! DEFINITION. The state of the block as plain data, the reasons a command can stop, and the state after reset.

Registers have one home: `regs` holds every register word in force and `staged` every staged word, each keyed by
4096 × page index + page offset (R32, R46, R57), listed only where it differs from its reset value (`Machine/Regs.lean`
gives the reset values and the views that are computed from the rest of the state). Sequencers, queues, buffers and
memories that are no register stand in their own fields. -/

namespace Sys2Proof.Machine

/-- Sparse data by key, keys strictly rising. -/
abbrev SMap (α : Type) := List (Nat × α)

/-- The three grades (R1). -/
inductive Grade where
  | wq7128 | wq7096 | wq7064
  deriving DecidableEq, Repr, Inhabited

/-- What the fuses hold (R5, R80, R536, R563). -/
structure Fuses where
  grade : Grade
  tempX : Bool
  /-- accumulator bank mapped out by repair, for the cores that have one (R108) -/
  bankOut : SMap (Fin 4)
  rootHash : Digest
  rootValid : Bool
  rootRevoked : Bool
  oemHash : Digest
  oemValid : Bool
  oemRevoked : Bool
  /-- device-unique secret (R536) -/
  dus : BitVec 256
  svnStage1 : Byte
  svnApu : Byte
  svnTc : Byte
  deriving DecidableEq, Repr

/-- What the last access returned to its requester: an error response, a discard that set an ERR_INFO, and read data. -/
structure Rsp where
  error : Bool
  discarded : Bool
  data : Word
  deriving DecidableEq, Repr

/-! ### The tensor complex -/

/-- Where poison came from, for the record of its consumer (R471, R484, R594). -/
structure PInfo where
  level : Nat
  die : Nat
  addr : Nat
  deriving DecidableEq, Repr

/-- An entry of TQ0 to TQ2 (R122 to R125): the slot, its completeness, whether LDP made it (R210), and for a W box that
starts a channel block the channels of that block inside the tensor (R590). -/
structure Token where
  slot : Nat
  complete : Bool
  isParam : Bool
  rwBlk : Option Nat
  deriving DecidableEq, Repr

/-- A tile transfer whose responses are still to come (R123, R130, R196). Sources are bit addresses in the model's one
key space: DRAM at its physical address, cluster memory and scratchpad above it. -/
structure Transfer where
  q : Nat
  slot : Nat
  isParam : Bool
  /-- header fields of R202 -/
  fmt : Nat
  beMode : Nat
  beUni : Nat
  extent : List Nat
  /-- the source bit of each element, none where it reads 0 -/
  rows : List (List (Option Nat))
  /-- the source byte of each plane byte and each side byte -/
  plane : List (Option Nat)
  side : Option (List (Option Nat))
  rwBlk : Option Nat
  /-- requests outstanding, in issue order: run, and line (R196) -/
  lines : List (Nat × Nat)
  /-- runs with a line that no longer matches, runs with a poisoned line, and the poisoned lines -/
  bad : List Nat
  clean : List Nat
  poison : List (Nat × PInfo)
  /-- bytes returned so far -/
  got : SMap Byte
  /-- parameter block fields fixed at issue (R210) -/
  param : List Byte
  /-- physical group, and the number of this issue in the group (R255) -/
  group : Option (Nat × Nat)
  /-- the source has still to wait for its members, or a member for its source -/
  waiting : Bool
  /-- this core is the source -/
  source : Bool
  deriving DecidableEq, Repr

/-- One hardware loop level in use (R216). -/
structure LoopLvl where
  idx : Nat
  count : Nat
  start : Nat
  deriving DecidableEq, Repr

/-- Why an engine issues nothing (R221 to R231). -/
inductive Wait where
  | none
  | start            -- the FE waits for release, the XE for XE_DELAY
  | hold             -- HOLD cycles after a release
  | barrier (bid : Nat) (arrived : Bool)
  | cue (lcue : Nat)
  | slate (id : Nat) (ls : Nat)
  | yield (id : Nat) (ls : Nat)
  | ended
  deriving DecidableEq, Repr

/-- One engine of a core. `missed` records that the line at `pc` has been counted as a miss (R139). -/
structure Eng where
  pc : Nat
  loops : List LoopLvl
  wait : Wait
  hold : Nat
  yields : Nat
  missed : Bool
  deriving DecidableEq, Repr

/-- A line of the instruction cache (R137), most recently used first in its list (R138). -/
structure ICLine where
  fe : Bool
  index : Nat
  words : List IWord
  deriving DecidableEq, Repr

/-- An accumulator tile (R109): 1,024 values of 56 bits, 65 checksum accumulators, the flag word of R169, and the 32
row sums of R173 when present. -/
structure Tile where
  vals : List Int
  rowChk : List Int
  colChk : List Int
  corner : Int
  trunc : Bool
  sat : Bool
  valid : Bool
  allowance : Nat
  rowSums : Option (List Int)
  /-- computed from a W slot without side data (R239, R240) -/
  noSide : Bool
  /-- Λ of the last drain (R160) -/
  anchor : Int
  /-- the shape drained (R84), and whether the row and corner checksums apply (R239, R590) -/
  m : Nat
  n : Nat
  rowsOn : Bool
  deriving DecidableEq, Repr

/-- What an MM or CV has accumulated in one accumulator set and not yet drained (R85, R86, R157, R166). -/
structure ArrSet where
  tile : Nat
  acc : Bool
  m : Nat
  n : Nat
  k : Nat
  vals : List Int
  trunc : Bool
  sat : Bool
  rowChk : List Int
  colChk : List Int
  corner : Int
  /-- a checksum accumulator took its bound (R166) -/
  chkSat : Bool
  /-- the row and corner comparisons are made (R590) -/
  rowsOn : Bool
  noSide : Bool
  rowSums : List Int
  anchor : Int
  /-- T of R167 -/
  tol : Nat
  deriving DecidableEq, Repr

/-- The take status of a core (R234). -/
structure TakeStatus where
  nonfinite : Nat
  fpInvalid : Nat
  fpOverflow : Nat
  outOfRange : Nat
  missedCues : Nat
  slateId : Nat
  deriving DecidableEq, Repr

/-- What a short-buffer entry waits for (R134, R262): source bytes of a short read, or the answer of a work counter. -/
inductive SPend where
  | none
  | read (src : List (Option Nat))
  | words (bs : List Byte)
  | served (bs : List Byte)
  deriving DecidableEq, Repr

/-- A short-buffer entry (R134 to R136, R263). -/
structure SBEntry where
  valid : Bool
  poison : Option PInfo
  pend : SPend
  /-- landed by WCNT (R263) -/
  ticket : Bool
  bytes : List Byte
  deriving DecidableEq, Repr

/-- An activation table as TLD loads it (R115, R118). -/
structure ActTable where
  x0 : Word
  invStep : Word
  t : List Word
  deriving DecidableEq, Repr

/-- What a core does (R144); GATED and OFFLINE are read from the cluster, ENABLE and the health state. -/
inductive CoreMode where
  | idle | reserved | running | stopped | spilling | restoring
  deriving DecidableEq, Repr

/-- A ticketed store whose last byte is not yet accepted (R265). -/
structure TicketStore where
  counter : Nat
  index : Nat
  gen : Word
  deriving DecidableEq, Repr

/-- An OS that the output stage has accepted and whose tile is not yet readable (R131): its word, its parameter block, Kt
and the statistics slot it names, and the result slot it has claimed. -/
structure OsEnt where
  w : Nat
  par : List Byte
  kt : Int
  idx : Nat
  slot : Option Nat
  deriving DecidableEq, Repr

/-- A tensor core (chapter "The Tensor Core"). Scratchpad bytes read 0 where unlisted (R591); `spadBad` and
`spadPoison` list the lines whose line check fails (R468) and that landed poisoned (R471). -/
structure Core where
  mode : CoreMode
  job : BitVec 16
  lcore : Nat
  wq3 : Bool
  maxOp : Nat
  fe : Eng
  xe : Eng
  spad : SMap Byte
  spadBad : List Nat
  spadPoison : SMap PInfo
  tq0 : List Token
  tq1 : List Token
  tq2 : List Token
  /-- store tokens: the ring-3 slots posted (R126) -/
  tq3 : List Nat
  /-- busy slots per ring, and the next slot of each ring (R128) -/
  busy : List (Nat × Nat)
  nextSlot : List Nat
  curSlot : Option Nat
  xfers : List Transfer
  sb : List SBEntry
  icache : List ICLine
  icacheValid : Bool
  dcache : List Nat
  lastSlot : Option Nat
  lastImage : BitVec 64
  lastJob : BitVec 16
  lastLcore : Nat
  takes : Nat
  nextSet : Bool
  sets : List ArrSet
  osq : List OsEnt
  tiles : List Tile
  vr : List (List Word)
  sr : List Word
  tables : List ActTable
  combineSat : Bool
  /-- tile and rows of the whole-tile read the vector unit is making (R96) -/
  vaccSeq : Option (Nat × Nat)
  argmax : List (Option (Word × Int))
  status : TakeStatus
  tickets : List TicketStore
  /-- a daily runs on the core (R495), and the uptime of its charged faults of the last second (R491) -/
  daily : Bool
  faultTimes : List Nat
  deriving DecidableEq, Repr

/-- A work counter (R261): the completion tracker lists the indices whose bit is set. -/
structure WorkCnt where
  job : BitVec 16
  /-- the logical counter of the job (R260) -/
  cnt : Nat
  value : Nat
  limit : Nat
  gen : Word
  done : List Nat
  deriving DecidableEq, Repr

/-- A physical cluster barrier (R222, R259): its owner and the engines that have arrived (2c for the FE of logical core
c, 2c + 1 for its XE). -/
structure Barrier where
  phys : Nat
  job : BitVec 16
  bid : Nat
  arrived : List Nat
  deriving DecidableEq, Repr

/-- A physical multicast group (R255, R259): issues of the source and of each member, as logical local cores. -/
structure McGroup where
  phys : Nat
  job : BitVec 16
  gid : Nat
  counts : SMap Nat
  deriving DecidableEq, Repr

/-- An operating-point change in progress (R503). -/
structure OpChange where
  dest : Nat
  switched : Bool
  deriving DecidableEq, Repr

/-- The phase in force of one take on a cluster (R506, R514, R515): its job, the entry of its last PHASE and the uptime
of that PHASE, and the entry the gaffer acts on. -/
structure PhaseIn where
  job : BitVec 16
  entry : Nat
  start : Nat
  act : Option Nat
  deriving DecidableEq, Repr

/-- A cluster (chapters "Tiling, Mapping and Vision Operators" and "Power, Supply and Thermal Control"). -/
structure Cluster where
  mem : SMap Byte
  tags : SMap Word
  memPoison : List Nat
  allocs : List (BitVec 16 × Nat × Nat)
  counters : List WorkCnt
  barriers : List Barrier
  groups : List McGroup
  op : Nat
  target : Nat
  ceiling : Nat
  change : Option OpChange
  /-- where the idle PLL is locked, while it is (R503) -/
  idleLock : Option Nat
  duty : Nat
  /-- the cap lowered the duty (R510) -/
  capDuty : Bool
  gated : Bool
  slot16 : Nat
  thermCeil : Nat
  wait : Nat
  stretched : Bool
  /-- most recent first -/
  phases : List PhaseIn
  /-- steps of R508 that a falling prediction undoes (R509) -/
  capSteps : Nat
  /-- no change, gating or droop since the last update (R514) -/
  quiet : Bool
  deriving DecidableEq, Repr

/-- A LOAD_IMAGE whose copy SEC still verifies: the command's reel, SEQ, session and LENGTH (R285, R294). -/
structure LoadCmd where
  reel : Nat
  seq : Nat
  job : Nat
  session : Fin 256
  gen : BitVec 16
  length : Nat
  deriving DecidableEq, Repr

/-- A program slot (R190, R294). -/
structure PSlot where
  loaded : Bool
  verifying : Option LoadCmd
  /-- the copy's trailer (R537), while SEC verifies it -/
  trailer : List Byte
  length : Nat
  imageId : BitVec 64
  digest : Digest
  deriving DecidableEq, Repr

/-- A job's states (R307). -/
inductive JobSt where
  | idle | queued | armed | running | slating | spilled | restarting | cancelling | failed
  deriving DecidableEq, Repr

/-- A pending or current run (R289, R308). -/
structure Run where
  reel : Nat
  seq : Nat
  opcode : Nat
  /-- the session that submitted it (R322), and its place in the order of acceptance (R305) -/
  session : Fin 256
  gen : BitVec 16
  acc : Nat
  lcnt : List Nat
  tag : Nat
  armed : Bool
  cue : Nat
  autoRearm : Bool
  /-- the FE's first issue, when there has been one (R290) -/
  start : Option Tk
  lastSlate : Nat
  restarts : Nat
  preempts : Nat
  maxTake : Nat
  /-- DEADLINE_RISK has been raised (R512) -/
  risk : Bool
  deriving DecidableEq, Repr

/-- The saved live set of one core (R225 to R227). -/
structure CoreSave where
  lcore : Nat
  fe : Eng
  xe : Eng
  /-- ranges with their bytes; cluster memory with the first core of a cluster -/
  spad : List (Nat × List Byte)
  clmem : List (Nat × List Byte)
  tiles : SMap Tile
  vr : Option (List (List Word))
  sr : Option (List Word)
  sb : Option (List SBEntry)
  argmax : Option (List (Option (Word × Int)))
  curSlot : Option Nat
  nextSlot : List Nat
  busy : List (Nat × Nat)
  combineSat : Bool
  status : TakeStatus
  deriving DecidableEq, Repr

/-- A segment of a job's translation table (R289). -/
structure VaSeg where
  vbase : Nat
  pbase : Nat
  bytes : Nat
  writable : Bool
  deriving DecidableEq, Repr

/-- A bound job (R288 to R320). -/
structure Job where
  id : BitVec 16
  owner : Fin 256
  ownerGen : BitVec 16
  slot : Fin 64
  cls : Nat
  retry : Bool
  /-- D of R298 when it was bound, in 1/133,056 ns -/
  dUnits : Nat
  /-- physical cluster of each logical cluster, and the start of its cluster memory -/
  placed : List (Nat × Nat)
  cueFirst : Nat
  cueCount : Nat
  area : Nat
  areaBytes : Nat
  recEntries : Nat
  /-- sizes of the parts of the area (R291) -/
  parts : List Nat
  segs : List VaSeg
  deadlineUs : Nat
  st : JobSt
  runs : List Run
  cur : Option Run
  /-- physical core of each logical core of the current take -/
  cores : List Nat
  claimed : List Nat
  ready : Bool
  released : Bool
  takeNo : Nat
  /-- takes from the same slate that ended in faults attributed to the job (R478) -/
  failures : Nat
  /-- the take has been stopped for a recovery -/
  lost : Bool
  /-- the restarted take has not had its FE's first issue: the job is still in recovery (R482) -/
  resuming : Bool
  committed : Bool
  slateId : Nat
  slateSeq : Nat
  slateB : Bool
  half : Nat
  saves : List CoreSave
  saveCnt : List (Nat × WorkCnt)
  spillSaves : List CoreSave
  sums : List Nat
  records : List (List Byte)
  fired : List (Nat × Nat)
  yieldTarget : Option Nat
  jobBars : List Barrier
  /-- the slot a BIND with REBIND moves the job to at its next commit, and the D and DEADLINE_US it then has (R192, R299) -/
  rebind : Option (Fin 64)
  nextD : Nat
  nextDeadline : Nat
  nextRetry : Bool
  /-- a CANCEL that has not completed: reel, SEQ, SCOPE (R315 to R318) -/
  cancel : Option (Nat × Nat × Nat)
  /-- a run to be armed again once a completion entry is free (R311) -/
  rearm : Option Run
  phases : List (Nat × Nat)
  deriving DecidableEq, Repr

/-- A command in a ring with the session it was submitted under (R282, R284, R287). -/
structure RingTag where
  index : Nat
  session : Fin 256
  gen : BitVec 16
  deriving DecidableEq, Repr

/-- One reel (R279 to R285, R423 to R427). -/
structure Reel where
  head : Nat
  tail : Nat
  chead : Nat
  ctail : Nat
  reserved : Nat
  tags : List RingTag
  /-- words of the submit window written since the last submission -/
  win : SMap Word
  /-- a command taken that has not completed: LOAD_IMAGE or SET_CAP (R285, R513) -/
  busy : Bool
  attached : Option (Fin 256)
  lastSession : Option (Fin 256 × BitVec 16)
  cmdSeq : Word
  cmplSeq : Word
  ackOwed : Bool
  /-- CMPL frames not yet acknowledged: SEQ, first entry, count, sendings -/
  unacked : List (Word × Nat × Nat × Nat)
  sent : Nat
  deriving DecidableEq, Repr

/-! ### Phase and time -/

/-- An axis (R331 to R335). Phases are signed 48.16, velocity signed 24.40. -/
structure Axis where
  x : Int
  v : Int
  tk : Int
  count : Nat
  velValid : Bool
  homed : Bool
  zSeen : Bool
  levelA : Bool
  levelB : Bool
  /-- the edge counter's phase, and the latest measurement not yet taken by the filter -/
  pos : Int
  meas : Option (Int × Int)
  lastT : Option Int
  /-- edges the glitch filter still holds: pin (0 A, 1 B, 2 Z), rising, time (R331) -/
  held : List (Nat × Bool × Int)
  /-- the last counted quadrature edge: pin, time, change, and the measurement before it (R331, illegal transitions) -/
  undo : Option (Nat × Int × Int × Option (Int × Int))
  deriving DecidableEq, Repr

/-- What a cue slot holds beside its registers (R341 to R348). Times are in 125 ps units of unwrapped time. -/
structure Cue where
  fireAt : Option Int
  /-- the firing scheduled is late (R341 to R343) -/
  late : Bool
  /-- further firings of a reactive slot that wait behind the scheduled one (R344) -/
  more : List Int
  handed : Bool
  waiting : Bool
  remoteSent : Bool
  up : Bool
  owner : Option (BitVec 16)
  lastEdge : Option Int
  /-- registers of commits that came after the hand-off, by their offset in the slot (R348) -/
  later : SMap Word
  deriving DecidableEq, Repr

/-- An entry of the event FIFO (R329). -/
structure Evt where
  w0 : Word
  w1 : Word
  w2 : Word
  w3 : Word
  deriving DecidableEq, Repr

/-- A CUEOUT pin (R339, R340, R346): whether it is at its active level, pulse end and last edge, in 125 ps units, and the
slot and step of the last event. -/
structure Pin where
  active : Bool
  pulse : Option Int
  lastEdge : Option Int
  /-- the last 125 ps step with an event, its events in slot order (slot, PIN_MODE, width), and level, pulse end and last edge
  before it (R346) -/
  lastAt : Option Int
  evs : List (Nat × Nat × Int)
  before : Bool × Option Int × Option Int
  deriving DecidableEq, Repr

/-- The network time servo (R356, R357); offsets in 1/256 ns. -/
structure Servo where
  good : Nat
  n : Nat
  ofsPrev : Int
  tPrev : Option Nat
  /-- the moment of the last measurement (R356) -/
  lastT : Option Int
  integ : Int
  rate : Int
  measLo : Word
  measHi : Word
  setOnce : Bool
  deriving DecidableEq, Repr

/-! ### Memory -/

/-- Whose store a request is (R128, R134, R222, R596): the core, the engine, whether it went by the short path, and the
nibbles of each byte it writes (3 both, 1 low, 2 high; R587). -/
structure Owner where
  core : Nat
  eng : Engine
  short : Bool
  nib : List Nat
  deriving DecidableEq, Repr

/-- A request in a channel (R376, R377), with the meters passed and the uptime of its arrival at the controller (R374). -/
structure Queued where
  req : MemReq
  ch : Nat
  since : Nat
  own : Option Owner
  deriving DecidableEq, Repr

/-- A request its port holds at its meters (R377). -/
structure Held where
  req : MemReq
  own : Option Owner
  deriving DecidableEq, Repr

/-- A meter below full (R377): its credits, and the uptime from which it refills with what it then had toward a credit. -/
structure Meter where
  credits : Nat
  since : Nat
  frac : Nat
  deriving DecidableEq, Repr

/-- The meters of a tensor port, by channel and by bank, listed where below full (R377). -/
structure Meters where
  chan : SMap Meter
  bank : SMap Meter
  deriving DecidableEq, Repr

/-- A line the APU L2 holds (R31): its bytes, and whether a hart has written it since it was filled or cleaned. -/
structure L2Line where
  bytes : List Byte
  dirty : Bool
  deriving DecidableEq, Repr

/-! ### Network -/

/-- IP header fields of a frame the device generates (R398): hop limit or TTL, DF, DSCP, and that a UDP checksum is computed. -/
structure TxIp where
  v6 : Bool
  hops : Nat
  df : Bool
  dscp : Nat
  summed : Bool
  deriving DecidableEq, Repr

/-- The SecTAG of a transmitted frame: AN, packet number, and whether it carries the SCI (R399, R401, R434). -/
structure TxTag where
  an : Nat
  pn : Nat
  sci : Bool
  deriving DecidableEq, Repr

/-- A frame waiting for transmission (R395, R406, R408). Class 8 stands for MAC control, which no traffic class holds back. -/
structure TxFrame where
  cls : Nat
  desc : Option Nat
  payload : Payload
  bytes : Nat
  /-- the VLAN of a CAPTURE frame (R429) -/
  vid : Option Nat
  toMac : BitVec 48
  toIp : BitVec 128
  toUdp : BitVec 16
  ip : Option TxIp
  /-- set when the frame leaves -/
  tag : Option TxTag
  deriving DecidableEq, Repr

/-- A transmit or receive secure association (R399 to R401, R544); `pn` is the next packet number. -/
structure Sa where
  an : Nat
  key : Digest
  pn : Nat
  deriving DecidableEq, Repr

/-- A port (R393 to R408). -/
structure Port where
  link : Bool
  master : Bool
  staging : List Frame
  cmdBuf : List Frame
  egress : List TxFrame
  xoff : Bool
  paused : List Nat
  txSa : Option Sa
  txNext : Option Sa
  rxSc : BitVec 64
  rxSas : List Sa
  linkSession : Option (Fin 256)
  rekeyN : Nat
  hsSecond : Nat
  hsCount : Nat
  lastTx : Option TxFrame
  /-- credits of the shapers by class, in 1/2,560,000 bit, and the uptime they are of (R395) -/
  credit : List Int
  creditAt : Nat
  /-- the first descriptor of the transmit ring that has not entered its class's queue (R408) -/
  txSeen : Nat
  deriving DecidableEq, Repr

/-- A flow's access unit in progress and its ring state (R412 to R415). -/
structure Flow where
  open_ : Bool
  data : List Byte
  arrival : Tk
  firstSeq : Nat
  lastSeq : Option Nat
  mediaTs : Word
  fmt : List Byte
  secured : Bool
  gap : Bool
  /-- packets are dropped up to the end of a discarded access unit -/
  skip : Bool
  /-- a fragmented NAL unit is in progress, and the fragment offset a later fragment continues at (R412) -/
  fu : Bool
  nextOff : Nat
  auSeq : Word
  /-- WR_BLK, and RD_BLK as read when the access unit began (R415) -/
  wr : Nat
  rd : Nat
  deriving DecidableEq, Repr

/-! ### Vision -/

/-- A line an image pipeline holds: its time, the phase of its axis at its time less TRIG_DELAY and whether that axis
showed VEL_VALID (R443), and its samples. -/
structure IspLine where
  t : Tk
  phase : Int
  valid : Bool
  samples : List (BitVec 16)
  deriving DecidableEq, Repr

/-- An image pipeline (R438 to R445): the frame or block being received or waiting to be finished, the outputs that write
nothing of it (R444), the parameter block in force, and the frames each output completed since ENABLE. -/
structure Isp where
  lines : List IspLine
  lineErr : Bool
  active : Bool
  complete : Bool
  skips : List Bool
  params : List Byte
  wantParams : Bool
  wr : List Nat
  /-- Line Start of the last line taken: a line that comes before the ISP is done with it is dropped (R440) -/
  lastLine : Option Tk
  deriving DecidableEq, Repr

/-- A codec context between pictures (R448 to R450): access units are discarded up to a random access point; the ARRIVAL
of pictures decoded and not yet output; frames written to its output; AU_SEQ of an encoder and whether its next access
unit carries GAP; the last frame taken from its source. -/
structure VcCtx where
  ctx : Nat
  lost : Bool
  held : List Tk
  wr : Nat
  auSeq : Word
  gap : Bool
  srcSeq : Nat
  deriving DecidableEq, Repr

/-! ### Integrity -/

/-- A fault waiting for its stop (R473 to R476): class, detecting core (none where JSC detected it), job attributed, and
the uptime of its detection. -/
structure FaultEv where
  cls : Nat
  core : Option Nat
  job : BitVec 16
  at_ : Nat
  deriving DecidableEq, Repr

/-- A health unit (R488 to R491). -/
structure Health where
  st : Nat
  overdue : Bool
  withheld : Bool
  faults : Nat
  passes : Nat
  lastDaily : Option Nat
  running : Bool
  deriving DecidableEq, Repr

/-! ### Security -/

/-- A session (R533, R542, R543) with the binding NET records (R421). -/
structure Session where
  isOpen : Bool
  role : Role
  keySlot : Nat
  gen : BitVec 16
  link : Bool
  port : Option (Fin 4)
  hart : Option (Fin 8)
  k : Digest
  keyDigest : Digest
  opened : Nat
  mac : BitVec 48
  ip : BitVec 128
  udp : BitVec 16
  sc : Option (BitVec 64)
  idleFrom : Nat
  deriving DecidableEq, Repr

/-- A handshake in progress (R540 to R542). -/
structure Handshake where
  origin : HsOrigin
  hsId : Byte
  hello : List Byte
  offer : List Byte
  role : Role
  keySlot : Nat
  link : Bool
  session : Option (Fin 256)
  gen : BitVec 16
  started : Nat
  status : Nat
  k : Digest
  th2 : Digest
  /-- the number of its ephemeral key pair (R541) -/
  kem : Nat
  keyDigest : Digest
  accepted : Bool
  ready : Bool
  mac : BitVec 48
  ip : BitVec 128
  udp : BitVec 16
  sc : Option (BitVec 64)
  deriving DecidableEq, Repr

/-- Fragments of a handshake message gathered so far (R540). -/
structure HsFrag where
  origin : HsOrigin
  msg : Byte
  hsId : Byte
  nfrag : Nat
  len : Nat
  got : List (Nat × List Byte)
  mac : BitVec 48
  ip : BitVec 128
  udp : BitVec 16
  deriving DecidableEq, Repr

/-- A whole handshake message waiting for SEC. -/
structure HsMsg where
  origin : HsOrigin
  msg : Byte
  hsId : Byte
  body : List Byte
  mac : BitVec 48
  ip : BitVec 128
  udp : BitVec 16
  sc : Option (BitVec 64)
  deriving DecidableEq, Repr

/-- The key store (R536, R538). -/
structure KeyStore where
  installer : Option (List Byte)
  operators : SMap (List Byte)
  enrolSeq : BitVec 64
  configSeq : Word
  deriving DecidableEq, Repr

/-- An audit entry (R555), its 128 bytes by field. -/
structure AuditEntry where
  seq : BitVec 64
  seconds : Nat
  ns : Nat
  event : Nat
  role : Nat
  session : Nat
  gen : BitVec 16
  keySlot : Nat
  result : Nat
  page : Nat
  offset : Nat
  value : Word
  aux : Word
  detail : List Byte
  chain : Digest
  deriving DecidableEq, Repr

/-- A pending attestation request (R554). -/
structure AttReq where
  origin : Option HsOrigin
  hsId : Byte
  nonce : List Byte
  cert : Bool
  buffer : Nat
  mac : BitVec 48
  ip : BitVec 128
  udp : BitVec 16
  deriving DecidableEq, Repr

/-- SEC's own state (chapter "Roles, Keys and Attestation"). -/
structure Sec where
  keys : KeyStore
  bootDone : Bool
  apuReleased : Bool
  straps : BitVec 4
  meas : List Digest
  deviceKeyOk : Bool
  deviceId : List Byte
  dbgScopes : BitVec 4
  secDebugSince : Bool
  nonceCount : Nat
  sessions : Vector Session 256
  hands : List Handshake
  frags : List HsFrag
  inbox : List HsMsg
  hartSession : List (Nat × Fin 256)
  mboxAddr : SMap Word
  mboxReply : List Nat
  staged : List AuditEntry
  flash : List AuditEntry
  checkpoints : SMap (List Byte)
  auditSeq : BitVec 64
  chain : Digest
  auditFail : Bool
  att : List AttReq
  /-- pack in force: version, PACK_ID and test count (R493, R494) -/
  pack : Option (Nat × BitVec 64 × List Byte)
  packBusy : Bool
  /-- installed firmware images by 4 × set + TYPE - 1, and the set to be tried first at the next boot (R550) -/
  flashFw : SMap (List Byte)
  trySet : Option Nat
  flashHealth : List Nat
  resetRecord : Option (Nat × Nat)
  jtag : JtagInstr
  deriving DecidableEq, Repr

/-! ### Power -/

/-- The gaffer and the supply and thermal hardware (R500 to R532). -/
structure Power where
  /-- CAL_GAIN of the eleven groups in u2.14, failed reads in a row, and the sum and number of the uncalibrated estimates
  of the present 1 ms (R516, R517) -/
  gains : List Nat
  failReads : List Nat
  estSum : List (Nat × Nat)
  /-- last calibrated estimate of each group (R508, R515), and the sums of the last 1 ms (P_AVG_MW) -/
  est : List Nat
  windowEst : List Nat
  /-- uptime until which no cluster is raised (R520) and until which faults are explained (R485) -/
  sagHoldUntil : Nat
  explainUntil : Nat
  /-- PROCHOT in force, and PROCHOT_N high again (R525) -/
  prochot : Bool
  prochotEnd : Bool
  /-- THERMTRIP_N low (R524) -/
  thermtrip : Bool
  /-- sensors at or above 115 °C at the last sample, and at the last two (R524) -/
  prevHot : List Nat
  twice : List Nat
  /-- sensors at or above THROT_C in the present 100 µs, and not below THROT_C - 3 °C in the present 1 ms (R523) -/
  hot100 : List Nat
  warm1ms : List Nat
  /-- TJ_PEAK since reset or clear (R532) -/
  peak : Option Int
  /-- SET_CAPs waiting for the next update: reel, SEQ, session, CAP_MW (R513) -/
  capPending : List (Nat × Nat × Fin 256 × Nat)
  standby : Bool
  /-- the uptime of standby entry (R527) -/
  standbyAt : Nat
  chipReset : Bool
  /-- stage 1 has enabled the cluster regulators (R570, R578) -/
  tcOn : Bool
  deriving DecidableEq, Repr

/-- The APU's general DMA engine as far as the manual speaks of it (R29, R471). -/
structure Dma where
  done : Bool
  error : Bool
  deriving DecidableEq, Repr

/-- Why the machine would stop with a fault. Every fault of this block is a record, an error response or a device reset
held in `State` (R33, R473, R483), so no command stops the machine; the one constructor is raised by no command and
stands so that the type is inhabited. Safe: it is never answered. -/
inductive Fault where
  | none
  deriving DecidableEq, Repr

/-- Why a command has no meaning. `notModelled` is raised only by an arm of `exec` whose command has no meaning yet; safe. -/
inductive Refusal where
  | notModelled (mnemonic : String)
  deriving DecidableEq, Repr

/-- The block. `free` is the model's own counter that numbers the free values drawn so far. -/
structure State where
  pending : List Instr
  rsp : Rsp
  free : Nat
  fuse : Fuses
  regs : SMap Word
  staged : SMap Word
  /-- pages whose window command is in progress, and whether it has failed (R72) -/
  winBusy : List (Nat × Bool)
  winTab : SMap Byte
  winGen : SMap Word
  plicClaimed : List (Nat × Nat)
  plicPending : List Nat
  /-- DRAM bytes by physical address, unlisted reads 0; the stored tags of the blocks whose tag is not that of their
  content; poisoned lines (R384, R466) -/
  dram : SMap Byte
  tags : SMap Word
  poison : List Nat
  /-- lines with a bit error in their cells: uncorrectable or not, and the syndrome of the first failing beat (R382, R383) -/
  cellErr : SMap (Bool × BitVec 16)
  queue : List Queued
  held : List Held
  meters : List (Nat × Meters)
  /-- uptime at which a bank may take its next command (R367), by 32 × channel + bank; 0 where unlisted -/
  bankFree : SMap Nat
  /-- segments in a fill and segments initialised, by 64 × controller + segment (R389, R390, R589) -/
  fills : List Nat
  segInit : List Nat
  /-- the bank a channel refreshes next, and the pair of rows it refreshes there (R368) -/
  refreshBank : SMap Nat
  refreshRow : SMap Nat
  selfRefresh : Bool
  bandInForce : SMap Nat
  /-- delay codes by 352 * controller + word (R372); where none is listed, the word has the fused code of the band, plus 1, that
  stage 1 or SEC loaded, or 0 -/
  dly : SMap Word
  dlyBand : SMap Nat
  ceLast : SMap Nat
  /-- lines of the APU L2 by address (R31), and the bytes of the SEC SRAM by offset (R32) -/
  l2 : SMap L2Line
  secRam : SMap Byte
  cores : Vector Core 128
  clusters : Vector Cluster 8
  slots : Vector PSlot 64
  jobs : List Job
  /-- runs accepted so far (R305) -/
  runCount : Nat
  reels : Vector Reel 32
  /-- time since PTP 0 in 1/256 ns (R325, R326) -/
  time : Nat
  /-- running count of 1/256 ns since device reset, which no step moves -/
  uptime : Nat
  axes : Vector Axis 8
  cues : Vector Cue 64
  evts : List Evt
  pins : Vector Pin 16
  ppsHigh : Bool
  /-- the moment at which the last pulse on PPS_OUT began (R351) -/
  ppsAt : Option Int
  /-- residency entries as the window last gave them (R70) -/
  resSeen : SMap (List Byte)
  /-- reels JSC has served in the present turn (R285) -/
  turn : List Nat
  servo : Servo
  ports : Vector Port 4
  flows : SMap Flow
  isps : Vector Isp 4
  csiClk : List Nat
  vcs : Vector (List VcCtx) 2
  /-- feeds whose job committed a slate that TRK has not read yet (R453) -/
  trkDue : List Nat
  faults : List FaultEv
  faultBuf : List (List Byte)
  faultSeq : Word
  recovering : Option Nat
  c2Active : Bool
  /-- uptime at which DAILY_EN was set (R495) -/
  dailyFrom : Nat
  health : Vector Health 142
  sec : Sec
  power : Power
  dma : Dma
  deriving DecidableEq, Repr

/-! ### The state after reset -/

/-- Four zero loops, nothing to do. -/
def Eng.reset : Eng := ⟨0, [], .start, 0, 0, false⟩

def Tile.reset : Tile :=
  ⟨List.replicate 1024 0, List.replicate 32 0, List.replicate 32 0, 0, false, false, true, 0, none, false, 0,
    32, 32, true⟩

def TakeStatus.reset : TakeStatus := ⟨0, 0, 0, 0, 0, 0⟩

def SBEntry.reset : SBEntry := ⟨false, none, .none, false, List.replicate 64 0⟩

def ActTable.reset : ActTable := ⟨0, 0, List.replicate 257 0⟩

/-- A core after device reset (R147, R591, R592). -/
def Core.reset : Core where
  mode := .idle
  job := 0
  lcore := 0
  wq3 := false
  maxOp := 0
  fe := Eng.reset
  xe := Eng.reset
  spad := []
  spadBad := []
  spadPoison := []
  tq0 := []
  tq1 := []
  tq2 := []
  tq3 := []
  busy := []
  nextSlot := [0, 0, 0, 0]
  curSlot := none
  xfers := []
  sb := List.replicate 32 SBEntry.reset
  icache := []
  icacheValid := false
  dcache := []
  lastSlot := none
  lastImage := 0
  lastJob := 0
  lastLcore := 0
  takes := 0
  nextSet := false
  sets := []
  osq := []
  tiles := List.replicate 16 Tile.reset
  vr := List.replicate 32 (List.replicate 32 0)
  sr := List.replicate 16 0
  tables := List.replicate 4 ActTable.reset
  combineSat := false
  vaccSeq := none
  argmax := List.replicate 32 none
  status := TakeStatus.reset
  tickets := []
  daily := false
  faultTimes := []

def WorkCnt.reset : WorkCnt := ⟨0, 0, 0, 0, 0, []⟩

def Cluster.reset : Cluster where
  mem := []
  tags := []
  memPoison := []
  allocs := []
  counters := List.replicate 16 WorkCnt.reset
  barriers := []
  groups := []
  op := 0
  target := 0
  ceiling := 5
  change := none
  idleLock := some 0
  duty := 16
  capDuty := false
  gated := false
  slot16 := 0
  thermCeil := 7
  wait := 0
  stretched := false
  phases := []
  capSteps := 0
  quiet := true

def PSlot.reset : PSlot := ⟨false, none, [], 0, 0, 0⟩

def Reel.reset : Reel where
  head := 0
  tail := 0
  chead := 0
  ctail := 0
  reserved := 0
  tags := []
  win := []
  busy := false
  attached := none
  lastSession := none
  cmdSeq := 1
  cmplSeq := 1
  ackOwed := false
  unacked := []
  sent := 0

def Axis.reset : Axis := ⟨0, 0, 0, 0, false, false, false, false, false, 0, none, none, [], none⟩

def Cue.reset : Cue := ⟨none, false, [], false, false, false, false, none, none, []⟩

def Pin.reset : Pin := ⟨false, none, none, none, [], (false, none, none)⟩

def Servo.reset : Servo := ⟨0, 0, 0, none, none, 0, 0, 0, 0, false⟩

def Port.reset : Port where
  link := false
  master := false
  staging := []
  cmdBuf := []
  egress := []
  xoff := false
  paused := []
  txSa := none
  txNext := none
  rxSc := 0
  rxSas := []
  linkSession := none
  rekeyN := 0
  hsSecond := 0
  hsCount := 0
  lastTx := none
  credit := List.replicate 8 0
  creditAt := 0
  txSeen := 0

def Isp.reset : Isp := ⟨[], false, false, false, [false, false, false], [], false, [0, 0, 0], none⟩

def Health.reset : Health := ⟨0, false, false, 0, 0, none, false⟩

/-- Session 0, the local session, is always open (R535). -/
def Session.reset (i : Nat) : Session where
  isOpen := i == 0
  role := .operator
  keySlot := 0xFF
  gen := 0
  link := false
  port := none
  hart := none
  k := 0
  keyDigest := 0
  opened := 0
  mac := 0
  ip := 0
  udp := 0
  sc := none
  idleFrom := 0

def KeyStore.reset : KeyStore := ⟨none, [], 0, 0⟩

def Sec.reset : Sec where
  keys := KeyStore.reset
  bootDone := false
  apuReleased := false
  straps := 0
  meas := List.replicate 8 0
  deviceKeyOk := true
  deviceId := List.replicate 32 0
  dbgScopes := 0
  secDebugSince := false
  nonceCount := 0
  sessions := Vector.ofFn (fun i => Session.reset i.val)
  hands := []
  frags := []
  inbox := []
  hartSession := []
  mboxAddr := []
  mboxReply := []
  staged := []
  flash := []
  checkpoints := []
  auditSeq := 0
  chain := 0
  auditFail := false
  att := []
  pack := none
  packBusy := false
  flashFw := []
  trySet := none
  flashHealth := List.replicate 142 0
  resetRecord := none
  jtag := .bypass

def Power.reset : Power where
  gains := List.replicate 11 0x4000
  failReads := List.replicate 11 0
  estSum := List.replicate 11 (0, 0)
  est := List.replicate 11 0
  windowEst := []
  sagHoldUntil := 0
  explainUntil := 0
  prochot := false
  prochotEnd := false
  thermtrip := false
  prevHot := []
  twice := []
  hot100 := []
  warm1ms := []
  peak := none
  capPending := []
  standby := false
  standbyAt := 0
  chipReset := true
  tcOn := false

/-- A WQ-7128-B0-I part with the root key fused and no repair (the log names each of these choices). -/
def Fuses.reset : Fuses where
  grade := .wq7128
  tempX := false
  bankOut := []
  rootHash := 0
  rootValid := true
  rootRevoked := false
  oemHash := 0
  oemValid := false
  oemRevoked := false
  dus := 0
  svnStage1 := 0
  svnApu := 0
  svnTc := 0

/-- The block right after a cold reset, before the rise of PORESET_N (R572): every register at its reset value, every
sequencer idle, RESET_CAUSE 0x20. -/
def State.reset : State where
  pending := []
  rsp := ⟨false, false, 0⟩
  free := 0
  fuse := Fuses.reset
  regs := [(0x104, 0x20)]
  staged := []
  winBusy := []
  winTab := []
  winGen := []
  plicClaimed := []
  plicPending := []
  dram := []
  tags := []
  poison := []
  cellErr := []
  queue := []
  held := []
  meters := []
  bankFree := []
  fills := []
  segInit := []
  refreshBank := []
  refreshRow := []
  selfRefresh := false
  bandInForce := []
  dly := []
  dlyBand := []
  ceLast := []
  l2 := []
  secRam := []
  cores := Vector.replicate 128 Core.reset
  clusters := Vector.replicate 8 Cluster.reset
  slots := Vector.replicate 64 PSlot.reset
  jobs := []
  runCount := 0
  reels := Vector.replicate 32 Reel.reset
  time := 0
  uptime := 0
  axes := Vector.replicate 8 Axis.reset
  cues := Vector.replicate 64 Cue.reset
  evts := []
  pins := Vector.replicate 16 Pin.reset
  ppsHigh := false
  ppsAt := none
  resSeen := []
  turn := []
  servo := Servo.reset
  ports := Vector.replicate 4 Port.reset
  flows := []
  isps := Vector.replicate 4 Isp.reset
  csiClk := []
  vcs := Vector.replicate 2 []
  trkDue := []
  faults := []
  faultBuf := []
  faultSeq := 0
  recovering := none
  c2Active := false
  dailyFrom := 0
  health := Vector.replicate 142 Health.reset
  sec := Sec.reset
  power := Power.reset
  dma := ⟨false, false⟩

end Sys2Proof.Machine
end

