-- ==== Sys2Proof/Machine/Maps.lean ====
section
/-! DEFINITION. Reading and writing sparse maps in their canonical form, bit fields, and little-endian words (R11). -/

namespace Sys2Proof.Machine

/-- The value listed at a key. -/
def mapGet? {α : Type} : SMap α → Nat → Option α
  | [], _ => none
  | (k, v) :: m, i => if k = i then some v else mapGet? m i

/-- The value at a key, `d` where unlisted. -/
def mapGet {α : Type} (m : SMap α) (i : Nat) (d : α) : α := (mapGet? m i).getD d

/-- Takes a key out. -/
def mapDel {α : Type} : SMap α → Nat → SMap α
  | [], _ => []
  | (k, v) :: m, i => if k = i then mapDel m i else (k, v) :: mapDel m i

/-- Lists a value at a key, keys rising. -/
def mapPut {α : Type} : SMap α → Nat → α → SMap α
  | [], i, v => [(i, v)]
  | (k, w) :: m, i, v =>
    if i < k then (i, v) :: (k, w) :: m else if i = k then (i, v) :: m else (k, w) :: mapPut m i v

/-- Writes a value where unlisted keys read `d`: the default is never listed. -/
def mapSet {α : Type} [DecidableEq α] (m : SMap α) (i : Nat) (d v : α) : SMap α :=
  if v = d then mapDel m i else mapPut m i v

/-- Keys strictly rising. -/
def mapSorted {α : Type} : SMap α → Bool
  | [] => true
  | [_] => true
  | (a, _) :: (b, w) :: m => decide (a < b) && mapSorted ((b, w) :: m)

/-- The canonical form of a map whose unlisted keys read `d`. -/
def mapWf {α : Type} [DecidableEq α] (d : α) (m : SMap α) : Bool := mapSorted m && m.all (fun p => !decide (p.2 = d))

/-- Bits [hi:lo] of a number. -/
def bits (n hi lo : Nat) : Nat := (n / 2 ^ lo) % 2 ^ (hi + 1 - lo)

/-- Bit b of a number. -/
def bit (n b : Nat) : Bool := (n / 2 ^ b) % 2 == 1

/-- 1 for true. -/
def b2n (b : Bool) : Nat := if b then 1 else 0

/-- A number of `w` bits read as two's complement. -/
def sext (w n : Nat) : Int :=
  let m := n % 2 ^ w
  if m < 2 ^ (w - 1) then (m : Int) else (m : Int) - (2 ^ w : Nat)

/-- The low `w` bits of an integer. -/
def wrapTo (w : Nat) (x : Int) : Nat := (x % ((2 ^ w : Nat) : Int)).toNat

/-- Saturates to [lo, hi]. -/
def clampI (lo hi x : Int) : Int := if x < lo then lo else if hi < x then hi else x

/-- A word of a number, modulo 2^32. -/
def w32 (n : Nat) : Word := BitVec.ofNat 32 n

/-- Saturating increment of a 32-bit counter. -/
def satInc (w : Word) (n : Nat := 1) : Word := w32 (min (w.toNat + n) 0xFFFFFFFF)

/-- The number a byte list spells, first byte lowest (R11). -/
def leNat : List Byte → Nat
  | [] => 0
  | b :: bs => b.toNat + 256 * leNat bs

/-- `n` bytes of a number, lowest first (R11). -/
def leBytes : Nat → Nat → List Byte
  | 0, _ => []
  | n + 1, x => BitVec.ofNat 8 x :: leBytes n (x / 256)

/-- A field of `n` bytes at offset `o` of a structure. -/
def fld (bs : List Byte) (o n : Nat) : Nat := leNat ((bs.drop o).take n)

/-- A signed field. -/
def fldS (bs : List Byte) (o n : Nat) : Int := sext (8 * n) (fld bs o n)

/-- Writes `n` bytes of `x` at offset `o` of a structure. -/
def setFld (bs : List Byte) (o n x : Nat) : List Byte := bs.take o ++ leBytes n x ++ bs.drop (o + n)

/-- The 32-bit words a byte list spells. -/
def leWords : List Byte → List Word
  | a :: b :: c :: d :: r => w32 (leNat [a, b, c, d]) :: leWords r
  | [] => []
  | r => [w32 (leNat r)]

/-- Pads with zeros, or cuts, to `n` bytes. -/
def fitBytes (n : Nat) (bs : List Byte) : List Byte := (bs ++ List.replicate (n - bs.length) 0).take n

/-- Replaces the element at a position, where there is one. -/
def setAt {α : Type} (l : List α) (i : Nat) (v : α) : List α := l.set i v

/-- Adds a number to an ascending list without repeats. -/
def insN : List Nat → Nat → List Nat
  | [], n => [n]
  | m :: l, n => if n < m then n :: m :: l else if n = m then m :: l else m :: insN l n

/-- Takes a number out of a list. -/
def delN (l : List Nat) (n : Nat) : List Nat := l.filter (· ≠ n)

/-- Keeps the last `n` elements. -/
def lastN {α : Type} (n : Nat) (l : List α) : List α := l.drop (l.length - n)

/-- Applies a function to a state `n` times with the index rising from `i`. -/
def iterate {σ : Type} (f : Nat → σ → σ) : Nat → Nat → σ → σ
  | 0, _, s => s
  | n + 1, i, s => iterate f n (i + 1) (f i s)

/-- Integer division rounding to nearest, ties to even (R174). -/
def rneDiv (x : Int) (d : Nat) : Int :=
  let q := x / (d : Int)
  let r := x - q * (d : Int)
  if 2 * r < (d : Int) then q else if (d : Int) < 2 * r then q + 1 else if q % 2 = 0 then q else q + 1

/-- Floor of log2; 0 for 0. -/
def ilog2 (n : Nat) : Nat := n.log2

/-- Bits set in a number below 2^w. -/
def popCount (w n : Nat) : Nat := ((List.range w).filter (bit n)).length

/-- Positions of the bits set in a number below 2^w. -/
def bitList (w n : Nat) : List Nat := (List.range w).filter (bit n)

/-- The number with exactly the listed bits set. -/
def ofBits (l : List Nat) : Nat := l.foldl (fun a b => a ||| 2 ^ b) 0

end Sys2Proof.Machine
end

