-- ==== Sys2Proof/Machine/Float.lean ====
section
/-! DEFINITION. FP32 arithmetic of the vector unit and output stage (R112) in exact numbers rounded once, and the element
formats of R148 with their conversions (R154, R175). -/

namespace Sys2Proof.Machine

/-- A result with the two occurrences R112 counts. -/
structure FR where
  val : Word
  invalid : Bool := false
  overflow : Bool := false
  deriving DecidableEq, Repr

/-- A decoded FP32 value: ±m × 2^e where finite; subnormals read as zero. -/
inductive Fl where
  | nan
  | inf (neg : Bool)
  | fin (neg : Bool) (m : Nat) (e : Int)
  deriving DecidableEq, Repr

def fNan : Word := 0x7FC00000
def fInf (neg : Bool) : Word := if neg then 0xFF800000 else 0x7F800000
def fZero (neg : Bool) : Word := if neg then 0x80000000 else 0

def fdecode (w : Word) : Fl :=
  let n := w.toNat
  let neg := bit n 31
  let e := bits n 30 23
  let m := bits n 22 0
  if e = 255 then (if m = 0 then .inf neg else .nan)
  else if e = 0 then .fin neg 0 0
  else .fin neg (m + 2 ^ 23) ((e : Int) - 150)

/-- A signalling NaN: an operand that makes an operation invalid (R112; IEEE 754-2019, 7.2). -/
def isSnan (w : Word) : Bool := bits w.toNat 30 23 == 255 && bits w.toNat 22 0 != 0 && !bit w.toNat 22

/-- m × 2^k for an integer exponent, floor for a negative one, with whether bits were lost. -/
def shl (m : Nat) (k : Int) : Nat × Bool :=
  if 0 ≤ k then (m * 2 ^ k.toNat, false) else (m / 2 ^ (-k).toNat, m % 2 ^ (-k).toNat ≠ 0)

/-- Rounds m/2^k, ties to even. -/
def rneShift (m k : Nat) : Nat := (rneDiv m (2 ^ k)).toNat

/-- rne32 of ±m × 2^e (R112): one rounding, results below 2^−126 flushed, overflow to infinity. -/
def froundDy (neg : Bool) (m : Nat) (e : Int) : FR :=
  if m = 0 then ⟨fZero neg, false, false⟩
  else
    let bl := ilog2 m + 1
    let (q, e) := if bl ≤ 24 then (m * 2 ^ (24 - bl), e - ((24 - bl : Nat) : Int)) else (rneShift m (bl - 24), e + ((bl - 24 : Nat) : Int))
    let (q, e) := if q = 2 ^ 24 then (2 ^ 23, e + 1) else (q, e)
    let ex := e + 23
    if ex < -126 then ⟨fZero neg, false, false⟩
    else if 127 < ex then ⟨fInf neg, false, true⟩
    else ⟨w32 (b2n neg * 2 ^ 31 + (ex + 127).toNat * 2 ^ 23 + (q - 2 ^ 23)), false, false⟩

/-- rne32 of an integer times a power of two; zero is +0. -/
def froundInt (x : Int) (e : Int) : FR := froundDy (x < 0) x.natAbs e

/-- rne32 of ±num/den × 2^e. -/
def froundQ (neg : Bool) (num den : Nat) (e : Int) : FR :=
  if num = 0 then ⟨fZero neg, false, false⟩
  else
    let k := 28 + ilog2 den - min (ilog2 num) (ilog2 den + 28) + 1
    let q := num * 2 ^ k / den
    let st := if num * 2 ^ k % den = 0 then 0 else 1
    froundDy neg (2 * q + st) (e - k - 1)

/-- The exact dyadic number of a finite value as integer and exponent. -/
def flInt (neg : Bool) (m : Nat) : Int := if neg then -(m : Int) else m

/-- Aligns two dyadic numbers and adds them. -/
def dyAdd (a : Int) (ea : Int) (b : Int) (eb : Int) : Int × Int :=
  let e := min ea eb
  (a * 2 ^ (ea - e).toNat + b * 2 ^ (eb - e).toNat, e)

def fadd (a b : Word) : FR :=
  match fdecode a, fdecode b with
  | .nan, _ => ⟨fNan, isSnan a || isSnan b, false⟩
  | _, .nan => ⟨fNan, isSnan b, false⟩
  | .inf s, .inf t => if s = t then ⟨fInf s, false, false⟩ else ⟨fNan, true, false⟩
  | .inf s, _ => ⟨fInf s, false, false⟩
  | _, .inf t => ⟨fInf t, false, false⟩
  | .fin s m e, .fin t n f =>
    if m = 0 ∧ n = 0 then ⟨fZero (s && t), false, false⟩
    else
      let (x, g) := dyAdd (flInt s m) e (flInt t n) f
      froundInt x g

def fneg (a : Word) : Word := a ^^^ 0x80000000
def fabs (a : Word) : Word := a &&& 0x7FFFFFFF
def fsub (a b : Word) : FR := fadd a (fneg b)

/-- a × b × 2^k, rounded once. -/
def fmulExp (a b : Word) (k : Int) : FR :=
  match fdecode a, fdecode b with
  | .nan, _ => ⟨fNan, isSnan a || isSnan b, false⟩
  | _, .nan => ⟨fNan, isSnan b, false⟩
  | .inf s, .inf t => ⟨fInf (s != t), false, false⟩
  | .inf s, .fin t n _ => if n = 0 then ⟨fNan, true, false⟩ else ⟨fInf (s != t), false, false⟩
  | .fin s m _, .inf t => if m = 0 then ⟨fNan, true, false⟩ else ⟨fInf (s != t), false, false⟩
  | .fin s m e, .fin t n f => froundDy (s != t) (m * n) (e + f + k)

def fmul (a b : Word) : FR := fmulExp a b 0

/-- Fused multiply-add with a single rounding. DESIGN CHOICE (log 54): zero times infinity plus a quiet NaN is counted as
an invalid operation, which IEEE 754-2019 leaves to the implementation. -/
def ffma (a b c : Word) : FR :=
  match fdecode a, fdecode b, fdecode c with
  | .nan, _, _ => ⟨fNan, isSnan a || isSnan b || isSnan c, false⟩
  | _, .nan, _ => ⟨fNan, isSnan b || isSnan c, false⟩
  | .fin s m e, .fin t n f, .fin u k g =>
    if m = 0 ∨ n = 0 then
      if k = 0 then ⟨fZero ((s != t) && u), false, false⟩ else froundDy u k g
    else
      let (x, h) := dyAdd (flInt (s != t) (m * n)) (e + f) (flInt u k) g
      if x = 0 then ⟨fZero false, false, false⟩ else froundInt x h
  | x, y, z =>
    let p := match x, y with
      | .inf s, .inf t => Fl.inf (s != t)
      | .inf s, .fin t n _ => if n = 0 then Fl.nan else Fl.inf (s != t)
      | .fin s m _, .inf t => if m = 0 then Fl.nan else Fl.inf (s != t)
      | .fin s m e, .fin t n f => Fl.fin (s != t) (m * n) (e + f)
      | _, _ => Fl.nan
    match p, z with
    | .nan, _ => ⟨fNan, true, false⟩
    | _, .nan => ⟨fNan, isSnan c, false⟩
    | .inf s, .inf t => if s = t then ⟨fInf s, false, false⟩ else ⟨fNan, true, false⟩
    | .inf s, _ => ⟨fInf s, false, false⟩
    | _, .inf t => ⟨fInf t, false, false⟩
    | .fin s m e, .fin t n f => froundInt (dyAdd (flInt s m) e (flInt t n) f).1 (dyAdd (flInt s m) e (flInt t n) f).2

/-- Division (R112): by zero gives infinity and counts as an overflow, zero by zero as invalid. -/
def fdiv (a b : Word) : FR :=
  match fdecode a, fdecode b with
  | .nan, _ => ⟨fNan, isSnan a || isSnan b, false⟩
  | _, .nan => ⟨fNan, isSnan b, false⟩
  | .inf _, .inf _ => ⟨fNan, true, false⟩
  | .inf s, .fin t _ _ => ⟨fInf (s != t), false, false⟩
  | .fin s _ _, .inf t => ⟨fZero (s != t), false, false⟩
  | .fin s m e, .fin t n f =>
    if n = 0 then (if m = 0 then ⟨fNan, true, false⟩ else ⟨fInf (s != t), false, true⟩)
    else froundQ (s != t) m n (e - f)

/-- Multiplies by 2^k exactly up to one rounding. -/
def fldexp (a : Word) (k : Int) : FR :=
  match fdecode a with
  | .fin s m e => froundDy s m (e + k)
  | .inf s => ⟨fInf s, false, false⟩
  | .nan => ⟨fNan, isSnan a, false⟩

def fIsNan (a : Word) : Bool := fdecode a == .nan

/-- A finite or infinite value as a comparable pair: sign-magnitude key. -/
def fkey (a : Word) : Int :=
  let n := a.toNat
  let m : Nat := if bits n 30 23 = 0 then 0 else n % 2 ^ 31
  if bit n 31 then -(m : Int) else m

/-- IEEE less-than; −0 equals +0. -/
def flt (a b : Word) : Bool := !fIsNan a && !fIsNan b && decide (fkey a < fkey b)

/-- Flushes a subnormal input. -/
def fflush (a : Word) : Word := if bits a.toNat 30 23 = 0 then fZero (bit a.toNat 31) else a

/-- maximumNumber and minimumNumber (R214). -/
def fmaxNum (a b : Word) : Word :=
  if fIsNan a then (if fIsNan b then fNan else fflush b)
  else if fIsNan b then fflush a
  else if fkey a < fkey b then fflush b
  else if fkey b < fkey a then fflush a
  else if bit a.toNat 31 then fflush b else fflush a
def fminNum (a b : Word) : Word :=
  if fIsNan a then (if fIsNan b then fNan else fflush b)
  else if fIsNan b then fflush a
  else if fkey a < fkey b then fflush a
  else if fkey b < fkey a then fflush b
  else if bit a.toNat 31 then fflush a else fflush b

/-- Rounding of ±m × 2^e to an integer: 0 nearest even, 1 toward zero, 2 down, 3 up (R214). -/
def roundInt (mode : Nat) (neg : Bool) (m : Nat) (e : Int) : Int :=
  if 0 ≤ e then flInt neg (m * 2 ^ e.toNat)
  else
    let d := 2 ^ (-e).toNat
    let x := flInt neg m
    match mode with
    | 0 => rneDiv x d
    | 1 => Int.tdiv x d
    | 2 => x / (d : Int)
    | _ => -((-x) / (d : Int))

/-! ### Element formats (R148, R154) -/

/-- Stored bits of an element of a FORMAT code (R194). -/
def fmtBits : Nat → Nat
  | 0 => 4 | 1 => 4 | 2 => 8 | 3 => 8 | 4 => 8 | 5 => 8 | 6 => 16 | 7 => 32 | 8 => 16 | 9 => 32 | 10 => 32 | _ => 8

/-- Bytes of `n` elements. -/
def fmtBytes (fmt n : Nat) : Nat := (n * fmtBits fmt + 7) / 8

/-- A format of the block path (R151). -/
def isBlockFmt (fmt : Nat) : Bool := fmt == 5 || fmt == 6

/-- A cell operand: significand, shift, and whether the element was NaN or infinite (R148, R150). -/
structure CellOp where
  s : Int
  h : Nat
  nonfinite : Bool := false
  deriving DecidableEq, Repr

/-- Conversion of the formats with a fixed φ. -/
def cellOp (fmt v : Nat) : CellOp :=
  match fmt with
  | 0 => ⟨sext 4 v, 0, false⟩
  | 1 => ⟨((v % 16 : Nat) : Int), 0, false⟩
  | 2 => ⟨sext 8 v, 0, false⟩
  | 3 => ⟨((v % 256 : Nat) : Int), 0, false⟩
  | 4 =>
    let e := bits v 6 3
    let m := bits v 2 0
    if e = 15 ∧ m = 7 then ⟨0, 0, true⟩
    else ⟨flInt (bit v 7) (if e = 0 then m else 8 + m), if e = 0 then 0 else e - 1, false⟩
  | _ => ⟨0, 0, false⟩

/-- φ of the formats with a fixed one. -/
def fmtPhi (fmt : Nat) : Int := if fmt = 4 then -9 else 0

/-- ±m × 2^(e − p) of a block-path element: sign, m, e, and whether it was NaN or infinite (R154). -/
def blockElem (fmt v : Nat) : Bool × Nat × Int × Bool :=
  if fmt = 5 then
    let e := bits v 6 2
    let m := bits v 1 0
    if e = 31 then (bit v 7, 0, -14, true)
    else (bit v 7, if e = 0 then m else 4 + m, if e = 0 then -14 else (e : Int) - 15, false)
  else
    let e := bits v 14 7
    let m := bits v 6 0
    if e = 255 then (bit v 15, 0, -126, true)
    else (bit v 15, if e = 0 then m else 128 + m, if e = 0 then -126 else (e : Int) - 127, false)

def blockP (fmt : Nat) : Int := if fmt = 5 then 2 else 7

/-- A block of stored elements as cell operands, its φ, and whether an element was flushed (R148, R154). -/
def convBlock (fmt : Nat) (vs : List Nat) : List CellOp × Int × Bool :=
  if isBlockFmt fmt then
    let es := vs.map (blockElem fmt)
    let nz := es.filter (fun x => x.2.1 ≠ 0)
    match nz with
    | [] => (es.map (fun x => ⟨0, 0, x.2.2.2⟩), 0, false)
    | x :: xs =>
      let emax := xs.foldl (fun a y => max a y.2.2.1) x.2.2.1
      let ops := es.map (fun y =>
        if y.2.1 = 0 then (⟨0, 0, y.2.2.2⟩ : CellOp)
        else if emax - 15 ≤ y.2.2.1 then ⟨flInt y.1 y.2.1, (y.2.2.1 - emax + 15).toNat, false⟩
        else ⟨0, 0, false⟩)
      (ops, emax - 15 - blockP fmt, nz.any (fun y => decide (y.2.2.1 < emax - 15)))
  else (vs.map (cellOp fmt), fmtPhi fmt, false)

/-- The contribution of a product (R156): value and whether bits were discarded. -/
def contribution (sa : Int) (ha : Nat) (ga : Int) (sw : Int) (hw : Nat) (gw : Int) (anchor : Int) : Int × Bool :=
  let p := sa * sw
  let sh := (ha : Int) + hw + ga + gw - anchor
  if 0 ≤ sh then (p * 2 ^ sh.toNat, false)
  else
    let d : Int := 2 ^ (-sh).toNat
    let q := Int.tdiv p d
    (q, q * d ≠ p)

/-- Bounds of the 56-bit accumulator (R157). -/
def accMax : Int := 2 ^ 55 - 1
def accMin : Int := -(2 ^ 55)

/-! ### Quantisation (R175) -/

/-- Largest finite magnitude of an output format as FP32 (R180): 127 for signed INT8, and of every other signed integer
format the magnitude of its smallest value. -/
def qmax (fmt : Nat) : Word :=
  match fmt with
  | 0 => 0x41000000 | 1 => 0x41700000 | 2 => 0x42FE0000 | 3 => 0x437F0000 | 4 => 0x43E00000 | 5 => 0x47600000
  | 6 => 0x7F7F0000 | 8 => 0x47000000 | 9 => 0x4F000000 | _ => 0x7F7FFFFF

/-- Integer range of an output format. -/
def intRange (fmt : Nat) : Int × Int :=
  match fmt with
  | 0 => (-8, 7) | 1 => (0, 15) | 2 => (-128, 127) | 3 => (0, 255) | 8 => (-32768, 32767)
  | _ => (-2147483648, 2147483647)

/-- A small float: exponent bits, mantissa bits, bias. -/
def smallFmt (fmt : Nat) : Nat × Nat × Int :=
  if fmt = 4 then (4, 3, 7) else if fmt = 5 then (5, 2, 15) else (8, 7, 127)

/-- Rounds ±m × 2^e to a small float, nearest even, clamped to its largest finite magnitude: code and whether clamped. -/
def toSmall (fmt : Nat) (neg : Bool) (m : Nat) (e : Int) : Nat × Bool :=
  let (eb, mb, bias) := smallFmt fmt
  let sgn := if neg then 2 ^ (eb + mb) else 0
  let maxCode := if fmt = 4 then 0x7E else if fmt = 5 then 0x7B else 0x7F7F
  if m = 0 then (sgn, false)
  else
    let top := (ilog2 m : Int) + e
    let lsb := max (top - mb) (1 - bias - mb)
    let q := if lsb ≤ e then m * 2 ^ (e - lsb).toNat else rneShift m (lsb - e).toNat
    if q = 0 then (sgn, false)
    else
      let code := if q < 2 ^ mb then q else
        -- normal: q in [2^mb, 2^(mb+1)], exponent lsb + mb
        let ex := lsb + mb + bias
        (ex - 1).toNat * 2 ^ mb + q
      -- above 448 or 57,344 the magnitude itself counts; BF16 counts overflow of the rounded value
      let k : Int := if fmt = 4 then 6 else 13
      let above := fmt ≠ 6 && (if k ≤ e then 7 < m * 2 ^ (e - k).toNat else 7 * 2 ^ (k - e).toNat < m)
      if above || maxCode < code then (sgn + maxCode, true) else (sgn + code, false)

/-- The result of quantising one element. -/
structure Quant where
  bits : Nat
  sat : Bool
  ufl : Bool
  deriving DecidableEq, Repr

/-- quantise(u) with the output zero point; `y5` decides underflow and is what FP32 writes. -/
def quantise (fmt : Nat) (zo : Int) (y5 u : Word) : Quant :=
  let y0 := fkey y5 = 0 ∧ !fIsNan y5
  if fmt = 7 then ⟨y5.toNat, false, false⟩
  else if fmt = 4 ∨ fmt = 5 ∨ fmt = 6 then
    match fdecode u with
    | .nan => ⟨if fmt = 6 then 0x7FC0 else 0x7F, true, false⟩
    | .inf s =>
      let c := if fmt = 4 then 0x7E else if fmt = 5 then 0x7B else 0x7F7F
      ⟨(if s then (if fmt = 6 then 0x8000 else 0x80) else 0) + c, true, false⟩
    | .fin s m e =>
      let (c, sat) := toSmall fmt s m e
      let zero := c % (if fmt = 6 then 0x8000 else 0x80) = 0
      ⟨c, sat, zero ∧ m ≠ 0 ∧ ¬ y0⟩
  else
    let (lo, hi) := intRange fmt
    let w := fmtBits fmt
    match fdecode u with
    | .nan => ⟨wrapTo w (clampI lo hi zo), true, false⟩
    | .inf s => ⟨wrapTo w (if s then lo else hi), true, false⟩
    | .fin s m e =>
      let n := roundInt 0 s m e
      let x := n + zo
      ⟨wrapTo w (clampI lo hi x), x < lo ∨ hi < x, n = 0 ∧ ¬ y0⟩

end Sys2Proof.Machine
end

