-- ==== Sys2Proof/Config.lean ====
section
/-! DEFINITION. What the manual leaves to an implementation or to a named standard, as constants without a body: nothing
can be proved of their values, so every claim holds whatever they are. -/

namespace Sys2Proof.Config

/-- SHA3-512 (FIPS 202) of a byte string (R536, R552). -/
opaque sha3 : List Byte → Digest
/-- ML-DSA-87 verification (FIPS 204): public key, context, 64-byte digest, signature (R537). -/
opaque mldsaVerify : List Byte → List Byte → Digest → List Byte → Bool
/-- ML-DSA-87 signing with the device key: device-unique secret, context, digest, run number (R536, R537). -/
opaque mldsaSign : BitVec 256 → List Byte → Digest → Nat → List Byte
/-- The encapsulation key of SEC's nth ephemeral ML-KEM-1024 key pair (FIPS 203), and what that pair decapsulates from a
ciphertext (R541). -/
opaque kemKey : Nat → List Byte
opaque kemDecaps : Nat → List Byte → List Byte
/-- The device public key and the device certificate of a device-unique secret (R536). -/
opaque devicePublicKey : BitVec 256 → List Byte
opaque deviceCert : BitVec 256 → List Byte
/-- Where an image holds the data of a weight tensor's descriptor, its block-exponent plane and its side data, by the image's
bytes and the handle: offsets in the image (R165; log 24). -/
opaque weightPlace : List Byte → Nat → Nat
opaque planePlace : List Byte → Nat → Nat
opaque sidePlace : List Byte → Nat → Nat
/-- Which of the transfers that go into an operand's queue an instruction of an image reads, as JSC counts it at BIND: by
IMAGE_ID and instruction (R171, R173; log 56). -/
opaque operandOf : BitVec 64 → Nat → Nat
/-- The least grain of the blocks of a tensor whose exponents the image does not hold, as JSC counts it at BIND: by IMAGE_ID
and handle (R171; log 56). -/
opaque leastGrain : BitVec 64 → Nat → Int
/-- The fused delay codes of word `w` of DLY of a controller in a temperature band (R370, R372). -/
opaque fusedDly : Nat → Nat → Nat → Word
/-- The bytes of the boot ROM (R32). -/
opaque bootRom : Nat → Byte
/-- The `n`th free value of the run, where the manual states none. -/
opaque freeNat : Nat → Nat
/-- The `n`th free yes or no of the run. -/
opaque freeBool : Nat → Bool
/-- The `n`th free byte string of a given length. -/
opaque freeBytes : Nat → Nat → List Byte

end Sys2Proof.Config
end

