-- ==== Sys2Proof/Machine/Regs.lean ====
section
/-! DEFINITION. The register pages (R32, R38, R49): their kinds, which are present, the registers of each kind with their
access, reset value and implemented bits, and the one home of register words in `State`. The rows follow the register
tables of the chapters, page by page in ascending offset. -/

namespace Sys2Proof.Machine

/-- The Access column (chapter "Scope"). -/
inductive Acc where
  | rw | ro | w1c | wo | rws
  deriving DecidableEq, Repr

/-- A row of a register table: first offset, number of registers, their distance, access, reset value, implemented bits. -/
structure Row where
  base : Nat
  count : Nat
  stride : Nat
  acc : Acc
  reset : Nat
  mask : Nat
  deriving DecidableEq, Repr

/-- The kinds of page (R49). -/
inductive Kind where
  | sys | gaffer | supply | thermal | clocks | resets | health | sec | sess | keystore | fuses | audit | attest
  | tk | nte | axis | cue | cuepin | net | port | macsec | cmdclass | flows | csi | isp | codec | trk | tracks
  | jsc | reels | adm | residency | acct | faults | mc | apu | plic | dma | cl | tc
  deriving DecidableEq, Repr

/-- The page index table of R49: kind and INSTANCE; none where unassigned. -/
def pageKind (n : Nat) : Option (Kind × Nat) :=
  if n < 7 then ([(.sys, 0), (.gaffer, 0), (.supply, 0), (.thermal, 0), (.clocks, 0), (.resets, 0), (.health, 0)])[n]?
  else if n < 0x10 then none
  else if n < 0x16 then
    ([(.sec, 0), (.sess, 0), (.keystore, 0), (.fuses, 0), (.audit, 0), (.attest, 0)])[n - 0x10]?
  else if n < 0x20 then none
  else if n = 0x20 then some (.tk, 0)
  else if n = 0x21 then some (.nte, 0)
  else if n < 0x2A then some (.axis, n - 0x22)
  else if n = 0x2A then some (.cue, 0)
  else if n = 0x2B then some (.cuepin, 0)
  else if n < 0x30 then none
  else if n = 0x30 then some (.net, 0)
  else if n < 0x35 then some (.port, n - 0x31)
  else if n < 0x38 then ([(.macsec, 0), (.cmdclass, 0), (.flows, 0)])[n - 0x35]?
  else if n < 0x40 then none
  else if n < 0x44 then some (.csi, n - 0x40)
  else if n < 0x48 then some (.isp, n - 0x44)
  else if n < 0x50 then none
  else if n < 0x52 then some (.codec, n - 0x50)
  else if n < 0x60 then none
  else if n < 0x62 then ([(.trk, 0), (.tracks, 0)])[n - 0x60]?
  else if n < 0x70 then none
  else if n < 0x76 then
    ([(.jsc, 0), (.reels, 0), (.adm, 0), (.residency, 0), (.acct, 0), (.faults, 0)])[n - 0x70]?
  else if n < 0x80 then none
  else if n < 0x88 then some (.mc, n - 0x80)
  else if n < 0xA0 then none
  else if n < 0xA3 then ([(.apu, 0), (.plic, 0), (.dma, 0)])[n - 0xA0]?
  else if n < 0x100 then none
  else if n < 0x108 then some (.cl, n - 0x100)
  else if n < 0x200 then none
  else if n < 0x280 then some (.tc, n - 0x200)
  else none

/-- BLOCK_TYPE of R49. -/
def blockType : Kind → Nat
  | .sys => 0x0100 | .gaffer => 0x0201 | .supply => 0x0202 | .thermal => 0x0203 | .clocks => 0x0204
  | .resets => 0x0205 | .health => 0x0206 | .sec => 0x0301 | .sess => 0x0302 | .keystore => 0x0303
  | .fuses => 0x0304 | .audit => 0x0305 | .attest => 0x0306 | .tk => 0x0401 | .nte => 0x0402 | .axis => 0x0403
  | .cue => 0x0404 | .cuepin => 0x0405 | .net => 0x0501 | .port => 0x0502 | .macsec => 0x0503
  | .cmdclass => 0x0504 | .flows => 0x0505 | .csi => 0x0601 | .isp => 0x0602 | .codec => 0x0701 | .trk => 0x0801
  | .tracks => 0x0802 | .jsc => 0x0901 | .reels => 0x0902 | .adm => 0x0903 | .residency => 0x0904
  | .acct => 0x0905 | .faults => 0x0906 | .mc => 0x0A01 | .apu => 0x0B01 | .plic => 0x0B02 | .dma => 0x0B03
  | .cl => 0x0C01 | .tc => 0x0D01

/-- Tensor cores per cluster in a grade (R38). -/
def Grade.coresPerCluster : Grade → Nat
  | .wq7128 => 16 | .wq7096 => 12 | .wq7064 => 8

/-- Memory controllers, channels, ISPs and codecs in a grade (R38). -/
def Grade.controllers : Grade → Nat
  | .wq7064 => 4 | _ => 8
def Grade.channels (g : Grade) : Nat := 8 * g.controllers
def Grade.isps : Grade → Nat
  | .wq7064 => 2 | _ => 4
def Grade.codecs : Grade → Nat
  | .wq7064 => 1 | _ => 2

/-- GRADE_CODE of R5: the tensor core count. -/
def Grade.code (g : Grade) : Nat := 8 * g.coresPerCluster

/-- First byte of DRAM, and the first byte after the part addressable as data (R32). -/
def dramBase : Nat := 0x0800000000
def Grade.dramEnd : Grade → Nat
  | .wq7064 => 0x0BFC000000 | _ => 0x0FF8000000

/-- Whether a unit is present in a grade (R1, R38). -/
def unitPresent (g : Grade) : Kind → Nat → Bool
  | .tc, n => n % 16 < g.coresPerCluster
  | .csi, n => n < g.isps
  | .isp, n => n < g.isps
  | .codec, n => n < g.codecs
  | .mc, n => n < g.controllers
  | _, _ => true

/-- A core is present in the grade. -/
def corePresent (g : Grade) (n : Nat) : Bool := n < 128 && unitPresent g .tc n

/-- The header of every page (R46). -/
def rowsHeader : List Row :=
  [⟨0, 1, 4, .ro, 0, 0xFFFFFFFF⟩,
   ⟨4, 1, 4, .ro, 0, 0xFFFFFFFF⟩,
   ⟨8, 1, 4, .rw, 0, 0x1F⟩,
   ⟨0xC, 1, 4, .ro, 0, 0xF⟩,
   ⟨0x10, 1, 4, .w1c, 0, 0xFFFFFFFF⟩,
   ⟨0x14, 1, 4, .rw, 0, 0xFFFFFFFF⟩,
   ⟨0x18, 1, 4, .w1c, 0, 0xFFFFFFFF⟩,
   ⟨0x1C, 1, 4, .ro, 0, 0xFFFFFFFF⟩,
   ⟨0x20, 1, 4, .wo, 0, 0xFFFFFFFF⟩,
   ⟨0x24, 1, 4, .ro, 0, 0xFFFFFFFF⟩,
   ⟨0x28, 1, 4, .rw, 0x15, 0x3F⟩]

/-- The window of a window page (R66). -/
def rowsWin : List Row :=
  [⟨0x800, 1, 4, .rw, 0, 0xFFFFFF⟩,
   ⟨0x804, 1, 4, .wo, 0, 0xFFFFFFFF⟩,
   ⟨0x808, 1, 4, .ro, 0, 0xFFFF0007⟩,
   ⟨0x80C, 1, 4, .ro, 0, 0xFFFFFFFF⟩,
   ⟨0x810, 1, 4, .ro, 0, 0xFFFFFFFF⟩,
   ⟨0x900, 256, 4, .rw, 0, 0xFFFFFFFF⟩]

/-- Registers of the sys page. -/
def rowsSys : List Row :=
  [⟨0x100, 1, 4, .ro, 0, 0xFF03FF⟩,
   ⟨0x104, 1, 4, .ro, 0, 0xFF01FFFF⟩,
   ⟨0x108, 1, 4, .ro, 0, 0xF⟩,
   ⟨0x110, 1, 4, .wo, 0, 0xFFFFFFFF⟩,
   ⟨0x114, 1, 4, .ro, 0, 0xFFFFFFFF⟩,
   ⟨0x120, 1, 4, .ro, 0, 0xFFFFFFFF⟩,
   ⟨0x124, 1, 4, .ro, 0, 0xFFFFFFFF⟩,
   ⟨0x140, 1, 4, .rw, 0, 0xFFFF⟩,
   ⟨0x144, 4, 4, .rw, 0, 0xFFFFFFFF⟩,
   ⟨0x154, 1, 4, .wo, 0, 0xFFFFFFFF⟩,
   ⟨0x158, 1, 4, .ro, 0, 0xFFF000F⟩,
   ⟨0x400, 1, 4, .rw, 0, 1⟩]

/-- Registers of the gaffer page. -/
def rowsGaffer : List Row :=
  [⟨0x100, 1, 4, .rws, 0x1904, 0xFF07⟩,
   ⟨0x104, 1, 4, .rws, 0x124F8, 0xFFFFFFFF⟩,
   ⟨0x110, 8, 4, .rws, 0x70, 0x777⟩,
   ⟨0x130, 1, 4, .wo, 0, 0xFFFFFFFF⟩,
   ⟨0x134, 1, 4, .rw, 1, 3⟩,
   ⟨0x138, 1, 4, .rw, 0, 0xFFFFFFFF⟩,
   ⟨0x13C, 1, 4, .rws, 0, 0x7F7F7F7F⟩,
   ⟨0x140, 1, 4, .ro, 0, 0x7F⟩,
   ⟨0x144, 1, 4, .ro, 0, 0xFFFFFFFF⟩,
   ⟨0x148, 1, 4, .ro, 0, 0xFFFFFFFF⟩,
   ⟨0x14C, 1, 4, .ro, 0, 0xFFFFFFFF⟩,
   ⟨0x150, 1, 4, .ro, 0, 0xFFFFFFFF⟩,
   ⟨0x154, 1, 4, .ro, 0xFFFFFFFF, 0xFFFFFFFF⟩,
   ⟨0x158, 1, 4, .ro, 0, 0xFFFF⟩,
   ⟨0x15C, 1, 4, .ro, 0, 0xFFFFFFFF⟩,
   ⟨0x160, 11, 4, .ro, 0x4000, 0xFFFF⟩,
   ⟨0x400, 1, 4, .rws, 0x124F8, 0xFFFFFFFF⟩,
   ⟨0x404, 1, 4, .rw, 0, 7⟩]

/-- Registers of the supply page. -/
def rowsSupply : List Row :=
  [⟨0x100, 16, 4, .rws, 0x10AA5, 0x1FFFF⟩,
   ⟨0x140, 16, 4, .ro, 0, 0xFFF⟩,
   ⟨0x180, 1, 4, .ro, 0, 0xFFFF⟩,
   ⟨0x184, 1, 4, .ro, 0, 0xF⟩,
   ⟨0x188, 1, 4, .ro, 0, 0xFFFFFFFF⟩,
   ⟨0x18C, 1, 4, .ro, 0, 0xFFFFFFFF⟩]

/-- Registers of the thermal page. -/
def rowsThermal : List Row :=
  [⟨0x100, 1, 4, .rws, 0x5A, 0xFF⟩,
   ⟨0x104, 1, 4, .rws, 0x50, 0xFF⟩,
   ⟨0x108, 1, 4, .ro, 0, 0xFFFF⟩,
   ⟨0x10C, 1, 4, .ro, 0, 0xFF⟩,
   ⟨0x800, 48, 4, .ro, 0, 0x3FF⟩]

/-- Registers of the health page. -/
def rowsHealth : List Row :=
  [⟨0x100, 1, 4, .rws, 0, 1⟩,
   ⟨0x104, 1, 4, .rws, 0x15180, 0xFFFFFFFF⟩,
   ⟨0x108, 1, 4, .rws, 0x384, 0xFFFFFFFF⟩,
   ⟨0x10C, 1, 4, .rws, 0, 0xFFFFFFF⟩,
   ⟨0x110, 1, 4, .ro, 0, 0xFFFFFF03⟩,
   ⟨0x114, 1, 4, .rws, 0, 0xFFFFFFF⟩,
   ⟨0x118, 1, 4, .rws, 0, 0x8000000F⟩,
   ⟨0x11C, 1, 4, .ro, 0, 0x1FFF⟩,
   ⟨0x120, 1, 4, .rw, 0, 0x1FFF⟩,
   ⟨0x124, 1, 4, .ro, 0, 0xFFFFFFFF⟩,
   ⟨0x128, 1, 4, .ro, 0, 0xFFFFFFFF⟩,
   ⟨0x12C, 1, 4, .ro, 0, 0xFFFFFFFF⟩,
   ⟨0x130, 1, 4, .ro, 0, 0xFFFFFFFF⟩,
   ⟨0x800, 142, 4, .rw, 0, 0xFFFF1F⟩]

/-- Registers of the sec page. -/
def rowsSec : List Row :=
  [⟨0x100, 1, 4, .ro, 0, 0xFFFFFF1F⟩,
   ⟨0x104, 1, 4, .wo, 0, 0xFFFFFFFF⟩,
   ⟨0x108, 1, 4, .wo, 0, 0xFFFFFFF⟩,
   ⟨0x10C, 1, 4, .ro, 0, 0xF3⟩,
   ⟨0x110, 8, 4, .ro, 0, 0xFFFFFFFF⟩,
   ⟨0x130, 1, 4, .wo, 0, 0xFFFFFFF⟩,
   ⟨0x134, 1, 4, .ro, 0, 0xFF⟩]

/-- Registers of the sess page. -/
def rowsSess : List Row :=
  [⟨0x100, 1, 4, .rws, 0x7D0, 0xFFFFFFFF⟩,
   ⟨0x104, 1, 4, .rws, 0x15180, 0xFFFFFFFF⟩,
   ⟨0x108, 1, 4, .wo, 0, 0xFF⟩,
   ⟨0x10C, 1, 4, .ro, 1, 0x1FF⟩,
   ⟨0x110, 1, 4, .rw, 0, 0xFFFFFFF⟩,
   ⟨0x114, 1, 4, .wo, 0, 0xFFFFFFFF⟩,
   ⟨0x118, 1, 4, .ro, 0, 0xFF03⟩,
   ⟨0x800, 512, 4, .ro, 0, 0xFFFFFFFF⟩]

/-- Registers of the keystore page. -/
def rowsKeystore : List Row :=
  [⟨0x100, 1, 4, .wo, 0, 0xFFFFFFF⟩,
   ⟨0x104, 1, 4, .ro, 0, 0xF1⟩,
   ⟨0x108, 2, 4, .ro, 0, 0xFFFFFFFF⟩,
   ⟨0x110, 1, 4, .ro, 0, 0x1FFFF⟩]

/-- Registers of the fuses page. -/
def rowsFuses : List Row :=
  [⟨0x100, 8, 4, .ro, 0, 0xFFFFFFFF⟩,
   ⟨0x120, 1, 4, .ro, 0, 0xF⟩,
   ⟨0x124, 1, 4, .ro, 0, 0xFFFFFF⟩,
   ⟨0x128, 1, 4, .wo, 0, 0xFFFFFFFF⟩]

/-- Registers of the audit page. -/
def rowsAudit : List Row :=
  [⟨0x100, 2, 4, .ro, 0, 0xFFFFFFFF⟩,
   ⟨0x108, 1, 4, .ro, 0, 0x7FF⟩,
   ⟨0x10C, 1, 4, .ro, 0, 1⟩]

/-- Registers of the attest page. -/
def rowsAttest : List Row :=
  [⟨0x100, 1, 4, .wo, 0, 0xFFFFFFF⟩,
   ⟨0x104, 1, 4, .ro, 0, 0xFFFF0003⟩,
   ⟨0x108, 1, 4, .wo, 0, 0xFFFFFFF⟩]

/-- Registers of the tk page. -/
def rowsTk : List Row :=
  [⟨0x100, 1, 4, .ro, 0, 0xFFFFFFFF⟩,
   ⟨0x104, 1, 4, .ro, 0, 0xFF⟩,
   ⟨0x108, 1, 4, .ro, 0, 0xFFFFFFFF⟩,
   ⟨0x10C, 1, 4, .ro, 0, 0xFFFFFFFF⟩,
   ⟨0x110, 1, 4, .rw, 0, 0x7FFFFFF⟩,
   ⟨0x114, 1, 4, .ro, 0, 0x1FF⟩,
   ⟨0x118, 1, 4, .ro, 0, 0xFFFFFFFF⟩,
   ⟨0x120, 4, 4, .ro, 0, 0xFFFFFFFF⟩,
   ⟨0x130, 1, 4, .wo, 0, 0xFFFFFFFF⟩]

/-- Registers of the nte page. -/
def rowsNte : List Row :=
  [⟨0x100, 1, 4, .rws, 0, 0xFFFFFF⟩,
   ⟨0x104, 1, 4, .rws, 0x3E8, 0xFFFFFFFF⟩,
   ⟨0x108, 1, 4, .rws, 0x3E8, 0xFFFFFFFF⟩,
   ⟨0x10C, 1, 4, .ro, 0, 0x707⟩,
   ⟨0x110, 1, 4, .ro, 0, 0xFFFFFFFF⟩,
   ⟨0x114, 1, 4, .ro, 0, 0xFFFFFFFF⟩,
   ⟨0x118, 1, 4, .ro, 0, 0xFFFFFFFF⟩,
   ⟨0x11C, 1, 4, .wo, 0, 0xFFFFFFFF⟩,
   ⟨0x120, 1, 4, .ro, 0, 0xFFFFFFFF⟩,
   ⟨0x124, 1, 4, .ro, 0, 0xFFFF⟩,
   ⟨0x128, 1, 4, .ro, 0, 0x3FFFFFFF⟩,
   ⟨0x12C, 1, 4, .ro, 0, 0xFF⟩,
   ⟨0x400, 1, 4, .rw, 0x8000, 0xFFFF⟩,
   ⟨0x404, 1, 4, .rw, 0x2000, 0xFFFF⟩,
   ⟨0x408, 1, 4, .wo, 0, 0xFFFFFFFF⟩,
   ⟨0x40C, 1, 4, .wo, 0, 0xFFFFFFFF⟩,
   ⟨0x410, 1, 4, .wo, 0, 0xFFFFFFFF⟩,
   ⟨0x414, 1, 4, .rw, 0, 0xFFFFFFFF⟩,
   ⟨0x800, 4, 16, .rw, 0, 0xFFFFFFFF⟩,
   ⟨0x804, 4, 16, .rw, 0, 0xFFFFFFFF⟩,
   ⟨0x808, 4, 16, .rw, 0, 0xFFFFFFFF⟩,
   ⟨0x80C, 4, 16, .ro, 0, 0xFFFFFFFF⟩]

/-- Registers of the axis pages. -/
def rowsAxis : List Row :=
  [⟨0x100, 1, 4, .rws, 0, 0x3FFFFF⟩,
   ⟨0x104, 1, 4, .rws, 0x10000, 0xFFFFFFFF⟩,
   ⟨0x108, 1, 4, .rws, 0, 0xFFFFFFFF⟩,
   ⟨0x10C, 1, 4, .rws, 0, 0xFFFFFFFF⟩,
   ⟨0x110, 1, 4, .rws, 0x20008000, 0xFFFFFFFF⟩,
   ⟨0x114, 1, 4, .rws, 0x3E8, 0xFFFFF⟩,
   ⟨0x118, 1, 4, .rws, 0x2710, 0xFFFFFF⟩,
   ⟨0x11C, 1, 4, .rws, 0, 0xFFFFFFFF⟩,
   ⟨0x120, 1, 4, .rws, 0, 0xFFFFFFFF⟩,
   ⟨0x124, 1, 4, .rws, 0, 0x7FF⟩,
   ⟨0x140, 1, 4, .ro, 0, 0xFFFFFFFF⟩,
   ⟨0x144, 1, 4, .ro, 0, 0xFFFFFFFF⟩,
   ⟨0x148, 1, 4, .ro, 0, 0xFFFFFFFF⟩,
   ⟨0x14C, 1, 4, .ro, 0, 0xFFFFFFFF⟩,
   ⟨0x150, 1, 4, .ro, 0, 0xFFFFFFFF⟩,
   ⟨0x154, 1, 4, .ro, 0, 0xFF00000F⟩,
   ⟨0x158, 1, 4, .ro, 0, 0xFFFFFF⟩,
   ⟨0x400, 1, 4, .rw, 0, 0xFFFFFFFF⟩,
   ⟨0x800, 1, 4, .wo, 0, 0xFFFFFFFF⟩,
   ⟨0x804, 1, 4, .wo, 0, 0xFFFFFFFF⟩,
   ⟨0x808, 1, 4, .wo, 0, 0xFFFFFFFF⟩]

/-- Registers of the cue page. -/
def rowsCue : List Row :=
  [⟨0x100, 1, 4, .w1c, 0, 0xFFFFFFFF⟩,
   ⟨0x104, 1, 4, .w1c, 0, 0xFFFFFFFF⟩,
   ⟨0x108, 1, 4, .rws, 0, 0xFFFFFFFF⟩,
   ⟨0x10C, 1, 4, .rws, 0, 0xFFFFFFFF⟩,
   ⟨0x110, 1, 4, .rws, 0x1F4, 0xFFFF⟩,
   ⟨0x114, 1, 4, .ro, 0, 0xFFFFFFFF⟩,
   ⟨0x118, 1, 4, .ro, 0, 0xFFFFFFFF⟩,
   ⟨0x11C, 1, 4, .ro, 0, 0xFFFFFFFF⟩,
   ⟨0x800, 64, 32, .rws, 0, 0xF3FFF⟩,
   ⟨0x804, 64, 32, .rws, 0, 0xFFFFFFFF⟩,
   ⟨0x808, 64, 32, .rws, 0, 0xFFFFFFFF⟩,
   ⟨0x80C, 64, 32, .rws, 0, 0xFFFFFFFF⟩,
   ⟨0x810, 64, 32, .rws, 0, 0xFFFFFFFF⟩,
   ⟨0x814, 64, 32, .rws, 0, 0xFFFFFFFF⟩,
   ⟨0x818, 64, 32, .ro, 0, 0xFFFFFFFF⟩,
   ⟨0x81C, 64, 32, .ro, 0, 0xFF00FF1F⟩]

/-- Registers of the cuepin page. -/
def rowsCuepin : List Row :=
  [⟨0x100, 16, 4, .rw, 0, 7⟩,
   ⟨0x140, 1, 4, .ro, 0, 0xFFFF⟩,
   ⟨0x144, 1, 4, .rw, 0x9C40, 0x3FFFF⟩,
   ⟨0x148, 1, 4, .rw, 0, 0xFFFFFFFF⟩,
   ⟨0x14C, 1, 4, .rw, 0, 3⟩,
   ⟨0x150, 1, 4, .rw, 0, 0xFFFFFFFF⟩,
   ⟨0x400, 1, 4, .rw, 0, 0xFFFFFFFF⟩]

/-- Registers of the net page. -/
def rowsNet : List Row :=
  [⟨0x100, 1, 4, .rws, 0xB964, 0xFFFF⟩,
   ⟨0x104, 1, 4, .rws, 0x1388, 0xFFFFFFFF⟩,
   ⟨0x108, 1, 4, .rws, 0x3E8, 0xFFFFFFFF⟩,
   ⟨0x10C, 1, 4, .rws, 8, 0xFFFFFFFF⟩,
   ⟨0x120, 1, 4, .ro, 0, 0xFFFFFFFF⟩,
   ⟨0x124, 1, 4, .ro, 0, 0xFFFFFFFF⟩,
   ⟨0x128, 1, 4, .ro, 0, 0xFFFFFFFF⟩,
   ⟨0x12C, 1, 4, .ro, 0, 0xFFFFFFFF⟩,
   ⟨0x130, 1, 4, .ro, 0, 0xFFFFFFFF⟩,
   ⟨0x134, 1, 4, .ro, 0, 0xFFFFFFFF⟩]

/-- Registers of the port pages. -/
def rowsPort : List Row :=
  [⟨0x100, 1, 4, .rws, 0x3F02, 0x3F0F⟩,
   ⟨0x104, 1, 4, .rws, 0, 0xFFFFFFFF⟩,
   ⟨0x108, 1, 4, .rws, 0, 0xFFFF⟩,
   ⟨0x10C, 1, 4, .rws, 0x2400, 0xFFFFFFFF⟩,
   ⟨0x110, 1, 4, .rws, 0x120, 0xFFFFFFFF⟩,
   ⟨0x114, 1, 4, .rws, 0xC0, 0xFFFFFFFF⟩,
   ⟨0x118, 1, 4, .rws, 1, 0xFFF⟩,
   ⟨0x124, 5, 4, .rws, 0, 0xFFFFFFFF⟩,
   ⟨0x140, 1, 4, .ro, 0, 0xFF07⟩,
   ⟨0x144, 1, 4, .ro, 0, 0xFFFFFFFF⟩,
   ⟨0x148, 1, 4, .ro, 0, 0xFFFFFFFF⟩,
   ⟨0x14C, 1, 4, .ro, 0, 0xFFFFFFFF⟩,
   ⟨0x150, 1, 4, .ro, 0, 0xFFFFFFFF⟩,
   ⟨0x154, 1, 4, .ro, 0, 0xFFFFFFFF⟩,
   ⟨0x158, 1, 4, .ro, 0, 0xFFFFFFFF⟩,
   ⟨0x160, 1, 4, .rws, 0, 0xFFFFFFF⟩,
   ⟨0x164, 1, 4, .rws, 0, 0x8000000F⟩,
   ⟨0x168, 1, 4, .ro, 0, 0xFFF⟩,
   ⟨0x16C, 1, 4, .rw, 0, 0xFFF⟩,
   ⟨0x170, 1, 4, .rws, 0, 0xFFFFFFF⟩,
   ⟨0x174, 1, 4, .rws, 0, 0x8000000F⟩,
   ⟨0x178, 1, 4, .ro, 0, 0xFFF⟩,
   ⟨0x17C, 1, 4, .rw, 0, 0xFFF⟩,
   ⟨0x400, 1, 4, .rw, 0, 0xF⟩]

/-- Registers of the macsec page. -/
def rowsMacsec : List Row :=
  [⟨0x100, 4, 4, .rws, 0, 0xFFF001F⟩,
   ⟨0x110, 4, 4, .ro, 0, 3⟩,
   ⟨0x120, 4, 4, .ro, 0, 0xFFFFFFFF⟩,
   ⟨0x130, 4, 4, .ro, 0, 0xFFFFFFFF⟩,
   ⟨0x140, 4, 4, .ro, 0, 0xFFFFFFFF⟩]

/-- Registers of the cmdclass page. -/
def rowsCmdclass : List Row :=
  [⟨0x100, 1, 4, .rws, 0x138, 0x13F⟩,
   ⟨0x104, 1, 4, .rws, 0x40, 0xFFFFFFFF⟩,
   ⟨0x110, 4, 4, .ro, 0, 0xFFFFFFFF⟩,
   ⟨0x120, 4, 4, .ro, 0, 0xFFFFFFFF⟩,
   ⟨0x130, 4, 4, .ro, 0, 0xFFFFFFFF⟩]

/-- Registers of the flows page. -/
def rowsFlows : List Row :=
  [⟨0x100, 1, 4, .ro, 0, 0xFFFFFFFF⟩,
   ⟨0x104, 1, 4, .ro, 0, 0xFFFFFFFF⟩]

/-- Registers of the csi pages. -/
def rowsCsi : List Row :=
  [⟨0x100, 1, 4, .rws, 0, 0xFFFF000F⟩,
   ⟨0x104, 1, 4, .rws, 0, 0x1FFF⟩,
   ⟨0x108, 1, 4, .ro, 0, 0x1F⟩,
   ⟨0x10C, 1, 4, .ro, 0, 0xFFFFFFFF⟩,
   ⟨0x110, 1, 4, .ro, 0, 0xFFFFFFFF⟩,
   ⟨0x114, 1, 4, .ro, 0, 0xFFFFFFFF⟩,
   ⟨0x118, 1, 4, .ro, 0, 0xFFFFFFFF⟩,
   ⟨0x11C, 1, 4, .ro, 0, 0xFFFFFFFF⟩,
   ⟨0x400, 1, 4, .rw, 0, 0xFF⟩]

/-- Registers of the isp pages. -/
def rowsIsp : List Row :=
  [⟨0x100, 1, 4, .rws, 0, 0x3FFF3⟩,
   ⟨0x104, 1, 4, .rws, 0, 0xFFFFFFFF⟩,
   ⟨0x108, 1, 4, .rws, 0, 0xFFFF⟩,
   ⟨0x10C, 1, 4, .rws, 0, 0x8000007F⟩,
   ⟨0x110, 1, 4, .rws, 0, 0x1FFFFFFF⟩,
   ⟨0x114, 1, 4, .rws, 0, 0xFF⟩,
   ⟨0x118, 1, 4, .rws, 0, 0xFFFFFF0F⟩,
   ⟨0x11C, 1, 4, .rws, 0, 0xFFFFFFF⟩,
   ⟨0x140, 3, 32, .rws, 0, 0x7FFF⟩,
   ⟨0x144, 3, 32, .rws, 0, 0xFFFFFFFF⟩,
   ⟨0x148, 3, 32, .rws, 0, 0xFFFFFFF⟩,
   ⟨0x14C, 3, 32, .rws, 0, 0xFFFFFFFF⟩,
   ⟨0x150, 3, 32, .rw, 0, 0xFFFF⟩,
   ⟨0x154, 3, 32, .ro, 0, 0xFFFF⟩,
   ⟨0x158, 3, 32, .ro, 0, 0xFFFFFFFF⟩,
   ⟨0x15C, 3, 32, .ro, 0, 0xFFFFFFFF⟩,
   ⟨0x1A0, 1, 4, .ro, 0, 0xFFFFFFFF⟩,
   ⟨0x1A4, 1, 4, .ro, 0, 0xFFFFFFFF⟩,
   ⟨0x1A8, 1, 4, .ro, 0, 0x7F⟩]

/-- Registers of the codec pages. -/
def rowsCodec : List Row :=
  [⟨0x100, 1, 4, .ro, 0, 0x7FF⟩,
   ⟨0x104, 1, 4, .ro, 0, 0xFFFFFFFF⟩,
   ⟨0x108, 1, 4, .ro, 0, 0xFFFFFFFF⟩,
   ⟨0x10C, 1, 4, .ro, 0, 0xFFFFFFFF⟩,
   ⟨0x110, 1, 4, .ro, 0, 0xFFFFFFFF⟩,
   ⟨0x114, 1, 4, .ro, 0, 0x7F⟩]

/-- Registers of the trk page. -/
def rowsTrk : List Row :=
  [⟨0x100, 1, 4, .rws, 0, 0xFFFFFFF⟩,
   ⟨0x104, 1, 4, .ro, 0, 0x1FFFFF⟩,
   ⟨0x108, 1, 4, .ro, 0, 0xFFFFFFFF⟩,
   ⟨0x10C, 1, 4, .ro, 0, 0xFFFFFFFF⟩,
   ⟨0x110, 1, 4, .ro, 0, 0xFFFFFFFF⟩,
   ⟨0x114, 1, 4, .ro, 0, 0xFFFFFFFF⟩,
   ⟨0x118, 1, 4, .ro, 0, 0xFFFFFFFF⟩,
   ⟨0x11C, 1, 4, .ro, 0, 0xFFFFFFFF⟩,
   ⟨0x120, 1, 4, .ro, 0, 0xFFFFFFFF⟩,
   ⟨0x124, 1, 4, .ro, 0, 0xFFFFFFFF⟩,
   ⟨0x800, 16, 64, .rws, 0, 0xFFFFF0F⟩,
   ⟨0x804, 16, 64, .rws, 0, 0xFFFF⟩,
   ⟨0x808, 16, 64, .rws, 0, 0xFFFFFFFF⟩,
   ⟨0x80C, 16, 64, .rws, 0, 0xFFFFF⟩,
   ⟨0x810, 16, 64, .rws, 0, 0x1FFFFF⟩,
   ⟨0x814, 16, 64, .rws, 0, 0xFFFFFFFF⟩,
   ⟨0x818, 16, 64, .rws, 0, 0xFFFFFFFF⟩,
   ⟨0x81C, 16, 64, .rws, 0, 0xFFFF⟩,
   ⟨0x820, 16, 64, .rws, 0, 0xFFFFFFFF⟩,
   ⟨0x824, 16, 64, .rws, 0, 0xFFFFFFFF⟩,
   ⟨0x828, 16, 64, .rws, 0, 0xFFFFFFFF⟩,
   ⟨0xC00, 16, 64, .rws, 0, 0xFFFF3FFF⟩,
   ⟨0xC04, 16, 64, .rws, 0, 0x1FFFF⟩,
   ⟨0xC08, 16, 64, .rws, 0, 0xFFFFFFFF⟩,
   ⟨0xC0C, 16, 64, .rws, 0, 0xFFFFFFFF⟩,
   ⟨0xC10, 16, 64, .rws, 0, 0xFFFFFFFF⟩,
   ⟨0xC14, 16, 64, .rws, 0, 0xFFFFFFFF⟩,
   ⟨0xC18, 16, 64, .rws, 0, 0x7FF⟩,
   ⟨0xC1C, 16, 64, .rws, 0, 0xFFFFFFFF⟩,
   ⟨0xC20, 16, 64, .rws, 0, 0xFFFFFFFF⟩,
   ⟨0xC24, 16, 64, .rws, 0, 0x0⟩,
   ⟨0xC28, 16, 64, .rws, 0, 0x0⟩]

/-- Registers of the jsc page. -/
def rowsJsc : List Row :=
  [⟨0x100, 1, 4, .rws, 0, 0xFFFFFFF⟩,
   ⟨0x104, 1, 4, .rws, 0, 0xFFFFFFFF⟩,
   ⟨0x108, 1, 4, .ro, 0, 0xFFFFFFFF⟩,
   ⟨0x10C, 1, 4, .ro, 0, 0xFFFFFFFF⟩,
   ⟨0x110, 1, 4, .ro, 0, 0xFFFFFFFF⟩,
   ⟨0x114, 1, 4, .ro, 0, 0xFFFFFFFF⟩,
   ⟨0x118, 1, 4, .ro, 0, 0xFFFFFFFF⟩]

/-- Registers of the reels page. -/
def rowsReels : List Row :=
  [⟨0x100, 32, 16, .rws, 0, 0xFFFFFFF⟩,
   ⟨0x104, 32, 16, .rws, 0, 0xFF⟩,
   ⟨0x108, 32, 16, .ro, 0, 0x1FFF1FFF⟩,
   ⟨0x10C, 32, 16, .rw, 0, 0x1FFF1FFF⟩,
   ⟨0x300, 32, 4, .ro, 0, 0xFFFFFFFF⟩,
   ⟨0x800, 512, 4, .wo, 0, 0xFFFFFFFF⟩]

/-- Registers of the adm page. -/
def rowsAdm : List Row :=
  [⟨0x100, 1, 4, .rw, 5, 7⟩,
   ⟨0x104, 1, 4, .ro, 0x20000, 0xFFFFFFFF⟩,
   ⟨0x108, 1, 4, .ro, 0x20000, 0xFFFFFFFF⟩,
   ⟨0x10C, 1, 4, .ro, 0, 0xFFFFFFFF⟩,
   ⟨0x110, 1, 4, .ro, 0, 0xFFFFFFFF⟩,
   ⟨0x114, 1, 4, .ro, 0, 0xFFFFFFFF⟩,
   ⟨0x118, 1, 4, .ro, 0, 0xFFFFFF⟩,
   ⟨0x11C, 1, 4, .ro, 0x7D0, 0xFFFFFFFF⟩]

/-- Registers of the faults page. -/
def rowsFaults : List Row :=
  [⟨0x100, 1, 4, .rws, 0, 0xFFFFFFF⟩,
   ⟨0x104, 1, 4, .rws, 0, 0x8000000F⟩,
   ⟨0x108, 1, 4, .ro, 0, 0xFFFF⟩,
   ⟨0x10C, 1, 4, .rw, 0, 0xFFFF⟩,
   ⟨0x110, 1, 4, .ro, 0, 0xFFFFFFFF⟩,
   ⟨0x114, 1, 4, .ro, 0, 0xFFFFFFFF⟩,
   ⟨0x118, 1, 4, .ro, 0, 0xFFFFFFFF⟩,
   ⟨0x11C, 1, 4, .ro, 0, 0xFFFFFFFF⟩,
   ⟨0x120, 1, 4, .ro, 0, 0xFFFFFFFF⟩]

/-- Registers of the mc pages. -/
def rowsMc : List Row :=
  [⟨0x100, 1, 4, .ro, 0, 0x1FFF⟩,
   ⟨0x104, 1, 4, .ro, 0, 0xFF⟩,
   ⟨0x108, 1, 4, .rws, 0x38, 0x3F⟩,
   ⟨0x10C, 1, 4, .rws, 0x4B, 0x7F⟩,
   ⟨0x110, 8, 4, .rws, 0, 0xFFFFFFFF⟩,
   ⟨0x130, 8, 4, .rws, 0, 0xFFFFFFFF⟩,
   ⟨0x150, 1, 4, .ro, 0, 0xFF⟩,
   ⟨0x154, 1, 4, .ro, 0, 0xFFFFFFFF⟩,
   ⟨0x158, 1, 4, .ro, 0, 0xFFFFFFFF⟩,
   ⟨0x15C, 1, 4, .rw, 0x100, 0xFFFFFFFF⟩,
   ⟨0x160, 1, 4, .ro, 0, 0x3F⟩,
   ⟨0x164, 1, 4, .rw, 0, 0x3F⟩,
   ⟨0x168, 1, 4, .ro, 0, 0xFFFFFFFF⟩,
   ⟨0x170, 1, 4, .rws, 0, 0xFFFFFFFF⟩,
   ⟨0x174, 1, 4, .rws, 0, 0xFFFFFFFF⟩,
   ⟨0x178, 1, 4, .ro, 0, 0xFFFFFFFF⟩,
   ⟨0x17C, 1, 4, .ro, 0, 0xFFFFFFFF⟩,
   ⟨0x180, 1, 4, .wo, 0, 0x8000003F⟩,
   ⟨0x184, 1, 4, .ro, 0, 0xFFFFFFFF⟩,
   ⟨0x188, 1, 4, .ro, 0, 0xFFFFFFFF⟩,
   ⟨0x200, 8, 4, .rws, 0x3E8, 0xFFFF⟩,
   ⟨0x220, 4, 4, .rws, 0x7D0, 0xFFFF⟩,
   ⟨0x230, 2, 4, .rws, 0x1F40, 0xFFFF⟩,
   ⟨0x238, 5, 4, .rws, 0xFA0, 0xFFFF⟩,
   ⟨0x24C, 1, 4, .rws, 0x7D0, 0xFFFF⟩,
   ⟨0x250, 1, 4, .rws, 0x3E8, 0xFFFF⟩,
   ⟨0x254, 2, 4, .rws, 0x1F40, 0xFFFF⟩,
   ⟨0x25C, 1, 4, .rws, 0x3E80, 0xFFFF⟩,
   ⟨0x400, 1, 4, .rw, 0, 1⟩,
   ⟨0x800, 352, 4, .rws, 0, 0xFFFFFFFF⟩] ++
  [⟨0xD80, 1, 4, .rw, 0, 0xFFFFFFF⟩,
   ⟨0xD84, 1, 4, .rw, 0, 0xFFFFFFFF⟩,
   ⟨0xE00, 128, 4, .ro, 0, 0xFFFFFFFF⟩]

/-- Registers of the plic page. -/
def rowsPlic : List Row :=
  [⟨0x100, 16, 8, .rw, 0, 7⟩,
   ⟨0x104, 16, 8, .rw, 0, 0xFFFFFFFF⟩,
   ⟨0x200, 20, 4, .ro, 0, 0xFFFFFFFF⟩,
   ⟨0x800, 160, 4, .rw, 0, 0x7070707⟩,
   ⟨0xA80, 320, 4, .rw, 0, 0xFFFFFFFF⟩]

/-- Registers of the cl pages. -/
def rowsCl : List Row :=
  [⟨0x100, 1, 4, .ro, 0, 0xFFFFFFFF⟩,
   ⟨0x104, 1, 4, .ro, 0x400000, 0xFFFFFFFF⟩,
   ⟨0x108, 1, 4, .ro, 0x400000, 0xFFFFFFFF⟩,
   ⟨0x10C, 1, 4, .ro, 0, 0xFFFFFFFF⟩,
   ⟨0x110, 1, 4, .ro, 0, 0xFFFFFFFF⟩,
   ⟨0x114, 1, 4, .ro, 0, 0xFFFFFFFF⟩,
   ⟨0x118, 1, 4, .ro, 0, 0xFFFFFFFF⟩,
   ⟨0x11C, 1, 4, .ro, 0, 0xFFFFFFFF⟩,
   ⟨0x120, 1, 4, .ro, 0, 0xFFFF⟩,
   ⟨0x124, 1, 4, .ro, 0, 0xFFFF⟩,
   ⟨0x140, 1, 4, .wo, 0, 0xFFFFFFFF⟩,
   ⟨0x180, 1, 4, .rw, 0, 0xF⟩,
   ⟨0x184, 1, 4, .ro, 0, 0x31FF777⟩,
   ⟨0x188, 1, 4, .ro, 0, 0x7F⟩,
   ⟨0x18C, 1, 4, .ro, 0, 0xFFFFFFFF⟩,
   ⟨0x190, 1, 4, .ro, 0, 0xFFFFFFFF⟩,
   ⟨0x194, 1, 4, .ro, 0xFF, 0xFF⟩,
   ⟨0x198, 1, 4, .ro, 0, 0xFFFFFFFF⟩,
   ⟨0x480, 1, 4, .rws, 0x23, 0xFF⟩,
   ⟨0x800, 64, 4, .ro, 0, 0xFFFFFFFF⟩]

/-- Registers of the tc pages. -/
def rowsTc : List Row :=
  [⟨0x100, 1, 4, .ro, 0, 0xFFFF000F⟩,
   ⟨0x104, 1, 4, .ro, 0, 0xF1F⟩,
   ⟨0x108, 1, 4, .ro, 0, 0xF⟩,
   ⟨0x10C, 1, 4, .ro, 0, 0xFFFFFFFF⟩,
   ⟨0x110, 1, 4, .ro, 0, 0xFFFFFFFF⟩,
   ⟨0x114, 1, 4, .ro, 0, 0x1F1F1F1F⟩,
   ⟨0x118, 1, 4, .ro, 0, 0xFFFFFFFF⟩,
   ⟨0x11C, 1, 4, .ro, 0, 0x73F3FFF⟩,
   ⟨0x120, 1, 4, .ro, 0, 0xFFFFFFFF⟩,
   ⟨0x124, 1, 4, .ro, 0, 0xFFFFFFFF⟩,
   ⟨0x128, 1, 4, .ro, 0, 0xFFFFFFFF⟩,
   ⟨0x12C, 1, 4, .ro, 0, 0xFFFFFFFF⟩,
   ⟨0x130, 1, 4, .ro, 0, 0xFFFFFFFF⟩,
   ⟨0x134, 1, 4, .ro, 0, 0xFFFFFFFF⟩,
   ⟨0x138, 1, 4, .ro, 0, 0xFFFFFFFF⟩,
   ⟨0x13C, 1, 4, .ro, 0, 0xFFFFFFFF⟩,
   ⟨0x140, 1, 4, .wo, 0, 0xFFFFFFFF⟩,
   ⟨0x400, 4, 4, .rw, 0, 0x1F⟩,
   ⟨0x410, 4, 4, .ro, 0, 0xFFFFFFFF⟩]

/-- The registers of a kind of page, offsets 0x100 and above. -/
def rowsOf : Kind → List Row
  | .sys => rowsSys | .gaffer => rowsGaffer ++ rowsWin | .supply => rowsSupply | .thermal => rowsThermal
  | .health => rowsHealth | .sec => rowsSec | .sess => rowsSess | .keystore => rowsKeystore | .fuses => rowsFuses
  | .audit => rowsAudit | .attest => rowsAttest | .tk => rowsTk | .nte => rowsNte | .axis => rowsAxis
  | .cue => rowsCue | .cuepin => rowsCuepin | .net => rowsNet | .port => rowsPort | .macsec => rowsMacsec
  | .cmdclass => rowsCmdclass | .flows => rowsFlows ++ rowsWin | .csi => rowsCsi | .isp => rowsIsp
  | .codec => rowsCodec ++ rowsWin | .trk => rowsTrk | .tracks => rowsWin | .jsc => rowsJsc | .reels => rowsReels
  | .adm => rowsAdm | .residency => rowsWin | .acct => rowsWin | .faults => rowsFaults | .mc => rowsMc
  | .plic => rowsPlic | .cl => rowsCl | .tc => rowsTc
  | .clocks => [] | .resets => [] | .apu => [] | .dma => []

/-- A row covers an offset. -/
def Row.covers (r : Row) (off : Nat) : Bool :=
  r.base ≤ off && (off - r.base) % r.stride == 0 && (off - r.base) / r.stride < r.count

/-- The row of a register, header included; none at an unlisted offset (R14). -/
def rowAt (k : Kind) (off : Nat) : Option Row :=
  (rowsHeader.find? (·.covers off)).or ((rowsOf k).find? (·.covers off))

/-- ROLE_LOCK after reset, per owning chapter; 0x15 where the chapter gives none (R46). -/
def lockReset : Kind → Nat
  | .tc => 0x14 | .cl => 0x14 | .tk => 0x14 | .axis => 0x05 | .cue => 0x05 | .reels => 0x05 | .nte => 0x19
  | .port => 0x19 | .mc => 0x25 | .macsec => 0x25 | .health => 0x25 | .gaffer => 0x09 | .sys => 0x29 | .sec => 0x29
  | .fuses => 0x2A | _ => 0x15

/-- A page with a select-and-window table (R66, R436, R451, R464, R304, R528). -/
def isWindow : Kind → Bool
  | .gaffer => true | .flows => true | .codec => true | .tracks => true | .residency => true | .acct => true | _ => false

/-- The key of a register: page index and offset. -/
def rkey (page off : Nat) : Nat := 4096 * page + off

/-- The value a register returns to at reset. -/
def resetVal (f : Fuses) (key : Nat) : Word :=
  match pageKind (key / 4096) with
  | none => 0
  | some (k, _) =>
    let off := key % 4096
    if off = 0x28 then w32 (lockReset k)
    else
      match rowAt k off with
      | none => 0
      | some r => w32 (if k = .thermal ∧ (off = 0x100 ∨ off = 0x104) ∧ f.tempX then r.reset + 10 else r.reset)

/-- The value in force. -/
def State.reg (s : State) (page off : Nat) : Word :=
  mapGet s.regs (rkey page off) (resetVal s.fuse (rkey page off))

/-- Puts a value into force. -/
def State.setReg (s : State) (page off : Nat) (v : Word) : State :=
  { s with regs := mapSet s.regs (rkey page off) (resetVal s.fuse (rkey page off)) v }

/-- A register's number. -/
def State.rn (s : State) (page off : Nat) : Nat := (s.reg page off).toNat

/-- Puts a number into force, modulo 2^32. -/
def State.setRn (s : State) (page off n : Nat) : State := s.setReg page off (w32 n)

/-- A counter of a page: wrapping and saturating increments. -/
def State.incReg (s : State) (page off : Nat) (n : Nat := 1) : State := s.setRn page off (s.rn page off + n)
def State.satReg (s : State) (page off : Nat) (n : Nat := 1) : State := s.setReg page off (satInc (s.reg page off) n)

/-- Drops every listed word of a page but those whose offset `keep` holds. -/
def dropPage (m : SMap Word) (page : Nat) (keep : Nat → Bool) : SMap Word :=
  m.filter (fun p => p.1 / 4096 ≠ page || keep (p.1 % 4096))

/-- Whether a page is present; false for unassigned indices. -/
def State.pagePresent (s : State) (page : Nat) : Bool :=
  match pageKind page with
  | some (k, i) => unitPresent s.fuse.grade k i
  | none => false

/-- CTRL fields (R46). -/
def State.enabled (s : State) (page : Nat) : Bool := bit (s.rn page 8) 0
def State.expertEn (s : State) (page : Nat) : Bool := bit (s.rn page 8) 1
def State.atBoundary (s : State) (page : Nat) : Bool := bit (s.rn page 8) 3
def State.readActive (s : State) (page : Nat) : Bool := bit (s.rn page 8) 4

/-- STATUS.COMMIT_ARMED, the one stored bit of STATUS. -/
def State.armed (s : State) (page : Nat) : Bool := bit (s.rn page 0xC) 3
def State.setArmed (s : State) (page : Nat) (b : Bool) : State := s.setRn page 0xC (if b then 8 else 0)

/-- The staged words of a page, ascending (R57); no register of the header stages (R46). -/
def State.stagedOf (s : State) (page : Nat) : SMap Word :=
  s.staged.filter (fun p => decide (p.1 / 4096 = page) && decide (0x100 ≤ p.1 % 4096))

/-- The value a commit of the page would put into force at an offset. -/
def State.next (s : State) (page off : Nat) : Nat :=
  (mapGet s.staged (rkey page off) (s.reg page off)).toNat

end Sys2Proof.Machine
end

