-- ==== Sys2Proof/Machine/Page.lean ====
section
/-! DEFINITION. What every register page shares (chapter "Register Pages and Configuration"): the role of an access,
ERR_INFO, interrupts and the PLIC, audit entries, COMMIT_RES, and the answer an access gets. -/

namespace Sys2Proof.Machine

/-! ### Pages by name -/

def pgSys : Nat := 0x000
def pgGaffer : Nat := 0x001
def pgSupply : Nat := 0x002
def pgThermal : Nat := 0x003
def pgHealth : Nat := 0x006
def pgSec : Nat := 0x010
def pgSess : Nat := 0x011
def pgKeys : Nat := 0x012
def pgFuses : Nat := 0x013
def pgAudit : Nat := 0x014
def pgAttest : Nat := 0x015
def pgTk : Nat := 0x020
def pgNte : Nat := 0x021
def pgAx (n : Nat) : Nat := 0x022 + n
def pgCue : Nat := 0x02A
def pgPin : Nat := 0x02B
def pgNet : Nat := 0x030
def pgPort (p : Nat) : Nat := 0x031 + p
def pgMacsec : Nat := 0x035
def pgCmd : Nat := 0x036
def pgFlows : Nat := 0x037
def pgCsi (p : Nat) : Nat := 0x040 + p
def pgIsp (p : Nat) : Nat := 0x044 + p
def pgVc (v : Nat) : Nat := 0x050 + v
def pgTrk : Nat := 0x060
def pgTracks : Nat := 0x061
def pgJsc : Nat := 0x070
def pgReels : Nat := 0x071
def pgAdm : Nat := 0x072
def pgRes : Nat := 0x073
def pgAcct : Nat := 0x074
def pgFaults : Nat := 0x075
def pgMc (n : Nat) : Nat := 0x080 + n
def pgPlic : Nat := 0x0A1
def pgCl (c : Nat) : Nat := 0x100 + c
def pgTc (n : Nat) : Nat := 0x200 + n

/-! ### Roles (R44, R533, R535) -/

/-- Roles as ROLE_LOCK and ERR_INFO number them (R46, R53). -/
def roleNum : Role → Nat
  | .operator => 0 | .installer => 1 | .maker => 2

/-- A session by index. -/
def State.session (s : State) (i : Nat) : Session := s.sec.sessions[i]?.getD (Session.reset 1)

/-- The role a session carries. Session 0 is installer until BOOT_DONE (R535); after a failed flash program every
session carries the operator role (R557). -/
def State.sessionRole (s : State) (i : Nat) : Role :=
  if s.sec.auditFail then .operator
  else if i = 0 then (if s.sec.bootDone then .operator else .installer)
  else (s.session i).role

/-- The session a hart carries (R535). -/
def State.hartSession (s : State) (h : Nat) : Fin 256 :=
  match s.sec.hartSession.find? (fun p => p.1 = h) with
  | some (_, i) => i
  | none => 0

/-- The session index of a requester; none for SEC and for requesters that hold none (R44). -/
def State.sessionOf (s : State) : Requester → Option (Fin 256)
  | .hart h => some (s.hartSession h.val)
  | .jsc i => some i
  | .sec => none
  | .port _ => none

/-- The role an access carries (R44); requesters without a role count as operator (R47). -/
def State.roleOf (s : State) : Requester → Role
  | .hart h => s.sessionRole (s.hartSession h.val).val
  | .jsc i => s.sessionRole i.val
  | .sec => .maker
  | .port _ => .operator

/-- The fabric port of a requester (table of chapter "Device Architecture"). -/
def portOf : Requester → Nat
  | .hart _ => 20 | .jsc _ => 19 | .sec => 22 | .port p => p.val

/-- Whether a requester may reach register pages (R43). -/
def mayReachPages : Requester → Bool
  | .port _ => false
  | _ => true

/-- A page's ROLE_LOCK field of a region: 0 basic, 1 expert, 2 instance (R53). -/
def State.lock (s : State) (page region : Nat) : Nat := bits (s.rn page 0x28) (2 * region + 1) (2 * region)

/-- The region of an offset. -/
def regionOf (off : Nat) : Nat := if off < 0x400 then 0 else if off < 0x800 then 1 else 2

/-- A role meets a lock field; 3 admits none (R53). -/
def roleMeets (r : Role) (field : Nat) : Bool := field ≤ roleNum r && field != 3

/-! ### Interrupts (R76 to R78) -/

/-- A page's level interrupt. -/
def State.irqLevel (s : State) (page : Nat) : Bool := s.reg page 0x10 &&& s.reg page 0x14 != 0

/-- A source that is asserted becomes pending unless it is claimed (R76 to R78). -/
def State.plicSample (s : State) (page : Nat) : State :=
  let src := page + 1
  if s.irqLevel page && s.pagePresent page && !(s.plicClaimed.any (fun p => p.2 = src)) then
    { s with plicPending := insN s.plicPending src }
  else s

/-- Sets a cause of IRQ_STAT. -/
def State.raise (s : State) (page b : Nat) : State :=
  (s.setReg page 0x10 (s.reg page 0x10 ||| w32 (2 ^ b))).plicSample page

/-- The causes a page implements; other bits read 0 (R13). -/
def irqMask : Kind → Nat
  | .sys => 0x10 | .gaffer => 0x3F | .supply => 1 | .thermal => 3 | .health => 0xF | .sec => 1 | .sess => 1
  | .audit => 1 | .tk => 0xF | .nte => 7 | .axis => 0xF | .cue => 0xF | .net => 1 | .port => 7 | .macsec => 3
  | .csi => 7 | .isp => 7 | .codec => 7 | .trk => 0xF | .jsc => 7 | .reels => 0xFFFFFFFF | .faults => 7 | .mc => 0xFF | .cl => 1 | .tc => 3
  | _ => 0

/-- A counter that wraps modulo 2^32 and sets COUNTER_WRAP (bit `b` of IRQ_STAT) when it does (R145, R269). -/
def State.countReg (s : State) (page off b : Nat) (n : Nat := 1) : State :=
  let v := s.rn page off + n
  let s := s.setRn page off v
  if v < 2 ^ 32 then s else s.raise page b

/-! ### ERR_INFO (R46, R47) -/

/-- Records an error on a page. `addr` is the physical address; the page offset is recorded when `phys` is false. -/
def State.setErr (s : State) (page code : Nat) (role : Nat) (port : Nat) (write phys : Bool) (addr : Nat) : State :=
  let e := s.reg page 0x18
  if bit e.toNat 31 then s.setReg page 0x18 (e ||| 0x40000000)
  else
    let hi := if phys then bits addr 39 32 else 0
    let v := 0x80000000 + hi * 65536 + b2n write * 32768 + (port % 32) * 1024 + role * 256 + code
    let lo := if phys then addr % 2 ^ 32 else addr % 4096
    (s.setRn page 0x18 v).setRn page 0x1C lo

/-- First address of the register pages (R32). -/
def pageBase : Nat := 0x0040000000

/-- An error of an access to the page itself, at an offset. -/
def State.errAcc (s : State) (page code : Nat) (who : Requester) (write : Bool) (off : Nat) : State :=
  s.setErr page code (roleNum (s.roleOf who)) (portOf who) write (page = pgSys) (pageBase + rkey page off)

/-- An error recorded on SYS with its physical address (R33, R34, R42, R43, R75). -/
def State.errSys (s : State) (code : Nat) (who : Requester) (write : Bool) (addr : Nat) : State :=
  s.setErr pgSys code (roleNum (s.roleOf who)) (portOf who) write true addr

/-! ### The answer of an access -/

def State.answer (s : State) (r : Rsp) : State := { s with rsp := r }
def State.ok (s : State) : State := s.answer ⟨false, false, 0⟩
def State.okData (s : State) (v : Word) : State := s.answer ⟨false, false, v⟩
def State.discard (s : State) : State := s.answer ⟨false, true, 0⟩
def State.errorRsp (s : State) : State := s.answer ⟨true, false, 0⟩

/-! ### PTP time and the timekeeper (R325, R326) -/

/-- PTP seconds and nanoseconds. -/
def State.ptpSec (s : State) : Nat := s.time / 256 / 1000000000
def State.ptpNs (s : State) : Nat := s.time / 256 % 1000000000
/-- The timekeeper value in 32.8 format. -/
def State.tk (s : State) : Nat := s.time % 2 ^ 40

/-! ### Audit entries (R55, R555 to R557) -/

/-- The 64 bytes of an entry before CHAIN. -/
def AuditEntry.head (e : AuditEntry) : List Byte :=
  leBytes 8 e.seq.toNat ++ leBytes 6 e.seconds ++ leBytes 4 e.ns ++ leBytes 1 e.event ++ leBytes 1 e.role ++
    leBytes 2 e.session ++ leBytes 2 e.gen.toNat ++ leBytes 1 e.keySlot ++ leBytes 1 e.result ++ leBytes 2 e.page ++
    leBytes 2 e.offset ++ leBytes 2 0 ++ leBytes 4 e.value.toNat ++ leBytes 4 e.aux.toNat ++ fitBytes 24 e.detail

/-- A digest as 64 bytes. -/
def digestBytes (d : Digest) : List Byte := leBytes 64 d.toNat

/-- SEC stages an entry: SEQ counts from manufacture, times read 0 until PTP time has been set (R555). -/
def State.auditAs (s : State) (event role session : Nat) (gen : BitVec 16) (keySlot result page offset : Nat)
    (value aux : Word) (detail : List Byte) : State :=
  let set := s.servo.setOnce
  let e : AuditEntry :=
    { seq := s.sec.auditSeq, seconds := if set then s.ptpSec else 0,
      ns := if set && s.ptpSec != 0 then s.ptpNs else 0, event := event, role := role, session := session, gen := gen,
      keySlot := keySlot, result := result, page := page, offset := offset, value := value, aux := aux,
      detail := detail, chain := 0 }
  let c := Config.sha3 (digestBytes s.sec.chain ++ e.head)
  { s with sec := { s.sec with staged := s.sec.staged ++ [{ e with chain := c }], auditSeq := s.sec.auditSeq + 1,
                               chain := c } }

/-- An entry of a register access by a requester. -/
def State.audit (s : State) (event : Nat) (who : Requester) (result page offset : Nat) (value aux : Word)
    (detail : List Byte := []) : State :=
  match s.sessionOf who with
  | some i =>
    s.auditAs event (roleNum (s.roleOf who)) i.val (s.session i.val).gen (if i.val = 0 then 0xFF else (s.session i.val).keySlot)
      result page offset value aux detail
  | none => s.auditAs event (roleNum (s.roleOf who)) 0xFFFF 0 0xFF result page offset value aux detail

/-- R55: an accepted access to a region locked at installer or maker is audited. -/
def State.auditIfLocked (s : State) (event : Nat) (who : Requester) (page region offset : Nat) (value aux : Word)
    (detail : List Byte := []) : State :=
  let l := s.lock page region
  if l = 1 ∨ l = 2 then s.audit event who 0 page offset value aux detail else s

/-- A write below the region's lock: discarded, ROLE_DENIED, audited when it claimed installer or maker (R53, R55). -/
def State.deny (s : State) (page off : Nat) (who : Requester) (value : Word) : State :=
  let s := s.errAcc page 0x80 who true off
  let s := if 1 ≤ (roleNum (s.roleOf who)) then s.audit 4 who 1 page off value (s.reg page 0x18) else s
  s.discard

/-! ### COMMIT_RES (R63) -/

/-- Writes RESULT, FIELD_OFFSET and FIELD_BIT; SEQ advances when `count`. -/
def State.commitRes (s : State) (page result off b : Nat) (count : Bool) : State :=
  let seq := (bits (s.rn page 0x24) 31 24 + b2n count) % 256
  s.setRn page 0x24 (seq * 2 ^ 24 + b * 2 ^ 16 + off * 16 + result)

end Sys2Proof.Machine
end

