-- ==== Sys2Proof/Machine/Tick.lean ====
section
/-! DEFINITION. Time. PTP time and the timekeeper advance together (R326). An idle step is one tick of 1/256 ns, and a
command that happens at a time the manual fixes brings time to it (DESIGN CHOICE: the table has no row for a tick). -/

namespace Sys2Proof.Machine

/-- Time passes: each change of timekeeper bits [39:38] sets WRAP (R327). -/
def advance (n : Nat) (s : State) : State :=
  let s' := { s with time := s.time + n, uptime := s.uptime + n }
  if s'.time / 2 ^ 38 ≠ s.time / 2 ^ 38 then s'.raise pgTk 0 else s'

/-- Time passes up to a moment; a moment already past changes nothing. -/
def advanceTo (t : Int) (s : State) : State := advance (t - (s.time : Int)).toNat s

/-- One step with nothing waiting. -/
def idleTick (s : State) : State := advance 1 s

/-- The moment nearest to now that a timekeeper value names: signed 40-bit difference (R327). -/
def State.extendTk (s : State) (t : Nat) : Int := (s.time : Int) + sext 40 (t + 2 ^ 40 - s.tk)

/-- The moment nearest to now that a count of nanoseconds modulo 2^32 names. -/
def State.extendNs (s : State) (ns : Nat) : Int :=
  (s.time : Int) - (s.time % 256 : Nat) + 256 * sext 32 (ns % 2 ^ 32 + 2 ^ 32 - s.tk / 256)

/-- Picoseconds in 1/256 ns, to nearest (DESIGN CHOICE). -/
def psTo256 (ps : Int) : Int := rneDiv (ps * 256) 1000

/-- Draws a free value of `w` bits. -/
def State.drawNat (s : State) (w : Nat) : State × Nat := ({ s with free := s.free + 1 }, Config.freeNat s.free % 2 ^ w)

/-- Draws a free yes or no. -/
def State.drawBool (s : State) : State × Bool := ({ s with free := s.free + 1 }, Config.freeBool s.free)

/-- Draws a free byte string. -/
def State.drawBytes (s : State) (n : Nat) : State × List Byte :=
  ({ s with free := s.free + 1 }, fitBytes n (Config.freeBytes s.free n))

/-- A result kept where it fits `w` bits of two's complement; where the manual states no result, a free value. -/
def State.fitS (s : State) (w : Nat) (x : Int) : State × Int :=
  if -((2 ^ (w - 1) : Nat) : Int) ≤ x ∧ x < ((2 ^ (w - 1) : Nat) : Int) then (s, x)
  else let (s, n) := s.drawNat w; (s, sext w n)

end Sys2Proof.Machine
end

