-- ==== Sys2Proof/Machine/Memory.lean ====
section
/-! DEFINITION. Chapter "Stacked Memory" and the records of "Integrity, Faults and Recovery": the address hash, DRAM data
with ECC poison and continuity tags, the controllers' checks and error log, quality of service, fault records, and the
memory commands. `tags` lists only blocks whose stored tag is not the CRC-32C of their content (R466). A unit's read of
DRAM is made as its command runs; the requests of MEM_REQUEST_ISSUE and the cores' stores wait in `held` and `queue`. -/

namespace Sys2Proof.Machine

/-! ### CRC-32C (R465) -/

/-- One bit of the reflected CRC. -/
def crcBit (c : Nat) : Nat := if c % 2 = 1 then (c / 2) ^^^ 0x82F63B78 else c / 2

def crcByte (c : Nat) (b : Byte) : Nat :=
  crcBit (crcBit (crcBit (crcBit (crcBit (crcBit (crcBit (crcBit (c ^^^ b.toNat))))))))

/-- The tag of a byte string. -/
def crc32c (bs : List Byte) : Word := w32 ((bs.foldl crcByte 0xFFFFFFFF) ^^^ 0xFFFFFFFF)

/-! ### Address hash (R364, R366) -/

def chanOf (g : Grade) (a : Nat) : Nat :=
  let o := a - dramBase
  match g with
  | .wq7064 => bits o 12 8 ^^^ bits o 17 13
  | _ => bits o 13 8 ^^^ bits o 19 14

def bankOf (g : Grade) (a : Nat) : Nat :=
  let o := a - dramBase
  match g with
  | .wq7064 => (bits o 7 6 * 8 + bits o 15 13) ^^^ bits o 19 16
  | _ => (bits o 7 6 * 8 + bits o 16 14) ^^^ bits o 20 17

def colOf (g : Grade) (a : Nat) : Nat :=
  match g with | .wq7064 => bits (a - dramBase) 19 16 | _ => bits (a - dramBase) 20 17

def rowOf (g : Grade) (a : Nat) : Nat :=
  match g with | .wq7064 => bits (a - dramBase) 33 20 | _ => bits (a - dramBase) 34 21

/-- The controller that serves an address, and the die of a channel. -/
def mcOf (g : Grade) (a : Nat) : Nat := chanOf g a / 8
def dieOf (ch : Nat) : Nat := ch / 16

/-- Where the tag of an address's block stands (R366). -/
def tagAddr (g : Grade) (a : Nat) : Nat := g.dramEnd + 4 * ((a - dramBase) / 1024)

/-- The 512 MiB segment of an address (R388). -/
def segOf (a : Nat) : Nat := (a - dramBase) / 2 ^ 29

/-- The block number and line of an address. -/
def blockOf (a : Nat) : Nat := a / 1024
def lineOf (a : Nat) : Nat := a / 64 * 64

/-- The numbers from `lo` in steps of `st` that touch `n` bytes from `a`. -/
def unitsTouched (st a n : Nat) : List Nat :=
  if n = 0 then [] else (List.range ((a + n - 1) / st - a / st + 1)).map (fun i => a / st + i)

/-! ### Data, poison and tags -/

/-- Bytes as they stand, whatever the checks. -/
def State.rawBytes (s : State) (a n : Nat) : List Byte := (List.range n).map (fun i => mapGet s.dram (a + i) 0)

/-- Lists bytes from an address on. -/
def putBytes (m : SMap Byte) : Nat → List Byte → SMap Byte
  | _, [] => m
  | a, b :: bs => putBytes (mapSet m a 0 b) (a + 1) bs

/-- Wholly covered lines lose their poison (R384). -/
def coveredLines (a n : Nat) : List Nat :=
  ((unitsTouched 64 a n).map (· * 64)).filter (fun l => a ≤ l && l + 64 ≤ a + n)

/-- A write of clean data with its tags: blocks touched get the tag of their new content (R194, R366, R466). -/
def State.writeData (s : State) (a : Nat) (bs : List Byte) : State :=
  { s with
    dram := putBytes s.dram a bs
    poison := s.poison.filter (fun l => !(coveredLines a bs.length).contains l)
    cellErr := s.cellErr.filter (fun p => !(coveredLines a bs.length).contains p.1)
    tags := s.tags.filter (fun p => !(unitsTouched 1024 a bs.length).contains p.1) }

/-- The poison pattern over the lines touched (R384). -/
def State.poisonLines (s : State) (a n : Nat) : State :=
  let ls := (unitsTouched 64 a n).map (· * 64)
  { s with dram := ls.foldl (fun m l => putBytes m l (List.replicate 64 0)) s.dram
           poison := ls.foldl insN s.poison
           cellErr := s.cellErr.filter (fun p => !ls.contains p.1) }

/-- A read of the line returns poison: the poison pattern, or an uncorrectable error (R383, R384). -/
def State.lineBad (s : State) (l : Nat) : Bool := s.poison.contains l || ((mapGet? s.cellErr l).any (·.1))

/-- A line of the range returns poison. -/
def State.isPoison (s : State) (a n : Nat) : Bool := (unitsTouched 64 a n).any (fun l => s.lineBad (l * 64))

/-- Every block touched holds the tag of its content (R469). -/
def State.tagsOk (s : State) (a n : Nat) : Bool :=
  (unitsTouched 1024 a n).all (fun b =>
    match mapGet? s.tags b with
    | none => true
    | some t => t == crc32c (s.rawBytes (1024 * b) 1024))

/-! ### Checks at the controllers (R33, R191, R386, R575, R589) -/

/-- The range lies in the part of DRAM addressable as data. -/
def State.inDram (s : State) (a n : Nat) : Bool := dramBase ≤ a && a + n ≤ s.fuse.grade.dramEnd

def State.dramOpen (s : State) : Bool := bit (s.rn pgSys 0x400) 0

/-- PROG_BASE and PROG_SLOT_BYTES in force (R323). -/
def State.progBase (s : State) : Nat := s.rn pgJsc 0x100 % 2 ^ 28 * 4096
def State.slotBytes (s : State) : Nat := s.rn pgJsc 0x104
/-- The program region of a slot and its line-tag table (R190, R467). -/
def State.slotAddr (s : State) (n : Nat) : Nat := s.progBase + n * s.slotBytes
def State.tagTable (s : State) (n : Nat) : Nat := s.progBase + 64 * s.slotBytes + n * (s.slotBytes / 16)

/-- Ranges meet. -/
def meets (a n b m : Nat) : Bool := a < b + m && b < a + n && 0 < n && 0 < m

/-- Some job is bound to the slot: its region is write-locked (R191). -/
def State.slotLocked (s : State) (n : Nat) : Bool := s.jobs.any (fun j => j.slot.val == n || (j.rebind.any (·.val == n)))

def State.progLocked (s : State) (a n : Nat) : Bool :=
  (List.range 64).any (fun k =>
    s.slotLocked k && (meets a n (s.slotAddr k) s.slotBytes || meets a n (s.tagTable k) (s.slotBytes / 16)))

/-- The SEC-private range of the controller that serves the line (R386). -/
def State.inPriv (s : State) (a n : Nat) : Bool :=
  (unitsTouched 64 a n).any (fun l =>
    let p := pgMc (mcOf s.fuse.grade (64 * l))
    meets (64 * l) 64 (s.rn p 0xD80 % 2 ^ 28 * 4096) (s.rn p 0xD84))

/-- Key of a segment at a controller. -/
def segKey (mc seg : Nat) : Nat := 64 * mc + seg

/-- The segment of an address is initialised with the controller that serves it. -/
def State.segKept (s : State) (a : Nat) : Bool := s.segInit.contains (segKey (mcOf s.fuse.grade a) (segOf a))

/-- The controller of every line of the range lists the line's segment (R386, R589). -/
def State.segsAll (s : State) (m : List Nat) (a n : Nat) : Bool :=
  (unitsTouched 64 a n).all (fun l => m.contains (segKey (mcOf s.fuse.grade (64 * l)) (segOf (64 * l))))
/-- The controller of some line of the range lists the line's segment. -/
def State.segsAny (s : State) (m : List Nat) (a n : Nat) : Bool :=
  (unitsTouched 64 a n).any (fun l => m.contains (segKey (mcOf s.fuse.grade (64 * l)) (segOf (64 * l))))

/-- Why an access is refused. -/
inductive MemRefusal where
  | reserved | closed | filling | priv | uninit | locked
  deriving DecidableEq, Repr

/-- The first refusal of an access by a port, in the order address, DRAM_OPEN, private range, fill, lock, segment. -/
def State.memCheck (s : State) (port a n : Nat) (write : Bool) : Option MemRefusal :=
  if !s.inDram a n then some .reserved
  else if port ≠ 22 && !s.dramOpen then some .closed
  else if port ≠ 22 && s.inPriv a n then some .priv
  else if s.segsAny s.fills a n then some .filling
  else if write && s.progLocked a n then some .locked
  else if !write && !s.segsAll s.segInit a n then some .uninit
  else none

/-! ### The error log (R387) -/

/-- FLAGS of a log entry. -/
def logFlags (write metered slate : Bool) : Nat := b2n write + 2 * b2n metered + 4 * b2n slate

/-- Writes an entry into the log of the controller of a channel. -/
def State.mcLog (s : State) (type ch port flags addr syn : Nat) : State :=
  let p := pgMc (ch / 8)
  let e := leBytes 1 type ++ leBytes 1 ch ++ leBytes 1 port ++ leBytes 1 flags ++ leBytes 5 addr ++ leBytes 5 s.tk ++
    leBytes 2 syn
  let h := s.rn p 0x160
  let t := s.rn p 0x164
  let s := if (h + 64 - t) % 64 = 32 then ((s.setRn p 0x164 ((t + 1) % 64)).satReg p 0x168).raise p 4 else s
  let o := 0xE00 + 16 * (h % 32)
  let s := (leWords e).zipIdx.foldl (fun s w => s.setReg p (o + 4 * w.2) w.1) s
  s.setRn p 0x160 ((h + 1) % 64)

/-- The requester a fabric port stands for (R43, R44). -/
def portWho (port : Nat) (hart : Fin 8) : Requester :=
  if port = 22 then .sec else if port = 20 then .hart hart else if h : port < 24 then .port ⟨port, h⟩ else .port 0

/-- ROLE that a port's own accesses record (R47): SEC's is maker, and no other carries one of its own. -/
def portRole (port : Nat) : Nat := if port = 22 then 2 else 0

/-- An address of the register range reached by a memory transfer (R42, R43): no 32-bit register access. -/
def State.pagesErr (s : State) (who : Requester) (a : Nat) (write : Bool) : State :=
  if mayReachPages who then
    if s.pagePresent ((a - pageBase) / 4096) then s.errAcc ((a - pageBase) / 4096) 0x88 who write (a % 4096)
    else s.errSys 0x88 who write a
  else s.errSys 0x8D who write a

/-- An address of a register page, assigned or not (R32). -/
def inPages (addr : Nat) : Bool := pageBase ≤ addr && addr < 0x0050000000

/-- What a refusal leaves behind: log entry, cause and ERR_INFO. -/
def State.memRefuse (s : State) (r : MemRefusal) (port a : Nat) (write metered slate : Bool) (role : Nat) : State :=
  let ch := chanOf s.fuse.grade a
  let p := pgMc (ch / 8)
  let fl := logFlags write metered slate
  let l := lineOf a
  match r with
  | .reserved => if inPages a then s.pagesErr (portWho port 0) a write else s.setErr pgSys 0x8A role port write true a
  | .closed => (s.mcLog 6 ch port fl l 0).raise p 6
  | .priv => (s.mcLog 6 ch port fl l 0).raise p 6
  | .filling => (s.mcLog 7 ch port fl l 0).raise p 5
  | .uninit => (s.mcLog 7 ch port fl l 0).raise p 5
  | .locked => ((s.mcLog 5 ch port fl l 0).raise p 3).setErr p 0x0F role port write true a

/-- How a refused read returns: poisoned where its segment holds no data (R386, R589), an error response otherwise. -/
def MemRefusal.resp : MemRefusal → Resp
  | .uninit | .filling => .poisoned
  | _ => .error

/-- A corrected error: counted, logged at most once per channel and millisecond (R382). -/
def State.corrected (s : State) (ch port fl l syn : Nat) : State :=
  let p := pgMc (ch / 8)
  let s := s.satReg p 0x154
  let ms := s.uptime / 256000000
  let s := if mapGet? s.ceLast ch = some ms then s
    else { s.mcLog 1 ch port fl l syn with ceLast := mapPut s.ceLast ch ms }
  if s.rn p 0x154 = s.rn p 0x15C then s.raise p 1 else s

/-- An uncorrectable error of a read, or of a command (R383, R385): logged, counted, UE. -/
def State.uncorrected (s : State) (type ch port fl l syn : Nat) : State :=
  (((s.satReg (pgMc (ch / 8)) 0x158).mcLog type ch port fl l syn).raise (pgMc (ch / 8)) 0)

/-- What the controller records as it reads a line: the poison pattern, or an error of its cells (R382 to R384). -/
def State.lineNote (s : State) (port fl l : Nat) : State :=
  let ch := chanOf s.fuse.grade l
  if s.poison.contains l then s.mcLog 4 ch port fl l 0
  else
    match mapGet? s.cellErr l with
    | some (true, syn) => s.uncorrected 2 ch port fl l syn.toNat
    | some (false, syn) => s.corrected ch port fl l syn.toNat
    | none => s

/-- What the controllers record as they read every line of a range. -/
def State.readNote (s : State) (port a n : Nat) (metered slate : Bool) : State :=
  (unitsTouched 64 a n).foldl (fun s l => s.lineNote port (logFlags false metered slate) (64 * l)) s

/-- An uncorrectable error is found in a line that showed none before. What is wrong with its cells stays until the line is
written (DESIGN CHOICE, log 54), and the syndrome is free. -/
def State.cellFault (s : State) (l : Nat) : State :=
  if s.lineBad l then s
  else
    let (s, syn) := s.drawNat 16
    { s with cellErr := mapPut s.cellErr l (true, BitVec.ofNat 16 syn) }

/-- What a response that ECC corrected or could not correct tells of the cells of its line. -/
def State.lineFinds (s : State) (l : Nat) (r : Resp) : State :=
  match r with
  | .poisoned => s.cellFault l
  | .corrected =>
    if s.lineBad l || (mapGet? s.cellErr l).isSome then s
    else
      let (s, syn) := s.drawNat 16
      { s with cellErr := mapPut s.cellErr l (false, BitVec.ofNat 16 syn) }
  | _ => s

/-- What a response means once its line's cells say what ECC finds there. -/
def settled : Resp → Resp
  | .corrected | .poisoned => .ok
  | r => r

/-- The pieces of a range that lie in one line each: address and length. -/
def pieces (a n : Nat) : List (Nat × Nat) :=
  (unitsTouched 64 a n).map (fun l => (max a (64 * l), min (a + n) (64 * l + 64) - max a (64 * l)))

/-- The worse of two responses. -/
def worseResp : Resp → Resp → Resp
  | .error, _ => .error
  | _, .error => .error
  | .poisoned, _ => .poisoned
  | _, .poisoned => .poisoned
  | .corrupt, _ => .corrupt
  | _, .corrected => .ok
  | _, r => r

/-- SEC's own boot ROM and SRAM (R32). -/
def secOnly (addr : Nat) : Bool := addr < 0x40000 || (0x10000000 ≤ addr && addr < 0x10200000)

/-- Bytes of SEC's own memories. -/
def State.secOwnBytes (s : State) (a n : Nat) : List Byte :=
  (List.range n).map (fun i => if a + i < 0x40000 then Config.bootRom (a + i) else mapGet s.secRam (a + i - 0x10000000) 0)

/-- A write by SEC to its own memories; the ROM keeps its content. -/
def State.secOwnWrite (s : State) (a : Nat) (bs : List Byte) : State :=
  if a < 0x40000 then s else { s with secRam := putBytes s.secRam (a - 0x10000000) bs }

/-- Reads a range line by line: a refused line returns zeros and what its refusal records. -/
def State.readPieces (s : State) (port : Nat) : List (Nat × Nat) → State × List Byte × Resp
  | [] => (s, [], .ok)
  | (a, n) :: rest =>
    match s.memCheck port a n false with
    | some r =>
      let (s, bs, q) := (s.memRefuse r port a false (decide (port < 8)) false (portRole port)).readPieces port rest
      (s, List.replicate n 0 ++ bs, worseResp r.resp q)
    | none =>
      let (t, bs, q) := (s.readNote port a n (decide (port < 8)) false).readPieces port rest
      (t, s.rawBytes a n ++ bs, worseResp (if s.isPoison a n then .poisoned else .ok) q)

/-- A read by a unit of the device: state, data and how it returns. -/
def State.readVia (s : State) (port a n : Nat) : State × List Byte × Resp :=
  if port = 22 ∧ secOnly a then (s, s.secOwnBytes a n, .ok)
  else
    match s.memCheck port a n false with
    | some _ => s.readPieces port (pieces a n)
    | none => (s.readNote port a n (decide (port < 8)) false, s.rawBytes a n, if s.isPoison a n then .poisoned else .ok)

/-- The first line of a range that a port's read does not return clean; the first line of the range where all are. -/
def State.badLine (s : State) (port a n : Nat) : Nat :=
  (((pieces a n).find? (fun p => (s.memCheck port p.1 p.2 false).isSome || s.isPoison p.1 p.2)).map (fun p => lineOf p.1)).getD (lineOf a)

/-- Writes a range line by line: a refused line changes nothing but what its refusal records. -/
def State.writePieces (s : State) (port : Nat) : List (Nat × Nat) → List Byte → State
  | [], _ => s
  | (a, n) :: rest, bs =>
    (match s.memCheck port a n true with
      | some r => s.memRefuse r port a true (decide (port < 8)) false (portRole port)
      | none => s.writeData a (bs.take n)).writePieces port rest (bs.drop n)

/-- A write by a unit of the device. -/
def State.writeVia (s : State) (port a : Nat) (bs : List Byte) : State :=
  if port = 22 ∧ secOnly a then s.secOwnWrite a bs
  else
    match s.memCheck port a bs.length true with
    | some _ => s.writePieces port (pieces a bs.length) bs
    | none => s.writeData a bs

/-! ### Fault records (R483 to R487) -/

/-- The bytes of a record. -/
def recordBytes (code cls level take unit sub job health time addr seq : Nat) : List Byte :=
  leBytes 1 code ++ leBytes 1 cls ++ leBytes 1 level ++ leBytes 1 take ++ leBytes 2 unit ++ leBytes 2 sub ++
    leBytes 2 job ++ leBytes 2 health ++ leBytes 5 time ++ leBytes 3 0 ++ leBytes 5 addr ++ leBytes 3 0 ++ leBytes 4 seq

/-- Entries of a ring whose counters run modulo 2^(n+1). -/
def ringFull (head tail n : Nat) : Bool := (head + 2 ^ (n + 1) - tail) % 2 ^ (n + 1) == 2 ^ n

/-- Puts a finished record into the ring or the on-die buffer, or drops it (R487). -/
def State.putRecord (s : State) (bs : List Byte) : State :=
  let cfg := s.rn pgFaults 0x104
  let n := cfg % 16
  let h := s.rn pgFaults 0x108
  let lost (s : State) : State := (s.satReg pgFaults 0x110).raise pgFaults 1
  let s :=
    if bit cfg 31 then
      if ringFull h (s.rn pgFaults 0x10C) n then lost s
      else
        let s := s.writeVia 19 (s.rn pgFaults 0x100 % 2 ^ 28 * 4096 + 32 * (h % 2 ^ n)) bs
        { s.setRn pgFaults 0x108 ((h + 1) % 2 ^ (n + 1)) with faultSeq := s.faultSeq + 1 }
    else if s.faultBuf.length < 16 then { s with faultBuf := s.faultBuf ++ [bs], faultSeq := s.faultSeq + 1 }
    else lost s
  s.raise pgFaults 0

/-- The on-die buffer goes to the ring, oldest first, when it is enabled (R487). -/
def State.drainRecords (s : State) : State :=
  let buf := s.faultBuf
  let s := { s with faultBuf := [] }
  buf.foldl (fun s bs =>
    let n := s.rn pgFaults 0x104 % 16
    let h := s.rn pgFaults 0x108
    if ringFull h (s.rn pgFaults 0x10C) n then (s.satReg pgFaults 0x110).raise pgFaults 1
    else (s.writeVia 19 (s.rn pgFaults 0x100 % 2 ^ 28 * 4096 + 32 * (h % 2 ^ n)) bs).setRn pgFaults 0x108
      ((h + 1) % 2 ^ (n + 1))) s

/-- An absorbed fault of a unit outside the tensor complex: one record, no recovery (R473, R483). -/
def State.absorbed (s : State) (code level unit sub addr : Nat) : State :=
  s.putRecord (recordBytes code 0 level 0 unit sub 0 0xFFFF s.tk addr s.faultSeq.toNat)

/-- DRAM_UE of a unit, naming the die of the line (R18, R471, R484). -/
def State.dramUe (s : State) (unit addr : Nat) : State :=
  s.absorbed 0x0A 7 unit (dieOf (chanOf s.fuse.grade addr)) addr

/-! ### Meters (R377) -/

/-- A tensor port's meters; a port not listed has every credit. -/
def State.meter (s : State) (p : Nat) : Meters :=
  match s.meters.find? (fun q => q.1 = p) with
  | some (_, m) => m
  | none => ⟨[], []⟩

def State.setMeter (s : State) (p : Nat) (m : Meters) : State :=
  { s with meters := (s.meters.filter (fun q => q.1 ≠ p)) ++ (if m.chan = [] ∧ m.bank = [] then [] else [(p, m)]) }

/-- Key of a bank. -/
def bankKey (ch bank : Nat) : Nat := 32 * ch + bank

/-- Credits of a meter of `full`. -/
def credits (m : SMap Meter) (k full : Nat) : Nat := ((mapGet? m k).map (·.credits)).getD full

/-- A line of DRAM may pass a tensor port's meters: its channel and its bank hold a credit. -/
def State.creditOk (s : State) (p a : Nat) : Bool :=
  let m := s.meter p
  let ch := chanOf s.fuse.grade a
  0 < credits m.chan ch 8 && 0 < credits m.bank (bankKey ch (bankOf s.fuse.grade a)) 2

/-- A credit less; a full meter begins to refill now. -/
def spendAt (m : SMap Meter) (k full now : Nat) : SMap Meter :=
  match mapGet? m k with
  | some x => mapPut m k { x with credits := x.credits - 1 }
  | none => mapPut m k ⟨full - 1, now, 0⟩

/-- Takes a credit of the channel and of the bank. -/
def State.spend (s : State) (p a : Nat) : State :=
  let m := s.meter p
  let ch := chanOf s.fuse.grade a
  s.setMeter p ⟨spendAt m.chan ch 8 s.uptime, spendAt m.bank (bankKey ch (bankOf s.fuse.grade a)) 2 s.uptime⟩

/-- Tensor ports' metered requests pass meters. -/
def isMetered (r : MemReq) : Bool := r.metered && !r.slateClass && r.port.val < 8

/-- The request may pass its meters. -/
def State.meterOk (s : State) (r : MemReq) : Bool := !isMetered r || s.creditOk r.port.val r.addr.toNat

/-- Takes the credits and enters the channel's queue. -/
def State.enqueue (s : State) (r : MemReq) (own : Option Owner) : State :=
  let ch := chanOf s.fuse.grade r.addr.toNat
  let s := if isMetered r then s.spend r.port.val r.addr.toNat else s
  { s with queue := s.queue ++ [⟨r, ch, s.uptime, own⟩] }

/-- A request enters its channel's queue, or its port holds it. -/
def State.request (s : State) (r : MemReq) (own : Option Owner) : State :=
  if s.meterOk r then s.enqueue r own else { s with held := s.held ++ [⟨r, own⟩] }

/-- A core's read of lines: metered reads of its cluster's port, which pass once every meter has a credit for each; none
while one has not. -/
def State.passLines (s : State) (cl : Nat) : List Nat → Option State
  | [] => some s
  | l :: ls => if s.creditOk cl l then (s.spend cl l).passLines cl ls else none

/-- The share of a cluster in MB/s (R378). -/
def State.clShare (s : State) (cl : Nat) : Nat := s.rn (pgMc 0) (0x110 + 4 * cl) + s.rn (pgMc 0) (0x130 + 4 * cl)

/-- What a channel meter gathers in 1/256 ns, and what one credit costs, in the same unit: a share of the port's rate for
each channel, 64 bytes a credit. -/
def State.chanCost (s : State) : Nat := 16384000 * s.fuse.grade.channels
/-- 640 ns, the refill of one credit of a bank meter. -/
def bankPeriod : Nat := 163840

/-- A meter at an uptime: credits gained at `rate` per 1/256 ns, one for each `cost`. -/
def Meter.at (m : Meter) (now rate cost : Nat) : Meter :=
  let g := m.frac + (now - m.since) * rate
  ⟨m.credits + g / cost, now, g % cost⟩

/-- The uptime at which a meter gains its next credit; none where it never does. -/
def Meter.due (m : Meter) (rate cost : Nat) : Option Nat :=
  if rate = 0 then none else some (m.since + (cost - m.frac + rate - 1) / rate)

/-- Meters after they have regained credits; one that is full is no longer listed. -/
def refill (m : SMap Meter) (full now rate cost : Nat) : SMap Meter :=
  (m.map (fun p => (p.1, p.2.at now rate cost))).filter (fun p => p.2.credits < full)

/-- The first moment at which a meter of the port gains a credit. -/
def State.meterDue (s : State) (p : Nat) : Option Nat :=
  let m := s.meter p
  ((m.chan.filterMap (fun x => x.2.due (s.clShare p) s.chanCost)) ++
    (m.bank.filterMap (fun x => x.2.due 1 bankPeriod))).foldl (fun a d => some (match a with | some b => min b d | none => d)) none

/-- METER_REFILL: at the moment a meter of the port gains its next credit, or now where that is past, every meter of the
port has what its own rate gives it, and requests that the port held pass in order. -/
def meterRefill (port : Fin 8) (s : State) : State :=
  match s.meterDue port.val with
  | none => s
  | some d =>
    let s := advance (d - s.uptime) s
    let m := s.meter port.val
    let s := s.setMeter port.val
      ⟨refill m.chan 8 s.uptime (s.clShare port.val) s.chanCost, refill m.bank 2 s.uptime 1 bankPeriod⟩
    let held := s.held
    held.foldl (fun s h => if h.req.port.val = port.val ∧ s.meterOk h.req then s.enqueue h.req h.own
      else { s with held := s.held ++ [h] }) { s with held := [] }

def execMeterRefill (port : Fin 8) (s : State) : Host.Outcome State Fault Refusal := .next (meterRefill port s)

/-! ### Requests (R27, R28, R33) -/

/-- Ports whose requester is fused off (R28). -/
def State.portAbsent (s : State) (p : Nat) : Bool :=
  s.fuse.grade == .wq7064 && (p == 10 || p == 11 || p == 13)

/-- The bytes a request touches: a write touches its data, a read its line. -/
def reqSpan (r : MemReq) : Nat × Nat :=
  if r.write then (r.addr.toNat, r.data.length) else (lineOf r.addr.toNat, 64)

/-- The requester of a memory request. -/
def reqWho (r : MemReq) : Requester := portWho r.port.val r.hart

/-- A write-back of a line the APU L2 holds carries what the L2 holds, which is then clean (R31). -/
def State.l2Clean (s : State) (r : MemReq) : State × MemReq :=
  let l := lineOf r.addr.toNat
  match mapGet? s.l2 l with
  | some x =>
    if r.port.val = 20 ∧ r.write then
      ({ s with l2 := mapPut s.l2 l { x with dirty := false } },
       { r with data := (x.bytes.drop (r.addr.toNat - l)).take r.data.length })
    else (s, r)
  | none => (s, r)

/-- MEM_REQUEST_ISSUE (R33, R377, R386, R575, R589). -/
def memRequestIssue (r : MemReq) (s : State) : State :=
  if s.portAbsent r.port.val then s
  else if inPages r.addr.toNat then (s.pagesErr (reqWho r) r.addr.toNat r.write).errorRsp
  else if r.port.val = 22 ∧ secOnly r.addr.toNat then
    if r.write then (s.secOwnWrite r.addr.toNat r.data).ok
    else s.okData (w32 (leNat (s.secOwnBytes r.addr.toNat 4)))
  else
    let (a, n) := reqSpan r
    let role := roleNum (s.roleOf (reqWho r))
    match s.memCheck r.port.val a n r.write with
    | some .locked => let (s, r) := s.l2Clean r; (s.request r none).ok
    | some x => (s.memRefuse x r.port.val a r.write r.metered r.slateClass role).errorRsp
    | none => let (s, r) := s.l2Clean r; (s.request r none).ok

def execMemRequestIssue (req : MemReq) (s : State) : Host.Outcome State Fault Refusal := .next (memRequestIssue req s)

/-! ### Urgency, panic and slots (R27, R374 to R376, R397, R440) -/

/-- The urgency of a request by its age against its port's target (R374). -/
def State.urgency (s : State) (q : Queued) : Nat :=
  min 3 (4 * (s.uptime - q.since) / (256 * max 1 (s.rn (pgMc (q.ch / 8)) (0x200 + 4 * q.req.port.val))))

/-- Bytes of a frame with its check bytes, and of the frames of a buffer. -/
def frameLen (f : Frame) : Nat := f.raw.length + 4
def bufFill (l : List Frame) : Nat := (l.map frameLen).foldl (· + ·) 0

/-- Bytes in the output FIFO of a pipeline toward its fabric port (R440): the writes of the port that MEM has not done. -/
def State.fifoBytes (s : State) (m : Nat) : Nat :=
  ((s.queue.filter (fun q => q.req.port.val == 8 + m && q.req.write)).map (fun q => q.req.data.length)).foldl (· + ·) 0

/-- A port raises panic at a controller: on WQ-7128 alone, an ISP by its 128 KiB output FIFO and a network port by its
384 KiB of ingress staging, filled to PANIC_FILL percent (R27, R375, R397, R440). -/
def State.panics (s : State) (mc p : Nat) : Bool :=
  let fill := s.rn (pgMc mc) 0x10C
  s.fuse.grade == .wq7128 &&
    ((8 ≤ p && p < 12 && decide (fill * 131072 ≤ 100 * s.fifoBytes (p - 8))) ||
     (14 ≤ p && p < 18 && decide (fill * 393216 ≤ 100 * bufFill ((s.ports[p - 14]?.getD Port.reset).staging))))

/-- The slot of a channel now in use is reserved (R376): of the 64 slots of 2.5 ns of a frame, TSLOTS spread evenly. The
frame begins at an uptime that is a multiple of 160 ns, and slot i is reserved where the multiples of TSLOTS / 64 step
(DESIGN CHOICE, log 54). -/
def State.slotReserved (s : State) (mc : Nat) : Bool :=
  let i := s.uptime / 640 % 64
  let t := s.rn (pgMc mc) 0x108
  i * t / 64 < (i + 1) * t / 64

/-- The place of a request in the order of an open slot, and of a reserved slot; the lowest is served first, and of equal
places the oldest. -/
def State.openRank (s : State) (q : Queued) : Nat :=
  if s.panics (q.ch / 8) q.req.port.val then 0 else 4 - s.urgency q
def State.slotRank (s : State) (q : Queued) : Nat :=
  if s.slotReserved (q.ch / 8) then
    if isMetered q.req then 3 - s.urgency q else if q.req.slateClass then 4 else 5 + s.openRank q
  else s.openRank q

/-- The bank of a queued request, and the uptime at which the bank is ready for it (R367). -/
def State.bankOfQ (s : State) (q : Queued) : Nat := bankKey q.ch (bankOf s.fuse.grade q.req.addr.toNat)
def State.readyAt (s : State) (q : Queued) : Nat := mapGet s.bankFree (s.bankOfQ q) 0

/-- The first of the requests in the order of the slot. -/
def State.bestOf (s : State) : List Queued → Option Queued
  | [] => none
  | q :: l => match s.bestOf l with
    | none => some q
    | some b => if s.slotRank q ≤ s.slotRank b then some q else some b

/-- Takes one entry equal to `q` out of a queue: the oldest. -/
def dropQueued (q : Queued) (l : List Queued) : List Queued := l.erase q

/-- The requests of a channel and a direction. -/
def State.waitingOn (s : State) (ch : Nat) (write : Bool) : List Queued :=
  s.queue.filter (fun q => q.ch == ch && q.req.write == write)

/-- Time passes until a bank is ready for one of the requests. -/
def State.untilReady (s : State) (l : List Queued) : State :=
  match l with
  | [] => s
  | q :: r => advance (r.foldl (fun m x => min m (s.readyAt x)) (s.readyAt q) - s.uptime) s

/-- A channel serves a read or a write: of the requests whose bank is ready, the first in the order of the slot. It leaves
the queue, and its bank is busy for a cycle, 42 ns for a read and 48 ns for a write (R367, R376). -/
def State.serve (s : State) (ch : Nat) (write : Bool) : State × Option Queued :=
  let s := s.untilReady (s.waitingOn ch write)
  match s.bestOf ((s.waitingOn ch write).filter (fun q => s.readyAt q ≤ s.uptime)) with
  | none => (s, none)
  | some q =>
    ({ s with queue := dropQueued q s.queue
              bankFree := mapSet s.bankFree (s.bankOfQ q) 0 (s.uptime + (if write then 12288 else 10752)) }, some q)

/-- The APU consumes poison on its own ports: a record for each (R471). -/
def State.apuPoison (s : State) (port a : Nat) : State :=
  if port = 20 then s.dramUe 0x0A0 a else if port = 21 then s.dramUe 0x0A2 a else s

/-- What ECC finds in a read now: an error found stays in the cells until the line is written (DESIGN CHOICE, log 54). -/
def State.eccFinds (s : State) (l : Nat) (ecc : Ecc) (syn : BitVec 16) : State :=
  if s.poison.contains l then s
  else
    match ecc with
    | .clean => s
    | .corrected => if s.lineBad l then s else { s with cellErr := mapPut s.cellErr l (false, syn) }
    | .uncorrectable => { s with cellErr := mapPut s.cellErr l (true, syn) }

/-- MEM_READ_COMPLETE (R376, R379, R382 to R384, R471, R589, R594). A line read by the APU's cores is then in their L2. -/
def memReadComplete (ch : Fin 64) (ecc : Ecc) (syn : BitVec 16) (s : State) : State :=
  match s.serve ch.val false with
  | (s, none) => s
  | (s, some q) =>
    let l := lineOf q.req.addr.toNat
    let port := q.req.port.val
    match s.memCheck port l 64 false with
    | some r =>
      (s.memRefuse r port l false q.req.metered q.req.slateClass (roleNum (s.roleOf (reqWho q.req)))).errorRsp
    | none =>
      let s := s.eccFinds l ecc syn
      let s := s.lineNote port (logFlags false q.req.metered q.req.slateClass) l
      if s.lineBad l then (s.apuPoison port l).errorRsp
      else
        let s := if port = 20 then { s with l2 := mapPut s.l2 l ⟨s.rawBytes l 64, false⟩ } else s
        s.okData (w32 (leNat (s.rawBytes q.req.addr.toNat 4)))

def execMemReadComplete (ch : Fin 64) (ecc : Ecc) (syndrome : BitVec 16) (s : State) :
    Host.Outcome State Fault Refusal := .next (memReadComplete ch ecc syndrome s)

/-- The byte to write over an old one: mask 3 both nibbles, 1 the low one, 2 the high one (R587). -/
def mergeNib (old : Byte) (e : Nat × Nat) : Byte :=
  if e.1 = 3 then BitVec.ofNat 8 e.2
  else if e.1 = 1 then BitVec.ofNat 8 (old.toNat / 16 * 16 + e.2 % 16)
  else BitVec.ofNat 8 (old.toNat % 16 + e.2 / 16 * 16)

/-- What a queued write puts in place: its bytes, merged nibble by nibble where it covers nibbles. -/
def State.mergedData (s : State) (q : Queued) : List Byte :=
  match q.own with
  | some o =>
    if o.nib = [] then q.req.data
    else (q.req.data.zip (o.nib.zip (s.rawBytes q.req.addr.toNat q.req.data.length))).map
      (fun p => mergeNib p.2.2 (p.2.1, p.1.toNat))
  | none => q.req.data

/-- A MERGE write reads its block: an uncorrectable line of it that the write does not cover becomes the poison pattern. -/
def State.mergeReads (s : State) (a n : Nat) : State :=
  (unitsTouched 64 (1024 * blockOf a) 1024).foldl (fun s l =>
    if s.lineBad (64 * l) && !(coveredLines a n).contains (64 * l) then s.poisonLines (64 * l) 64 else s) s

/-- What ECC finds in the tag line that a MERGE reads: nothing, or an uncorrectable error with its syndrome. No rule says when
a line fails, so both are free (log 54). -/
def State.tagFinds (s : State) : State × Option Nat :=
  let (s, f) := s.drawNat 8
  let (s, syn) := s.drawNat 16
  (s, if f = 0 then some syn else none)

/-- Writes the bytes of a request. With an uncorrectable tag line a MERGE leaves a tag that cannot match (R387). -/
def State.applyWrite (s : State) (q : Queued) : State :=
  let a := q.req.addr.toNat
  let bs := s.mergedData q
  if q.req.poisoned then s.poisonLines a bs.length
  else if q.req.merge then
    let (s, e) := s.tagFinds
    let s := (s.mergeReads a bs.length).writeData a bs
    match e with
    | none => s
    | some syn =>
      let s := s.mcLog 8 q.ch q.req.port.val (logFlags true q.req.metered q.req.slateClass) (lineOf (tagAddr s.fuse.grade a)) syn
      { s with tags := mapPut s.tags (blockOf a) (crc32c (s.rawBytes (1024 * blockOf a) 1024) ^^^ 1) }
  else s.writeData a bs

/-- MEM_WRITE (R191, R376, R384, R387, R589, R596): the channel serves a queued write, which is then visible. -/
def memWrite (ch : Fin 64) (s : State) : State :=
  match s.serve ch.val true with
  | (s, none) => s
  | (s, some q) =>
    match s.memCheck q.req.port.val q.req.addr.toNat q.req.data.length true with
    | some r =>
      (s.memRefuse r q.req.port.val q.req.addr.toNat true q.req.metered q.req.slateClass
        (roleNum (s.roleOf (reqWho q.req)))).errorRsp
    | none => (s.applyWrite q).ok

def execMemWrite (ch : Fin 64) (s : State) : Host.Outcome State Fault Refusal :=
  .next (memWrite ch s)

/-- The first requests of a channel in the order in which its slots serve them. -/
def State.firstServed (s : State) : Nat → List Queued → List Queued
  | 0, _ => []
  | k + 1, l => match s.bestOf l with
    | none => []
    | some q => q :: s.firstServed k (dropQueued q l)

/-- CMD_PARITY_ERROR (R385): the `recent` requests of the channel whose commands were the last issued fail. One that is a
write leaves the poison pattern, unless the controller refuses it. -/
def cmdParityError (ch : Fin 64) (recent : Nat) (s : State) : State :=
  let hit := s.firstServed recent (s.queue.filter (fun q => q.ch == ch.val))
  hit.foldl (fun s q =>
    let a := q.req.addr.toNat
    let (b, n) := reqSpan q.req
    let fl := logFlags q.req.write q.req.metered q.req.slateClass
    let s := { s with queue := dropQueued q s.queue }
    match s.memCheck q.req.port.val b n q.req.write with
    | some r => (s.memRefuse r q.req.port.val a q.req.write q.req.metered q.req.slateClass (roleNum (s.roleOf (reqWho q.req)))).errorRsp
    | none =>
      let s := s.uncorrected 3 ch.val q.req.port.val fl (lineOf a) 0
      (if q.req.write then s.poisonLines a q.req.data.length else s).errorRsp) s

def execCmdParityError (ch : Fin 64) (recent : Nat) (s : State) : Host.Outcome State Fault Refusal :=
  .next (cmdParityError ch recent s)

/-! ### Refresh, temperature and bands (R368 to R371) -/

/-- REFRESH: the bank next in rotation refreshes two rows and is busy for 90 ns; the rows step once every bank has had its
command (R367, R368). -/
def refresh (ch : Fin 64) (s : State) : State :=
  if ch.val < s.fuse.grade.channels then
    let b := mapGet s.refreshBank ch.val 0
    let k := bankKey ch.val b
    { s with
      refreshBank := mapSet s.refreshBank ch.val 0 ((b + 1) % 32)
      refreshRow := if b = 31 then mapSet s.refreshRow ch.val 0 ((mapGet s.refreshRow ch.val 0 + 1) % 8192) else s.refreshRow
      bankFree := mapSet s.bankFree k 0 (max (mapGet s.bankFree k 0) s.uptime + 23040) }
  else s

def execRefresh (ch : Fin 64) (s : State) : Host.Outcome State Fault Refusal := .next (refresh ch s)

/-- The band after a reading, with 3 °C of hysteresis. -/
def bandAfter (band : Nat) (t : Int) : Nat :=
  if 85 < t then 2
  else if band = 2 then (if t ≤ 37 then 0 else if t ≤ 82 then 1 else 2)
  else if band = 1 then (if t ≤ 37 then 0 else 1)
  else if 40 ≤ t then 1 else 0

/-- A reading more than 5 °C outside the band whose codes are in force. -/
def bandStale (band : Nat) (t : Int) : Bool :=
  if band = 0 then 45 < t else if band = 1 then t < 35 || 90 < t else t < 80

/-- MC_STATUS bits [9:8], [10] and [12]; the channels and SELF_REFRESH are computed on reading. -/
def State.setMcStatus (s : State) (mc band : Nat) (twice stale : Bool) : State :=
  s.setRn (pgMc mc) 0x100 (band * 256 + b2n twice * 1024 + b2n stale * 4096)

/-- The delay codes in force in a word of DLY (R372). -/
def State.dlyCode (s : State) (m i : Nat) : Word :=
  match mapGet? s.dly (352 * m + i) with
  | some w => w
  | none =>
    match mapGet s.dlyBand m 0 with
    | 0 => 0
    | b + 1 => Config.fusedDly m i b &&& 0x7F7F7F7F

/-- The fused codes of a band are in force on a controller, whose DLY_STALE is judged against it (R371). -/
def State.bandLoaded (s : State) (m band : Nat) : State :=
  let st := s.rn (pgMc m) 0x100
  let s := { s with
    dly := s.dly.filter (fun p => p.1 / 352 ≠ m)
    dlyBand := mapPut s.dlyBand m (band + 1)
    bandInForce := mapSet s.bandInForce m 0 band }
  s.setMcStatus m (bits st 9 8) (bit st 10) (bandStale band (sext 8 (s.rn (pgMc m) 0x104)))

/-- The band whose fused codes the registers of a controller hold, the one MC_STATUS shows first (R371). -/
def State.bandHeld (s : State) (m : Nat) : Option Nat :=
  [bits (s.rn (pgMc m) 0x100) 9 8, 0, 1, 2].find? (fun b =>
    (List.range 352).all (fun i => s.dlyCode m i == Config.fusedDly m i b &&& 0x7F7F7F7F))

/-- After other codes were committed, the band in force is the one they are the codes of; codes of no band leave it as it was
(DESIGN CHOICE, log 57). -/
def State.dlyJudge (s : State) (m : Nat) : State :=
  match s.bandHeld m with
  | some b => s.bandLoaded m b
  | none => s

/-- DRAM_TEMP_READ. -/
def dramTempRead (mc : Fin 8) (degC : Byte) (s : State) : State :=
  let p := pgMc mc.val
  if !s.pagePresent p then s
  else
    let t := sext 8 degC.toNat
    let st := s.rn p 0x100
    let band := bits st 9 8
    let band' := bandAfter band t
    let twice := if 85 < t then true else if t ≤ 82 then false else bit st 10
    let stale := bandStale (mapGet s.bandInForce mc.val 0) t
    let s := (s.setRn p 0x104 degC.toNat).setMcStatus mc.val band' (twice || bit (s.rn p 0x400) 0) stale
    let s := if band' ≠ band then s.raise p 2 else s
    if stale && !bit st 12 then s.raise p 7 else s

def execDramTempRead (mc : Fin 8) (degC : Byte) (s : State) : Host.Outcome State Fault Refusal :=
  .next (dramTempRead mc degC s)

/-! ### Zero fill (R390, R589) -/

/-- Number of segments (R388). -/
def Grade.segments : Grade → Nat
  | .wq7064 => 32 | _ => 64

/-- A segment holds a bound program region, a job's own or one that a REBIND waits to move it to (R191), or a job area. -/
def State.segInUse (s : State) (seg : Nat) : Bool :=
  let a := dramBase + seg * 2 ^ 29
  (List.range 64).any (fun k => s.slotLocked k &&
    (meets a (2 ^ 29) (s.slotAddr k) s.slotBytes || meets a (2 ^ 29) (s.tagTable k) (s.slotBytes / 16))) ||
  s.jobs.any (fun j => meets a (2 ^ 29) j.area j.areaBytes)

/-- Starts a fill at every controller: the segment is not initialised until it is done. -/
def State.startFill (s : State) (seg : Nat) : State :=
  (List.range s.fuse.grade.controllers).foldl (fun s m =>
    { s with segInit := delN s.segInit (segKey m seg), fills := insN s.fills (segKey m seg) }) s

/-- A controller's fill of a segment ends: zeros, check bits and matching tags over the lines it serves. -/
def State.fillDone (s : State) (seg m : Nat) : State :=
  let mine (a : Nat) : Bool := dramBase ≤ a && segOf a == seg && mcOf s.fuse.grade a == m
  if s.fills.contains (segKey m seg) then
    { s with
      fills := delN s.fills (segKey m seg)
      segInit := insN s.segInit (segKey m seg)
      dram := s.dram.filter (fun p => !mine p.1)
      tags := s.tags.filter (fun p => !mine (1024 * p.1))
      poison := s.poison.filter (fun l => !mine l)
      cellErr := s.cellErr.filter (fun p => !mine p.1) }
  else s

/-- ZERO_FILL_DONE: the fill of the segment ends at every controller. -/
def zeroFillDone (seg : Fin 64) (s : State) : State :=
  (List.range s.fuse.grade.controllers).foldl (fun s m => s.fillDone seg.val m) s

def execZeroFillDone (seg : Fin 64) (s : State) : Host.Outcome State Fault Refusal := .next (zeroFillDone seg s)

end Sys2Proof.Machine
end

