-- ==== Sys2Proof/Machine/Image.lean ====
section
/-! DEFINITION. Cores, clusters and jobs by number; the loaded image and its tables (R185 to R203); a job's area (R291)
and address translation (R194, R252, R289); core faults (R141, R484) and take status (R234). -/

namespace Sys2Proof.Machine

/-! ### Cores, clusters, jobs -/

def State.core (s : State) (n : Nat) : Core := s.cores[n]?.getD Core.reset
def State.setCore (s : State) (n : Nat) (c : Core) : State := { s with cores := s.cores.setIfInBounds n c }
def State.modCore (s : State) (n : Nat) (f : Core → Core) : State := s.setCore n (f (s.core n))

def State.cluster (s : State) (n : Nat) : Cluster := s.clusters[n]?.getD Cluster.reset
def State.setCluster (s : State) (n : Nat) (c : Cluster) : State := { s with clusters := s.clusters.setIfInBounds n c }
def State.modCluster (s : State) (n : Nat) (f : Cluster → Cluster) : State := s.setCluster n (f (s.cluster n))

def State.slot (s : State) (n : Nat) : PSlot := s.slots[n]?.getD PSlot.reset
def State.setSlot (s : State) (n : Nat) (p : PSlot) : State := { s with slots := s.slots.setIfInBounds n p }

/-- A CANCEL of the job's take has not completed; one of its pending runs alone leaves the take untouched (R315). -/
def Job.cancelling (j : Job) : Bool := j.cancel.any (fun c => c.2.2 != 1)

/-- The cluster of a core. -/
def clusterOf (n : Nat) : Nat := n / 16

def State.job? (s : State) (id : BitVec 16) : Option Job := s.jobs.find? (fun j => j.id == id)
def State.setJob (s : State) (j : Job) : State := { s with jobs := s.jobs.map (fun x => if x.id = j.id then j else x) }
def State.modJob (s : State) (id : BitVec 16) (f : Job → Job) : State :=
  { s with jobs := s.jobs.map (fun x => if x.id = id then f x else x) }

/-- The job whose take is on a core. -/
def State.coreJob (s : State) (n : Nat) : Option Job := s.job? (s.core n).job

/-- An engine of a core. -/
def Core.eng (c : Core) : Engine → Eng
  | .fe => c.fe | .xe => c.xe
def Core.setEng (c : Core) (e : Engine) (g : Eng) : Core :=
  match e with | .fe => { c with fe := g } | .xe => { c with xe := g }

/-! ### The image (R185 to R189) -/

/-- A number in the image of a slot. The region holds the image's bytes at their own offsets, without the signature. -/
def State.imgN (s : State) (slot o n : Nat) : Nat := leNat (s.rawBytes (s.slotAddr slot + o) n)

/-- Offset and length of a section. -/
def State.section? (s : State) (slot ty : Nat) : Option (Nat × Nat) :=
  ((List.range (s.imgN slot 9 1)).find? (fun i => s.imgN slot (256 + 16 * i) 4 = ty)).map
    (fun i => (s.imgN slot (260 + 16 * i) 4, s.imgN slot (264 + 16 * i) 4))

/-- Offset of a section; 0 where the image has none. -/
def State.secOff (s : State) (slot ty : Nat) : Nat := ((s.section? slot ty).map (·.1)).getD 0
def State.secLen (s : State) (slot ty : Nat) : Nat := ((s.section? slot ty).map (·.2)).getD 0

/-- Bytes of a section. -/
def State.secBytes (s : State) (slot ty o n : Nat) : List Byte := s.rawBytes (s.slotAddr slot + s.secOff slot ty + o) n

/-- A field of the call sheet (R188). -/
def State.sheet (s : State) (slot o n : Nat) : Nat := leNat (s.secBytes slot 1 o n)

def State.shClusters (s : State) (slot : Nat) : Nat := s.sheet slot 0 2
def State.shCores (s : State) (slot : Nat) : Nat := s.sheet slot 2 2
def State.shLiveMax (s : State) (slot : Nat) : Nat := s.sheet slot 40 4
def State.shTakeBuf (s : State) (slot : Nat) : Nat := s.sheet slot 60 4
def State.shScratch (s : State) (slot : Nat) : Nat := s.sheet slot 132 4
/-- CLMEM_BYTES rounded up to 65,536 (R251). -/
def roundUp (m n : Nat) : Nat := (n + m - 1) / m * m
def State.shClmem (s : State) (slot : Nat) : Nat := roundUp 65536 (s.sheet slot 12 4)

/-- RING[q]: base, slot bytes, count (R188, R189). -/
def State.ring (s : State) (slot q : Nat) : Nat × Nat × Nat :=
  (s.sheet slot (64 + 8 * q) 4, 64 * s.sheet slot (68 + 8 * q) 2, s.sheet slot (70 + 8 * q) 1)

/-- Descriptors of the image, and a descriptor as the image holds it. -/
def State.nDesc (s : State) (slot : Nat) : Nat := s.imgN slot 10 2
def State.descImg (s : State) (slot td : Nat) : List Byte := s.secBytes slot 4 (64 * td) 64

/-- Handles of the mutable descriptors (R193). -/
def State.mutables (s : State) (slot : Nat) : List Nat :=
  (List.range (s.nDesc slot)).filter (fun t => bit (fld (s.descImg slot t) 0 4) 3)

/-- Instructions of a stream (R185), and one of them. -/
def State.streamLen (s : State) (slot : Nat) (e : Engine) : Nat :=
  match e with | .fe => s.imgN slot 12 4 | .xe => s.imgN slot 16 4
def streamTy : Engine → Nat
  | .fe => 2 | .xe => 3
def State.streamWord (s : State) (slot : Nat) (e : Engine) (i : Nat) : Nat := leNat (s.secBytes slot (streamTy e) (8 * i) 8)
def State.stream (s : State) (slot : Nat) (e : Engine) : List Nat :=
  (List.range (s.streamLen slot e)).map (s.streamWord slot e)

/-! ### The job area (R291) -/

/-- Sizes of the parts: header, slate areas A and B, spill area, take-buffer halves, working and committed descriptors,
scratch area, record ring. -/
def State.areaParts (s : State) (slot recEntries : Nat) : List Nat :=
  let cores := s.shClusters slot * s.shCores slot
  let slate := cores * s.shLiveMax slot + 12288 * s.shClusters slot
  let d := 64 * (s.mutables slot).length
  ([4096, slate, slate, cores * s.shLiveMax slot, s.shTakeBuf slot, s.shTakeBuf slot, d, d, s.shScratch slot,
    32 * recEntries]).map (roundUp 4096)

/-- Address of part `i` of a job's area. -/
def Job.areaPart (j : Job) (i : Nat) : Nat :=
  j.area + (j.parts.take i).foldl (· + ·) 0

/-- Address of a mutable descriptor's working or committed copy. -/
def State.mutAddr (s : State) (j : Job) (committed : Bool) (td : Nat) : Option Nat :=
  ((s.mutables j.slot.val).findIdx? (· = td)).map (fun i => j.areaPart (if committed then 7 else 6) + 64 * i)

/-- Where a descriptor is read from while the take runs (R199). -/
def State.descAddr (s : State) (j : Job) (td : Nat) : Nat :=
  (s.mutAddr j false td).getD (s.slotAddr j.slot.val + s.secOff j.slot.val 4 + 64 * td)

/-! ### Tensors, maps and boxes (R194, R200, R201, R241) -/

structure Tensor where
  region : Nat
  fmt : Nat
  weight : Bool
  merge : Bool
  ndim : Nat
  base : Nat
  scale : Nat
  dims : List Nat
  strides : List Nat
  side : Nat
  deriving DecidableEq, Repr

/-- An extent, with the loop count register it may stand for (R241). -/
def dimVal (lcnt : List Nat) (d : Nat) : Nat :=
  if 0xFFFFFFF0 ≤ d ∧ d ≤ 0xFFFFFFF3 then lcnt.getD (d - 0xFFFFFFF0) 0 else d

def tensorOf (lcnt : List Nat) (d : List Byte) : Tensor :=
  let c := fld d 4 4
  let n := bits c 11 9
  { region := bits c 1 0, fmt := bits c 5 2, weight := bit c 6, merge := bits c 8 7 = 1, ndim := n,
    base := fld d 8 5, scale := fld d 16 2 % 4096,
    dims := (List.range 5).map (fun i => if i < n then dimVal lcnt (fld d (20 + 4 * i) 4) else 1),
    strides := 0 :: (List.range 4).map (fun i => if i + 1 < n then fld d (40 + 4 * i) 4 else 0),
    side := fld d 56 5 }

/-- A dimension record of an address map (R200). -/
structure MapRec where
  off : Int
  step : Int
  ext : Nat
  drv : Nat
  sb : Nat
  deriving DecidableEq, Repr

def mapRecs (m : List Byte) : List MapRec :=
  (List.range 5).map (fun i =>
    let o := 4 + 12 * i
    { off := fldS m o 4, step := fldS m (o + 4) 4, ext := max 1 (fld m (o + 8) 2), drv := fld m (o + 10) 1 % 8,
      sb := fld m (o + 11) 1 % 32 })

def State.mapBytes (s : State) (slot i : Nat) : List Byte := s.secBytes slot 5 (64 * i) 64

/-- The driver of a dimension; a loop level that is not open drives 0. -/
def drvVal (c : Core) (g : Eng) (cores : Nat) (r : MapRec) : Int :=
  if r.drv < 4 then (((g.loops[r.drv]?.map (·.idx)).getD 0 : Nat) : Int)
  else if r.drv = 4 then (c.lcore : Int)
  else if r.drv = 5 then ((c.lcore / cores : Nat) : Int)
  else if r.drv = 6 then fldS (((c.sb[r.sb]?).map (·.bytes)).getD []) 0 4
  else 0

def originOf (c : Core) (g : Eng) (cores : Nat) (rs : List MapRec) : List Int :=
  rs.map (fun r => r.off + r.step * drvVal c g cores r)

/-- Coordinates along dimensions 1 to 4 of row `r` of a box, dimension 1 fastest (R202). -/
def rowCoords : List Nat → Nat → List Nat
  | [], _ => []
  | e :: es, r => r % e :: rowCoords es (r / e)

/-- Rows of a box. -/
def boxRows (ext : List Nat) : Nat := (ext.drop 1).foldl (· * ·) 1

/-- Coordinates of element `e` of row `r`. -/
def cellCoord (origin : List Int) (ext : List Nat) (r e : Nat) : List Int :=
  List.zipWith (fun (o : Int) (x : Nat) => o + x) origin (e :: rowCoords (ext.drop 1) r)

/-- The coordinates lie inside the tensor. -/
def insideT (t : Tensor) (x : List Int) : Bool :=
  (List.zip x t.dims).all (fun p => decide (0 ≤ p.1) && decide (p.1 < (p.2 : Int)))

/-- Bit address within the region of an element inside the tensor. -/
def cellBit (t : Tensor) (x : List Int) : Nat :=
  let hi := (List.zipWith (fun (i : Int) (st : Nat) => i.toNat * st) x t.strides).foldl (· + ·) 0
  8 * (t.base + hi) + (x.headD 0).toNat * fmtBits t.fmt

/-! ### Where bytes are: one key space for DRAM, cluster memory and scratchpad -/

def clKey (c o : Nat) : Nat := 2 ^ 40 + c * 2 ^ 24 + o
def spKey (a : Nat) : Nat := 2 ^ 41 + a
def isDramKey (k : Nat) : Bool := k < 2 ^ 40
def isSpadKey (k : Nat) : Bool := 2 ^ 41 ≤ k
def clOfKey (k : Nat) : Nat := (k - 2 ^ 40) / 2 ^ 24

/-- The job's cluster-memory allocation in a physical cluster: start and size (R251). -/
def State.clAlloc (s : State) (j : Job) (cl : Nat) : Option (Nat × Nat) :=
  ((s.cluster cl).allocs.find? (fun a => a.1 = j.id)).map (·.2)

/-- Job virtual address to physical address: the scratch area at 0xC0_0000_0000, else the segment table (R289). -/
def State.vaTo (s : State) (j : Job) (a n : Nat) (write : Bool) : Option Nat :=
  if 0xC000000000 ≤ a ∧ a + n ≤ 0xC000000000 + s.shScratch j.slot.val then some (j.areaPart 8 + (a - 0xC000000000))
  else
    (j.segs.find? (fun g => g.vbase ≤ a && a + n ≤ g.vbase + g.bytes && (!write || g.writable))).map
      (fun g => g.pbase + (a - g.vbase))

/-- The working take-buffer half (R228): the one that is not committed. -/
def Job.working (j : Job) : Nat := 1 - j.half

/-- The key of `n` bytes at an address of a region, seen from a core; none raises XLATE (R194, R252). -/
def State.locate (s : State) (core : Nat) (j : Job) (region a n : Nat) (write : Bool) : Option Nat :=
  match region with
  | 0 => s.vaTo j a n write
  | 1 =>
    match s.clAlloc j (clusterOf core) with
    | some (st, sz) => if a + n ≤ sz then some (clKey (clusterOf core) (st + a)) else none
    | none => none
  | 2 => if a + n ≤ 786432 then some (spKey a) else none
  | _ => if a + n ≤ s.shTakeBuf j.slot.val then some (j.areaPart (4 + j.working) + a) else none

/-- A byte by key. -/
def State.keyByte (s : State) (core k : Nat) : Byte :=
  if isDramKey k then mapGet s.dram k 0
  else if isSpadKey k then mapGet (s.core core).spad (k - 2 ^ 41) 0
  else mapGet (s.cluster (clOfKey k)).mem (k % 2 ^ 24) 0

/-- Bytes of cluster memory. -/
def Cluster.rawBytes (c : Cluster) (o n : Nat) : List Byte := (List.range n).map (fun i => mapGet c.mem (o + i) 0)

/-- The block of cluster memory holds the tag of its content. -/
def Cluster.tagOk (c : Cluster) (b : Nat) : Bool :=
  match mapGet? c.tags b with
  | none => true
  | some t => t == crc32c (c.rawBytes (1024 * b) 1024)

/-- A write into cluster memory with its tags. -/
def Cluster.write (c : Cluster) (o : Nat) (bs : List Byte) : Cluster :=
  { c with
    mem := putBytes c.mem o bs
    memPoison := c.memPoison.filter (fun l => !(coveredLines o bs.length).contains l)
    tags := c.tags.filter (fun p => !(unitsTouched 1024 o bs.length).contains p.1) }

/-- The 1 KiB block of a key holds its tag. -/
def State.keyTagOk (s : State) (k : Nat) : Bool :=
  if isDramKey k then s.tagsOk (k / 1024 * 1024) 1024
  else (s.cluster (clOfKey k)).tagOk (k % 2 ^ 24 / 1024)

/-- How a read of the 64-byte line at a key returns: what memory says, else what the response says (R382, R383, R594). -/
def State.lineResp (s : State) (core k : Nat) (r : Resp) : State × Resp × PInfo :=
  if isDramKey k then
    let die := dieOf (chanOf s.fuse.grade k)
    let l := lineOf k
    let s := if (s.memCheck (clusterOf core) l 64 false).isSome then s else s.lineFinds l r
    let (s, _, m) := s.readVia (clusterOf core) l 64
    let r := if m = .ok then settled r else m
    (s, r, if r = .error then ⟨6, 0, l⟩ else ⟨7, die, l⟩)
  else
    let r := if (s.cluster (clOfKey k)).memPoison.contains (lineOf (k % 2 ^ 24)) then .poisoned
      else if r = .corrected then .ok else r
    (s, r, ⟨6, 0, 0⟩)

/-- The core's short requests outstanding (R134): short-buffer entries that wait, and short writes not yet in memory. -/
def State.shortOut (s : State) (n : Nat) : Nat :=
  ((s.core n).sb.filter (fun e => e.pend != .none)).length +
    (s.queue.filter (fun q => q.own.any (fun o => o.core == n && o.short))).length +
    (s.held.filter (fun q => q.own.any (fun o => o.core == n && o.short))).length
def State.shortBusy (s : State) (n : Nat) : Bool := 8 ≤ s.shortOut n

/-- A line of a core's store: a metered request of its cluster's port. Its port accepts it at once (DESIGN CHOICE, log 51:
no rule gives the port's size), and MEM_WRITE makes it visible (R377, R596). -/
def State.storeLine (s : State) (o : Owner) (k : Nat) (bs : List Byte) (merge : Bool) : State :=
  s.request { port := Fin.ofNat 24 (clusterOf o.core), addr := BitVec.ofNat 40 k, write := true, metered := true,
              slateClass := false, poisoned := false, merge := merge, data := bs, hart := 0 } (some o)

/-- A write of bytes at a key by an engine of a core; one to DRAM becomes a request for each line. -/
def State.keyWrite (s : State) (o : Owner) (k : Nat) (bs : List Byte) (merge : Bool) : State :=
  if isDramKey k then
    (pieces k bs.length).foldl (fun s p => s.storeLine o p.1 ((bs.drop (p.1 - k)).take p.2) merge) s
  else s.modCluster (clOfKey k) (fun c => c.write (k % 2 ^ 24) bs)

/-- A read by a core of a DRAM line waits until the meters of its cluster's port pass it (R377). -/
def State.passKeys (s : State) (n : Nat) (ls : List Nat) : Option State :=
  s.passLines (clusterOf n) (ls.filter isDramKey)

/-! ### Scratchpad lines (R101, R468, R471) -/

def Core.spadBytes (c : Core) (a n : Nat) : List Byte := (List.range n).map (fun i => mapGet c.spad (a + i) 0)

/-- Lines touched, by address. -/
def linesOf (a n : Nat) : List Nat := (unitsTouched 64 a n).map (· * 64)

/-- A write gives each line it touches a matching line check and no poison. -/
def Core.spadWrite (c : Core) (a : Nat) (bs : List Byte) : Core :=
  let ls := linesOf a bs.length
  { c with spad := putBytes c.spad a bs
           spadBad := c.spadBad.filter (fun l => !ls.contains l)
           spadPoison := c.spadPoison.filter (fun p => !ls.contains p.1) }

/-- Marks a line as landed poisoned. -/
def Core.spadMark (c : Core) (l : Nat) (p : PInfo) : Core := { c with spadPoison := mapPut c.spadPoison (lineOf l) p }

/-- What a read of the lines finds first. -/
inductive SpadChk where
  | ok | bad | poison (p : PInfo)
  deriving DecidableEq, Repr

/-- The poison a check met. -/
def SpadChk.info? : SpadChk → Option PInfo
  | .poison p => some p
  | _ => none

def Core.linesChk (c : Core) (ls : List Nat) : SpadChk :=
  if ls.any c.spadBad.contains then .bad
  else match ls.findSome? (mapGet? c.spadPoison) with
    | some p => .poison p
    | none => .ok
def Core.spadChk (c : Core) (a n : Nat) : SpadChk := c.linesChk (linesOf a n)

/-! ### Take status (R234) -/

def sat32 (a n : Nat) : Nat := min (a + n) 0xFFFFFFFF

def Core.addNonfinite (c : Core) (n : Nat) : Core :=
  { c with status := { c.status with nonfinite := sat32 c.status.nonfinite n } }
def Core.addFp (c : Core) (inv ovf : Nat) : Core :=
  { c with status := { c.status with fpInvalid := sat32 c.status.fpInvalid inv,
                                     fpOverflow := sat32 c.status.fpOverflow ovf } }
def Core.addRange (c : Core) (n : Nat) : Core :=
  { c with status := { c.status with outOfRange := sat32 c.status.outOfRange n } }
def Core.addMissed (c : Core) (n : Nat) : Core :=
  { c with status := { c.status with missedCues := sat32 c.status.missedCues n } }

/-! ### Faults of a core (R94, R141, R484) -/

/-- The health unit a fault is charged to (R484, R488). -/
def chargeOf (code cls level core : Nat) : Option Nat :=
  if code = 5 ∨ code = 9 then some (128 + clusterOf core)
  else if code = 2 ∨ code = 6 ∨ code = 7 then some core
  else if code = 1 ∧ cls = 2 then some core
  else if code = 8 ∧ level = 4 then some core
  else none

/-- A health unit by index. -/
def State.healthOf (s : State) (u : Nat) : Health := s.health[u]?.getD Health.reset
def State.setHealth (s : State) (u : Nat) (h : Health) : State := { s with health := s.health.setIfInBounds u h }

/-- A unit takes a health state: firmware copies it to flash (R492), STATE_CHANGE. -/
def State.setHealthSt (s : State) (u st : Nat) : State :=
  if (s.healthOf u).st = st then s
  else
    let s := s.setHealth u { s.healthOf u with st := st }
    { s with sec := { s.sec with flashHealth := s.sec.flashHealth.set u st } }.raise pgHealth 0

/-- An unexplained charged fault (R489, R491): the unit's state steps on, and a core that raises it in a recovery or for
the second time within 1 s is withheld. -/
def State.chargeUnit (s : State) (u : Nat) : State :=
  let h := s.healthOf u
  let c := s.core u
  let again := s.recovering.isSome || c.faultTimes.any (fun t => s.uptime ≤ t + 256000000000)
  let s := s.setHealth u { h with faults := min 255 (h.faults + 1), passes := 0, withheld := h.withheld || (u < 128 && again) }
  let s := if u < 128 then s.setCore u { c with faultTimes := [s.uptime] } else s
  s.setHealthSt u (if h.st = 0 then 1 else if h.st = 1 then 2 else h.st)

/-- A fault of the tensor complex is detected: its record (R483 to R485), its charge, and its wait for the stop. -/
def State.detect (s : State) (code cls level sub unit : Nat) (core : Option Nat) (job : BitVec 16) (take : Nat)
    (charge : Option Nat) (addr : Nat) : State :=
  let explained := charge.isSome && s.uptime < s.power.explainUntil
  let charged := charge.isSome && !explained
  let c := cls + 4 * b2n explained + 8 * b2n charged + 16 * b2n s.recovering.isSome
  let hu := if charged then charge.getD 0xFFFF else 0xFFFF
  let s := s.putRecord (recordBytes code c level take unit sub job.toNat hu s.tk addr s.faultSeq.toNat)
  let s := if charged then s.chargeUnit (charge.getD 0) else s
  { s with faults := s.faults ++ [⟨cls, core, job, s.uptime⟩] }

/-- Memory's own answer to a read of an area: an error it finds stands in a line of the area that is free (log 54). -/
def State.areaFinds (s : State) (a n : Nat) (r : Resp) : State :=
  if n ≠ 0 ∧ (r = .poisoned ∨ r = .corrected) then
    let (s, k) := s.drawNat 32
    s.lineFinds (lineOf a + 64 * (k % (unitsTouched 64 a n).length)) r
  else s

/-- A core stops with the effects of R141: unfinished work and token entries are gone, writes the fabric has stay. -/
def Core.halt (c : Core) : Core :=
  { c with mode := .stopped, sets := [], osq := [], tq0 := [], tq1 := [], tq2 := [], tq3 := [], xfers := [] }

/-- A fault: the core stops, drops unfinished work and its token entries (R129, R141), and signals JSC. During a daily
the fault is absorbed and the core alone stops (R473, R497). -/
def State.coreFault (s : State) (n code cls level sub addr row col : Nat) : State :=
  let c := s.core n
  if c.mode = .stopped then s
  else
    let take := match s.coreJob n with | some j => j.takeNo | none => 0
    let unit := if level = 5 then pgCl (clusterOf n) else pgTc n
    let s := s.setCore n c.halt
    let s := (s.setRn (pgTc n) 0x11C (code + row * 256 + col * 65536 + level % 8 * 2 ^ 24)).raise (pgTc n) 0
    if c.daily then s.putRecord (recordBytes code 0x20 level 0 unit sub 0 0xFFFF s.tk addr s.faultSeq.toNat)
    else s.detect code cls level sub unit (some n) c.job take (chargeOf code cls level n) addr

/-- SCHEDULE_OVERRUN. -/
def State.overrun (s : State) (n : Nat) : State := s.coreFault n 4 2 4 0 0 63 63
/-- XLATE. -/
def State.xlateFault (s : State) (n : Nat) : State := s.coreFault n 7 2 4 0 0 63 63
/-- POISON_CONSUMED. -/
def State.poisonFault (s : State) (n : Nat) (p : PInfo) : State :=
  s.coreFault n 3 1 p.level (if p.level = 7 then p.die else 0) p.addr 63 63
/-- A scratchpad line check fails (R468). -/
def State.lineCheckFault (s : State) (n : Nat) : State := s.coreFault n 1 2 1 63 0 63 63

/-- Goes on when the scratchpad lines read well. -/
def State.readSpad (s : State) (n a len : Nat) (k : List Byte → State) : State :=
  match (s.core n).spadChk a len with
  | .bad => s.lineCheckFault n
  | .poison p => s.poisonFault n p
  | .ok => k ((s.core n).spadBytes a len)

end Sys2Proof.Machine
end

