-- ==== Sys2Proof/Machine/Engine.lean ====
section
/-! DEFINITION. The two engines of a core: issue with its waits and condition (R81 to R89 without cycle counts, R133,
R139, R208), the control instructions, loops (R216), barriers and cue waits (R222, R223), and the instruction cache
(R137 to R140). An instruction command acts when that instruction is the next one its engine may issue, and changes
nothing otherwise. -/

namespace Sys2Proof.Machine

/-! ### Issue -/

/-- The core's own transfers whose requests it has issued: a receive of a group counts with its source (R130, R255). -/
def Core.ownXfers (c : Core) : List Transfer := c.xfers.filter (fun x => !x.waiting && (x.group.isNone || x.source))
/-- Tile requests still to be answered, those of parameter blocks among them (R130). -/
def Core.outstanding (c : Core) : Nat := (c.ownXfers.map (fun x => x.lines.length)).foldl (· + ·) 0
/-- The core's cluster is gated (R133). -/
def State.gatedAt (s : State) (n : Nat) : Bool := (s.cluster (clusterOf n)).gated

/-- The engine may issue: the take runs, the core is not gated, nothing holds the engine; the FE has issued every request
of its earlier instructions (R130, R132, R255). -/
def State.engReady (s : State) (n : Nat) (e : Engine) : Bool :=
  let c := s.core n
  c.mode == .running && !s.gatedAt n && (c.eng e).wait == .none &&
    (e == .xe || (c.outstanding ≤ 512 && !c.xfers.any (fun x => x.source && x.waiting)))

/-- The word at the engine's program counter, if its line is in the cache. -/
def Core.word? (c : Core) (e : Engine) : Option IWord :=
  let g := c.eng e
  (c.icache.find? (fun l => l.fe == (e == .fe) && l.index == g.pc / 8)).bind (fun l => l.words[g.pc % 8]?)

/-- The line becomes the most recently used. -/
def Core.touch (c : Core) (e : Engine) : Core :=
  let i := (c.eng e).pc / 8
  let hit (l : ICLine) : Bool := l.fe == (e == .fe) && l.index == i
  { c with icache := c.icache.filter hit ++ c.icache.filter (fun l => !hit l) }

/-- The condition of R208. -/
def condHolds (g : Eng) (w : Nat) : Bool :=
  let (i, n) := match g.loops[bits w 54 53]? with
    | some l => (l.idx, l.count)
    | none => (0, 1)
  match bits w 57 55 with
  | 0 => true
  | 1 => i == 0
  | 2 => i != 0
  | 3 => i + 1 == n
  | 4 => i + 1 != n
  | 5 => i % 2 == 0
  | 6 => i % 2 == 1
  | _ => false

/-- The engine goes on to its next instruction. -/
def Core.adv (c : Core) (e : Engine) : Core :=
  c.setEng e { c.eng e with pc := (c.eng e).pc + 1, missed := false }
def State.adv (s : State) (n : Nat) (e : Engine) : State := s.modCore n (·.adv e)

/-- The word's opcode is `op`. -/
def isOp (op w : Nat) : Bool := bits w 63 58 == op

/-- The countable event of PERF_SEL that every execution of an instruction is: a vector-unit instruction, a short-path read
by SRD or WCNT (R144); reads of descriptors and indices count where they are made. -/
def perfEvents (w : Nat) : List Nat :=
  let op := bits w 63 58
  (if 0x23 ≤ op ∧ op ≤ 0x28 then [10] else []) ++ (if op = 0x15 ∨ op = 0x18 then [12] else [])

/-- Counts `k` events of a code in every PERF_CNT that selects it. -/
def State.perf (s : State) (n code k : Nat) : State :=
  (List.range 4).foldl (fun s m =>
    if s.rn (pgTc n) (0x400 + 4 * m) = code then s.countReg (pgTc n) (0x410 + 4 * m) 1 k else s) s

/-- Cycles that have gone by at the core: every PERF_CNT that counts cycles or landing writes gains a free number, as no rule
gives one (DESIGN CHOICE, log 42: they are added as accumulator sets drain and stores leave). -/
def State.perfCycles (s : State) (n : Nat) : State :=
  (List.range 4).foldl (fun s m =>
    let e := s.rn (pgTc n) (0x400 + 4 * m)
    if (1 ≤ e ∧ e ≤ 9) ∨ e = 13 then
      let (s, k) := s.drawNat 32
      s.countReg (pgTc n) (0x410 + 4 * m) 1 k
    else s) s

/-- LAST_RECOVERY_NS when the last job has resumed (R482). -/
def State.recoveryEnds (s : State) : State :=
  match s.recovering with
  | none => s
  | some t0 =>
    if s.c2Active || s.jobs.any (fun j => j.st == .restarting || j.resuming) then s
    else
      let ns := min ((s.uptime - t0) / 256) 0xFFFFFFFF
      let s := { s with recovering := none }
      let s := (s.setRn pgFaults 0x11C ns).setRn pgFaults 0x120 (max ns (s.rn pgFaults 0x120))
      if 50000 < ns then s.raise pgFaults 2 else s

/-- A recovery whose last job ends without a resumption is not measured. -/
def State.recoveryDrops (s : State) : State :=
  if s.c2Active || s.jobs.any (fun j => j.st == .restarting || j.resuming) then s else { s with recovering := none }

/-- The first issue of a take's FE is START of its run, and a restarted job's resumption (R290, R310, R482). -/
def State.firstIssue (s : State) (n : Nat) (e : Engine) : State :=
  match e, s.coreJob n with
  | .fe, some j =>
    if j.resuming || j.cur.any (·.start.isNone) then
      let t := s.modJob j.id (fun j =>
        { j with resuming := false
                 cur := j.cur.map (fun r => { r with start := some (r.start.getD (BitVec.ofNat 40 s.tk)) }) })
      if j.resuming then t.recoveryEnds else t
    else s
  | _, _ => s

/-- The effect of an instruction with its events, which count when the instruction is not waiting. -/
def State.counted (s : State) (n : Nat) (e : Engine) (w : Nat) (k : Nat → State → State) : State :=
  let t := k w s
  if ((t.core n).eng e).pc = ((s.core n).eng e).pc then t
  else ((perfEvents w).foldl (fun t code => t.perf n code 1) t).firstIssue n e

/-- Issues the next instruction when it is one that `sel` names; `k` gives its effect. A miss is counted once (R139), when
the engine first asks for an instruction whose line has not returned; prefetched lines are no misses (DESIGN CHOICE, log
54). -/
def State.issue (s : State) (n : Nat) (e : Engine) (sel : Nat → Bool) (k : Nat → State → State) : State :=
  if s.engReady n e then
    let c := s.core n
    match c.word? e with
    | none =>
      if (c.eng e).missed then s
      else (s.setCore n (c.setEng e { c.eng e with missed := true })).countReg (pgTc n) 0x13C 1
    | some w =>
      if sel w.toNat then
        let s := s.setCore n (c.touch e)
        if condHolds (c.eng e) w.toNat then s.counted n e w.toNat k else (s.adv n e).firstIssue n e
      else s
  else s

/-! ### NOP, loops, SETSR -/

def nop (n : Nat) (e : Engine) (s : State) : State := s.issue n e (isOp 0x00) (fun _ s => s.adv n e)

def execNop (core : Fin 128) (eng : Engine) (s : State) : Host.Outcome State Fault Refusal := .next (nop core.val eng s)

/-- The loop counts of the take (R216, R289). -/
def State.lcnt (s : State) (n : Nat) : List Nat :=
  match s.coreJob n with
  | some j => match j.cur with | some r => r.lcnt | none => [0, 0, 0, 0]
  | none => [0, 0, 0, 0]

/-- LOOP (R216): opens the next level, or skips the body when the count is 0. -/
def loopOp (n : Nat) (e : Engine) (s : State) : State :=
  s.issue n e (isOp 0x01) (fun w s =>
    let cnt := if bit w 42 then (s.lcnt n).getD (bits w 41 40) 0 else bits w 39 16
    s.modCore n (fun c =>
      let g := c.eng e
      if cnt = 0 then c.setEng e { g with pc := g.pc + 1 + bits w 15 0, missed := false }
      else c.setEng e { g with pc := g.pc + 1, loops := g.loops ++ [⟨0, cnt, g.pc + 1⟩], missed := false }))

def execLoop (core : Fin 128) (eng : Engine) (s : State) : Host.Outcome State Fault Refusal := .next (loopOp core.val eng s)

/-- What ENDL makes of an engine (R216). -/
def endlEng (g : Eng) : Eng :=
  match g.loops.getLast? with
  | none => { g with pc := g.pc + 1, missed := false }
  | some l =>
    if l.idx + 1 < l.count then
      { g with pc := l.start, loops := g.loops.dropLast ++ [{ l with idx := l.idx + 1 }], missed := false }
    else { g with pc := g.pc + 1, loops := g.loops.dropLast, missed := false }

def endlOp (n : Nat) (e : Engine) (s : State) : State :=
  s.issue n e (isOp 0x02) (fun _ s => s.modCore n (fun c => c.setEng e (endlEng (c.eng e))))

def execEndl (core : Fin 128) (eng : Engine) (s : State) : Host.Outcome State Fault Refusal := .next (endlOp core.val eng s)

/-- The index of a loop level of an engine; 0 where not open. -/
def Eng.idx (g : Eng) (l : Nat) : Nat := ((g.loops[l]?).map (·.idx)).getD 0

/-- SETSR: IMM, plus the index of loop LEVEL when IDX = 1. -/
def setsr (n : Nat) (s : State) : State :=
  s.issue n .xe (isOp 0x09) (fun w s =>
    (s.modCore n (fun c =>
      let v := bits w 31 0 + (if bit w 48 then c.xe.idx (bits w 54 53) else 0)
      { c with sr := c.sr.set (bits w 52 49) (w32 v) })).adv n .xe)

def execSetsr (core : Fin 128) (s : State) : Host.Outcome State Fault Refusal := .next (setsr core.val s)

/-! ### Release of waits (R221) -/

/-- HOLD of the XE, or none for the FE. -/
def Eng.release (g : Eng) (e : Engine) : Eng :=
  { g with wait := if e = .xe && g.hold != 0 then .hold else .none }

def State.releaseEng (s : State) (n : Nat) (e : Engine) : State := s.modCore n (fun c => c.setEng e ((c.eng e).release e))

/-- XE_START: the XE follows its FE, once the FE has been released. -/
def xeStart (n : Nat) (s : State) : State :=
  let c := s.core n
  if c.mode = .running ∧ !s.gatedAt n ∧ c.xe.wait = .start ∧ c.fe.wait ≠ .start then
    s.setCore n { c with xe := { c.xe with wait := .none } }
  else s

def execXeStart (core : Fin 128) (s : State) : Host.Outcome State Fault Refusal := .next (xeStart core.val s)

/-- HOLD_EXPIRE. -/
def holdExpire (n : Nat) (s : State) : State :=
  let c := s.core n
  if c.mode = .running ∧ !s.gatedAt n ∧ c.xe.wait = .hold then s.setCore n { c with xe := { c.xe with wait := .none, hold := 0 } } else s

def execHoldExpire (core : Fin 128) (s : State) : Host.Outcome State Fault Refusal := .next (holdExpire core.val s)

/-! ### Barriers (R222) -/

/-- Number of an engine in a participant mask. -/
def engCode (lcore : Nat) (e : Engine) : Nat := 2 * lcore + (match e with | .fe => 0 | .xe => 1)

/-- SCOPE and participants of a barrier table entry. -/
def State.barScope (s : State) (slot bid : Nat) : Nat := leNat (s.secBytes slot 7 (48 * bid) 1)
def State.barMask (s : State) (slot bid : Nat) : List Nat := bitList 256 (leNat (s.secBytes slot 7 (48 * bid + 8) 32))

/-- BAR: the engine begins to arrive. An engine the mask does not name raises SCHEDULE_OVERRUN. -/
def bar (n : Nat) (e : Engine) (s : State) : State :=
  s.issue n e (isOp 0x03) (fun w s =>
    match s.coreJob n with
    | none => s
    | some j =>
      let bid := bits w 51 48
      if (s.barMask j.slot.val bid).contains (engCode (s.core n).lcore e) then
        (s.modCore n (fun c => c.setEng e { c.eng e with wait := .barrier bid false, hold := bits w 47 32 })).adv n e
      else s.overrun n)

def execBar (core : Fin 128) (eng : Engine) (s : State) : Host.Outcome State Fault Refusal := .next (bar core.val eng s)

/-- A store of an engine of the core is not yet in memory (R222, R596). -/
def State.storesOut (s : State) (n : Nat) (e : Engine) : Bool :=
  let mine (o : Option Owner) : Bool := o.any (fun o => o.core == n && o.eng == e)
  s.queue.any (fun q => mine q.own) || s.held.any (fun h => mine h.own)

/-- Every store of the FE is visible, every instruction of the XE complete, its stores accepted (R215, R222). -/
def State.quiet (s : State) (n : Nat) : Engine → Bool
  | .fe => (s.core n).tickets.isEmpty && !s.storesOut n .fe
  | .xe => (s.core n).sets.isEmpty && (s.core n).osq.isEmpty

/-- Engines that have arrived at a barrier of a job, seen from a core's cluster. -/
def State.arrived (s : State) (n : Nat) (j : Job) (bid : Nat) : List Nat :=
  if s.barScope j.slot.val bid = 0 then
    (((s.cluster (clusterOf n)).barriers.find? (fun b => b.job == j.id && b.bid == bid)).map (·.arrived)).getD []
  else ((j.jobBars.find? (·.bid == bid)).map (·.arrived)).getD []

def setArrived (bs : List Barrier) (job : BitVec 16) (bid : Nat) (a : List Nat) : List Barrier :=
  bs.map (fun b => if b.job = job ∧ b.bid = bid then { b with arrived := a } else b)

def State.setArrived (s : State) (n : Nat) (j : Job) (bid : Nat) (a : List Nat) : State :=
  if s.barScope j.slot.val bid = 0 then
    s.modCluster (clusterOf n) (fun c => { c with barriers := Machine.setArrived c.barriers j.id bid a })
  else s.modJob j.id (fun j => { j with jobBars := Machine.setArrived j.jobBars j.id bid a })

/-- Releases the participants of a barrier and clears its arrivals. -/
def State.releaseBarrier (s : State) (n : Nat) (j : Job) (bid : Nat) : State :=
  let s := s.setArrived n j bid []
  (s.barMask j.slot.val bid).foldl (fun s code =>
    match j.cores[code / 2]? with
    | none => s
    | some m =>
      let e : Engine := if code % 2 = 0 then .fe else .xe
      if ((s.core m).eng e).wait = .barrier bid true then s.releaseEng m e else s) s

/-- BARRIER_ARRIVE: an arrival, and the release of a cluster barrier at the last one. -/
def barrierArrive (n : Nat) (e : Engine) (s : State) : State :=
  let c := s.core n
  match (c.eng e).wait, s.coreJob n with
  | .barrier bid false, some j =>
    if c.mode = .running && !s.gatedAt n && s.quiet n e then
      let s := s.setCore n (c.setEng e { c.eng e with wait := .barrier bid true })
      let a := insN (s.arrived n j bid) (engCode c.lcore e)
      let s := s.setArrived n j bid a
      if s.barScope j.slot.val bid = 0 ∧ (s.barMask j.slot.val bid).all a.contains then s.releaseBarrier n j bid else s
    else s
  | _, _ => s

def execBarrierArrive (core : Fin 128) (eng : Engine) (s : State) : Host.Outcome State Fault Refusal :=
  .next (barrierArrive core.val eng s)

/-- JOB_BARRIER_RELEASE. -/
def jobBarrierRelease (id : BitVec 16) (bid : Nat) (s : State) : State :=
  match s.job? id with
  | none => s
  | some j =>
    if s.barScope j.slot.val bid ≠ 0 && !(s.barMask j.slot.val bid).isEmpty &&
        (s.barMask j.slot.val bid).all (s.arrived 0 j bid).contains then s.releaseBarrier 0 j bid else s

def execJobBarrierRelease (job : BitVec 16) (bid : Fin 16) (s : State) : Host.Outcome State Fault Refusal :=
  .next (jobBarrierRelease job bid.val s)

/-! ### Cue waits (R223) -/

/-- CUEWAIT: completes on the engine's fired bit, which it clears; otherwise waits. -/
def cuewait (n : Nat) (e : Engine) (s : State) : State :=
  s.issue n e (isOp 0x04) (fun w s =>
    match s.coreJob n with
    | none => s
    | some j =>
      let q := bits w 52 47
      let me := (q, engCode (s.core n).lcore e)
      let s := (s.modCore n (fun c => c.setEng e { c.eng e with hold := bits w 46 31 })).adv n e
      if j.fired.contains me then
        (s.modJob j.id (fun j => { j with fired := j.fired.filter (· ≠ me) })).releaseEng n e
      else s.modCore n (fun c => c.setEng e { c.eng e with wait := .cue q }))

def execCuewait (core : Fin 128) (eng : Engine) (s : State) : Host.Outcome State Fault Refusal :=
  .next (cuewait core.val eng s)

/-- The stream of an engine holds a CUEWAIT of the logical cue. -/
def State.waitsOn (s : State) (slot : Nat) (e : Engine) (q : Nat) : Bool :=
  (s.stream slot e).any (fun w => isOp 0x04 w && bits w 52 47 == q)

/-- The fired bit of an engine that waits on the cue later; a second firing before that counts as missed, by `missed`. -/
def State.cueBit (s : State) (j : Job) (q lcore : Nat) (e : Engine) (missed : State → State) : State :=
  let me := (q, engCode lcore e)
  if s.waitsOn j.slot.val e q then
    match s.job? j.id with
    | some j => if j.fired.contains me then missed s else s.setJob { j with fired := j.fired ++ [me] }
    | none => s
  else s

/-- A firing of logical cue `q` reaches one engine of the take: a waiting engine goes on. -/
def State.cueToEngine (s : State) (j : Job) (q n : Nat) (e : Engine) : State :=
  let c := s.core n
  if (c.eng e).wait = .cue q then s.releaseEng n e else s.cueBit j q c.lcore e (·.modCore n (·.addMissed 1))

/-- A missed cue of a core whose take is spilled. -/
def Job.missSaved (j : Job) (lcore : Nat) : Job :=
  { j with spillSaves := j.spillSaves.map (fun v => if v.lcore = lcore then
      { v with status := { v.status with missedCues := sat32 v.status.missedCues 1 } } else v) }

/-- A firing of a physical slot reaches every engine of the take of the job that owns it, a spilled take among them. -/
def State.cueToJobs (s : State) (slot : Nat) : State :=
  s.jobs.foldl (fun s j =>
    let q := slot - j.cueFirst
    if j.cueFirst ≤ slot ∧ slot < j.cueFirst + j.cueCount then
      if j.cores = [] then
        j.spillSaves.foldl (fun s v =>
          let miss (s : State) : State := s.modJob j.id (·.missSaved v.lcore)
          (s.cueBit j q v.lcore .fe miss).cueBit j q v.lcore .xe miss) s
      else j.cores.foldl (fun s n => (s.cueToEngine j q n .fe).cueToEngine j q n .xe) s
    else s) s

/-! ### The instruction cache (R137 to R140) -/

/-- The address of a line of a stream. -/
def State.icAddr (s : State) (slot : Nat) (fe : Bool) (i : Nat) : Nat :=
  s.slotAddr slot + s.secOff slot (if fe then 2 else 3) + 64 * i

/-- The set a line of a stream maps to. -/
def State.icSet (s : State) (slot : Nat) (fe : Bool) (i : Nat) : Nat :=
  s.icAddr slot fe i / 64 % 256

/-- Installs a line as the most recently used of its set, least recently used out. -/
def State.icInstall (s : State) (n slot : Nat) (fe : Bool) (i : Nat) (ws : List IWord) : State :=
  s.modCore n (fun c =>
    let same (l : ICLine) : Bool := l.fe == fe && l.index == i
    let rest := c.icache.filter (fun l => !same l)
    let st := s.icSet slot fe i
    let inSet (l : ICLine) : Bool := s.icSet slot l.fe l.index == st
    let drop := if 4 ≤ (rest.filter inSet).length then (rest.filter inSet).getLast? else none
    { c with icache := ⟨fe, i, ws⟩ :: (match drop with | some d => rest.filter (· ≠ d) | none => rest)
             icacheValid := true })

/-- The tag of line `i` of a stream of the slot, as R467 computes it from bytes. -/
def State.lineTag (s : State) (slot i : Nat) (bs : List Byte) : Word :=
  crc32c (bs ++ leBytes 8 (s.imgN slot 24 8) ++ leBytes 4 i)

/-- Index of a line of a stream in the slot's line-tag table, which has one entry for each 64-byte line of the slot
(R467: its size is PROG_SLOT_BYTES / 16). -/
def State.tagIndex (s : State) (slot : Nat) (fe : Bool) (i : Nat) : Nat := s.secOff slot (if fe then 2 else 3) / 64 + i
/-- The tag held there. -/
def State.heldTag (s : State) (slot : Nat) (fe : Bool) (i : Nat) : Nat :=
  leNat (s.rawBytes (s.tagTable slot + 4 * s.tagIndex slot fe i) 4)

/-- 64-bit words of a line. -/
def lineWords (bs : List Byte) : List IWord := (List.range 8).map (fun k => BitVec.ofNat 64 (fld bs (8 * k) 8))

/-- Fetches a line of a stream: installs it, or raises PROG_TAG (R137, R471, R594). -/
def State.icFetch (s : State) (n slot : Nat) (fe : Bool) (i : Nat) (r : Resp) : State :=
  let a := s.icAddr slot fe i
  let (s, r, p) := s.lineResp n a r
  let bs := s.rawBytes a 64
  match r with
  | .poisoned => s.coreFault n 8 2 p.level (if p.level = 7 then p.die else 0) a 63 63
  | .error => s.coreFault n 8 2 6 0 a 63 63
  | .corrupt => s.coreFault n 8 2 4 0 a 63 63
  | _ =>
    if (s.lineTag slot i bs).toNat = s.heldTag slot fe i then s.icInstall n slot fe i (lineWords bs)
    else s.coreFault n 8 2 4 0 a 63 63

/-- Lines of a stream. -/
def State.streamLines (s : State) (slot : Nat) (e : Engine) : Nat := (s.streamLen slot e + 7) / 8

/-- The line an engine wants next: the one at its program counter, else the next two of its stream (R138). -/
def State.icWant (s : State) (n slot : Nat) (e : Engine) : Option Nat :=
  let c := s.core n
  let g := c.eng e
  ([g.pc / 8, g.pc / 8 + 1, g.pc / 8 + 2]).find? (fun i =>
    i < s.streamLines slot e && !c.icache.any (fun l => l.fe == (e == .fe) && l.index == i))

/-- ICACHE_FILL: the next line the engine's stream wants returns, once the meters of its port have passed the read (R377). -/
def icacheFill (n : Nat) (e : Engine) (r : Resp) (s : State) : State :=
  let c := s.core n
  match s.coreJob n with
  | none => s
  | some j =>
    if c.mode = .running ∨ c.mode = .reserved then
      match s.icWant n j.slot.val e with
      | some i =>
        match s.passKeys n [s.icAddr j.slot.val (e == .fe) i] with
        | some s => s.icFetch n j.slot.val (e == .fe) i r
        | none => s
      | none => s
    else s

def execIcacheFill (core : Fin 128) (eng : Engine) (resp : Resp) (s : State) : Host.Outcome State Fault Refusal :=
  .next (icacheFill core.val eng resp s)

/-- Warms the cache with the lines of the first 64 instructions from an instruction on, in each stream (R140, R229). Each
takes its credits and none waits for one (DESIGN CHOICE, log 51). -/
def State.icWarm (s : State) (n slot : Nat) : State :=
  let go (e : Engine) (s : State) : State :=
    let lo := ((s.core n).eng e).pc / 8
    iterate (fun i s =>
      if i < s.streamLines slot e && (s.core n).mode != .stopped &&
          !(s.core n).icache.any (fun l => l.fe == (e == .fe) && l.index == i) then
        (s.spend (clusterOf n) (s.icAddr slot (e == .fe) i)).icFetch n slot (e == .fe) i .ok
      else s) ((((s.core n).eng e).pc + 63) / 8 + 1 - lo) lo s
  go .xe (go .fe s)

end Sys2Proof.Machine
end

