-- ==== Sys2Proof/Machine/Fetch.lean ====
section
/-! DEFINITION. The fetch engine: token queues and slot credits (R122 to R130), tile loads, multicast (R254 to R258,
R595), gather and scatter (R205, R206), stores (R204, R587), short transfers (R134 to R136, R207), parameter blocks
(R210), work counters (R260 to R266), and the responses that complete them. Descriptor and index reads are made as the
instruction issues; tile data is taken line by line as its responses arrive. -/

namespace Sys2Proof.Machine

/-! ### Token queues and slots -/

def Core.tq (c : Core) : Nat → List Token
  | 0 => c.tq0 | 1 => c.tq1 | _ => c.tq2
def Core.setTq (c : Core) (q : Nat) (l : List Token) : Core :=
  match q with | 0 => { c with tq0 := l } | 1 => { c with tq1 := l } | _ => { c with tq2 := l }

def Core.slotBusy (c : Core) (q sl : Nat) : Bool := c.busy.contains (q, sl)
def Core.freeSlot (c : Core) (q sl : Nat) : Core := { c with busy := c.busy.filter (· ≠ (q, sl)) }
def Core.nextOf (c : Core) (q : Nat) : Nat := c.nextSlot.getD q 0

/-- Takes the next slot of a ring of `count` slots (R128). -/
def Core.takeSlot (c : Core) (q count : Nat) : Core :=
  { c with busy := c.busy ++ [(q, c.nextOf q)], nextSlot := c.nextSlot.set q ((c.nextOf q + 1) % count) }

/-- Scratchpad address of a slot. -/
def State.slotAt (s : State) (slot q sl : Nat) : Nat := (s.ring slot q).1 + sl * (s.ring slot q).2.1

/-- The load cannot go on yet: the queue holds 16 entries, or the next slot is not free (R123, R128). -/
def State.loadWaits (s : State) (n q : Nat) : Bool :=
  let c := s.core n
  16 ≤ (c.tq q).length || c.slotBusy q (c.nextOf q)

/-! ### Descriptors and maps at issue -/

/-- How a read that an instruction makes as it issues comes back, whatever memory holds: well, or with an error response
(R594). Which is free. -/
def State.freeResp (s : State) : State × Resp :=
  let (s, f) := s.drawNat 8
  (s, if f = 0 then .error else .ok)

/-- Lines read through the short path as an instruction issues: none while the path has 8 requests out or a line waits at
its meters (R134, R377); else the first that came back poisoned or with an error. -/
def State.shortReads (s : State) (n : Nat) : List Nat → Option (State × Option PInfo)
  | [] => some (s, none)
  | l :: ls =>
    if s.shortBusy n then none
    else
      match s.passKeys n [l] with
      | none => none
      | some s =>
        let (s, f) := s.freeResp
        let (s, r, i) := s.lineResp n l f
        ((s.perf n 12 1).shortReads n ls).map (fun x => (x.1, if r = .poisoned ∨ r = .error then some i else x.2))

/-- The take's descriptors (R198): preloaded ones come from the cache; others are short reads, whose poison stops the
core (R471). While one waits, so does the instruction: `b` stands, the state at its issue. -/
def State.useDesc (s : State) (n : Nat) (j : Job) (b : State) (td : Nat) (k : List Byte → State → State) : State :=
  if td = 0 then k (List.replicate 64 0) s
  else if (s.core n).dcache.contains td then k (s.descImg j.slot.val td) s
  else
    let a := s.descAddr j td
    match s.shortReads n [lineOf a] with
    | none => b
    | some (s, some p) => s.poisonFault n p
    | some (s, none) => k (s.rawBytes a 64) s

/-- The short-buffer entries that drive a map: the FE waits for an invalid one (R135) and stops on a poisoned one (R136). -/
def State.useSb (s : State) (n : Nat) (rs : List MapRec) (k : State → State) : State :=
  let es := (rs.filter (fun r => r.drv = 6)).filterMap (fun r => (s.core n).sb[r.sb]?)
  if es.any (fun e => !e.valid) then s
  else match es.findSome? (·.poison) with
    | some p => s.poisonFault n p
    | none => k s

/-- Map records and FLAGS[0] of a map. -/
def State.useMap (s : State) (n : Nat) (j : Job) (m : Nat) (k : List MapRec → Bool → State → State) : State :=
  let b := s.mapBytes j.slot.val m
  s.useSb n (mapRecs b) (k (mapRecs b) (bit (fld b 0 4) 0))

/-- The origin of a map's box on a core's FE (R200). -/
def State.feOrigin (s : State) (n : Nat) (j : Job) (rs : List MapRec) : List Int :=
  originOf (s.core n) (s.core n).fe (s.shCores j.slot.val) rs

/-! ### Cells of a box -/

/-- What one element of a box is: outside the tensor, dropped by its index, untranslatable, or at a bit. -/
inductive Cell where
  | out | drop | bad | at (b : Nat)
  deriving DecidableEq, Repr

/-- The element at coordinates. -/
def State.cell (s : State) (n : Nat) (j : Job) (t : Tensor) (write : Bool) (x : List Int) : Cell :=
  if insideT t x then
    let b := cellBit t x
    match s.locate n j t.region (b / 8) (max 1 (fmtBits t.fmt / 8)) write with
    | some k => .at (8 * k + b % 8)
    | none => .bad
  else .out

/-- How an index replaces coordinates (R205): GRAN and the index values in order, none where out of range. -/
structure Idx where
  gran : Nat
  vals : List (Option Int)
  deriving DecidableEq, Repr

/-- Coordinates of an element after the index has been applied. -/
def idxCoord (ix : Option Idx) (origin : List Int) (ext : List Nat) (r e : Nat) : Option (List Int) :=
  let x := cellCoord origin ext r e
  let r1 := r % ext.getD 1 1
  match ix with
  | none => some x
  | some i =>
    match i.gran with
    | 0 => (i.vals.getD e none).map (fun v => x.set 0 v)
    | 1 => (i.vals.getD r1 none).map (fun v => x.set 1 v)
    | _ => (i.vals.getD 0 none).map (fun v => x.set 1 (v * (ext.getD 1 1 : Nat) + (r1 : Nat)))

/-- Every cell of a box, row by row (R132, R202). -/
def State.boxCells (s : State) (n : Nat) (j : Job) (t : Tensor) (write : Bool) (ix : Option Idx) (origin : List Int)
    (ext : List Nat) : List (List Cell) :=
  (List.range (boxRows ext)).map (fun r =>
    (List.range (ext.headD 1)).map (fun e =>
      match idxCoord ix origin ext r e with
      | none => .drop
      | some x => s.cell n j t write x))

def Cell.bit? : Cell → Option Nat
  | .at b => some b | _ => none

/-- The byte of a single source byte in a region. -/
def State.byteCell (s : State) (n : Nat) (j : Job) (region a : Nat) : Cell :=
  match s.locate n j region a 1 false with
  | some k => .at (8 * k)
  | none => .bad
/-- The key of the byte a cell stands in. -/
def Cell.key? (c : Cell) : Option Nat := c.bit?.map (· / 8)

/-- Elements outside the tensor. -/
def countOut (cells : List (List Cell)) : Nat := (cells.map (fun r => (r.filter (· = .out)).length)).foldl (· + ·) 0

/-! ### Requests (R132, R195, R196) -/

/-- Lines of consecutive bits, a repeated line once in a row unless `each`. -/
def lineSeq (each : Bool) : List Nat → List Nat
  | [] => []
  | b :: bs =>
    let l := b / 8 / 64 * 64
    if isSpadKey (b / 8) then lineSeq each bs
    else match lineSeq each bs with
      | [] => [l]
      | m :: ms => if m = l && !each then m :: ms else l :: m :: ms

/-- Groups consecutive requests of one block into runs, newest last. -/
def groupRuns : List Nat → List (List Nat)
  | [] => []
  | l :: ls =>
    match groupRuns ls with
    | (m :: ms) :: rs => if m / 1024 = l / 1024 then (l :: m :: ms) :: rs else [l] :: (m :: ms) :: rs
    | rs => [l] :: rs

/-- A run's requests: the lines needed, then the block's other lines in ascending order. -/
def fillRun (ls : List Nat) : List Nat :=
  let b := ls.headD 0 / 1024 * 1024
  ls ++ ((List.range 16).map (fun i => b + 64 * i)).filter (fun l => !ls.contains l)

/-- The requests of a transfer with their runs. -/
def requests (seq : List Nat) : List (Nat × Nat) :=
  ((groupRuns seq).zipIdx).flatMap (fun p => (fillRun p.1).map (fun l => (p.2, l)))

/-! ### A transfer's delivery (R202) -/

/-- Bytes of a row of `k` elements, padded to 64. -/
def rowBytes (fmt k : Nat) : Nat := roundUp 64 (fmtBytes fmt k)

/-- The value of an element from a reader of bytes. -/
def elemAt (rd : Nat → Byte) (w b : Nat) : Nat :=
  if w = 4 then (rd (b / 8)).toNat / 2 ^ (b % 8) % 16
  else leNat ((List.range (w / 8)).map (fun i => rd (b / 8 + i)))

/-- Packs elements of `w` bits, lowest first (R149). -/
def packElems (w : Nat) : List Nat → List Byte
  | [] => []
  | [v] => if w = 4 then [BitVec.ofNat 8 (v % 16)] else leBytes (w / 8) v
  | v :: u :: us =>
    if w = 4 then BitVec.ofNat 8 (v % 16 + 16 * (u % 16)) :: packElems w us
    else leBytes (w / 8) v ++ packElems w (u :: us)

/-- Bytes of the plane as padded. -/
def Transfer.planeBytes (x : Transfer) : Nat := roundUp 64 x.plane.length

/-- BYTES of R202. -/
def Transfer.bytes (x : Transfer) : Nat :=
  if x.isParam then 512
  else 64 + x.rows.length * rowBytes x.fmt (x.extent.headD 1) + x.planeBytes +
    (match x.side with | some l => l.length | none => 0)

/-- The slot's content. -/
def Transfer.content (x : Transfer) (rd : Nat → Byte) : List Byte :=
  if x.isParam then
    x.param.take 64 ++ (List.zipWith (fun (o : Option Nat) (b : Byte) => match o with | some k => rd k | none => b)
      x.plane (x.param.drop 64))
  else
    let w := fmtBits x.fmt
    let k := x.extent.headD 1
    let body := x.rows.flatMap (fun r =>
      fitBytes (rowBytes x.fmt k) (packElems w (r.map (fun o => match o with | some b => elemAt rd w b | none => 0))))
    let get (o : Option Nat) : Byte := match o with | some a => rd a | none => 0
    let pl := fitBytes x.planeBytes (x.plane.map get)
    let off := 64 + body.length
    let hdr := leBytes 1 x.fmt ++ leBytes 1 x.beMode ++ leBytes 1 x.beUni ++
      leBytes 1 (b2n x.side.isSome + 2 * b2n (!x.poison.isEmpty)) ++ leBytes 2 x.rows.length ++ leBytes 2 k ++
      leBytes 4 (if x.plane.isEmpty then 0 else off) ++ leBytes 4 (if x.side.isSome then off + pl.length else 0) ++
      leBytes 4 x.bytes
    fitBytes 64 hdr ++ body ++ pl ++ (match x.side with | some l => l.map get | none => [])

/-- Slot lines that hold a byte of a poisoned source line. -/
def Transfer.poisonedAt (x : Transfer) : List (Nat × PInfo) :=
  if x.poison.isEmpty then []
  else
    let find (b : Nat) : Option PInfo := (x.poison.find? (fun p => p.1 = b / 64 * 64)).map (·.2)
    let w := fmtBits x.fmt
    let rb := rowBytes x.fmt (x.extent.headD 1)
    if x.isParam then
      (x.plane.zipIdx).filterMap (fun p => (p.1.bind find).map (fun i => ((64 + p.2) / 64 * 64, i)))
    else
      let body := (x.rows.zipIdx).flatMap (fun r => (r.1.zipIdx).filterMap (fun p =>
        (p.1.bind (fun b => find (b / 8))).map (fun i => ((64 + r.2 * rb + p.2 * w / 8) / 64 * 64, i))))
      let off := 64 + x.rows.length * rb
      let tail := (x.plane ++ List.replicate (x.planeBytes - x.plane.length) none ++ (x.side.getD []))
      body ++ (tail.zipIdx).filterMap (fun p => (p.1.bind find).map (fun i => ((off + p.2) / 64 * 64, i)))

/-- Marks the token of a slot complete (R123). -/
def completeToken (l : List Token) (sl : Nat) (rw : Option Nat) : List Token :=
  l.map (fun t => if t.slot = sl ∧ !t.complete then { t with complete := true, rwBlk := rw } else t)

/-- A source byte as it came: what the transfer has taken, else the core's own scratchpad. -/
def Transfer.readByte (x : Transfer) (c : Core) (k : Nat) : Byte :=
  match mapGet? x.got k with
  | some b => b
  | none => if isSpadKey k then mapGet c.spad (k - 2 ^ 41) 0 else 0

/-- Keys of the scratchpad bytes that a transfer reads, and their lines by address. -/
def Transfer.spadKeys (x : Transfer) : List Nat :=
  let w := max 1 (fmtBits x.fmt / 8)
  let elems : List Nat := x.rows.flatMap (fun r => (r.filterMap id).flatMap (fun b => (List.range w).map (b / 8 + ·)))
  (elems ++ x.plane.filterMap id ++ (x.side.getD []).filterMap id).filter isSpadKey
def Transfer.spadLines (x : Transfer) : List Nat := (x.spadKeys.map (fun k => (k - 2 ^ 41) / 64 * 64)).eraseDups

/-- The scratchpad bytes of a transfer as they stand on the core that reads them, with the poison of their lines. -/
def Transfer.takeSpad (x : Transfer) (c : Core) : Transfer :=
  { x with
    got := x.spadKeys.foldl (fun m k => mapPut m k (mapGet c.spad (k - 2 ^ 41) 0)) x.got
    poison := x.poison ++ x.spadLines.filterMap (fun l => (mapGet? c.spadPoison l).map (fun p => (2 ^ 41 + l, p))) }

/-- Goes on with a transfer as it reads the scratchpad, whose line checks must hold (R468). -/
def State.readsSpad (s : State) (n : Nat) (x : Transfer) (k : Transfer → State → State) : State :=
  if x.spadLines.any (s.core n).spadBad.contains then s.lineCheckFault n else k (x.takeSpad (s.core n)) s

/-- Every response has landed: the slot is written and the token completes. -/
def State.deliver (s : State) (n : Nat) (x : Transfer) : State :=
  match s.coreJob n with
  | none => s
  | some j =>
    let c := s.core n
    let a := s.slotAt j.slot.val x.q x.slot
    let c := c.spadWrite a (x.content (fun k => x.readByte c k))
    let c := x.poisonedAt.foldl (fun c p => c.spadMark (a + p.1) p.2) c
    let c := c.setTq x.q (completeToken (c.tq x.q) x.slot x.rwBlk)
    s.setCore n c

/-- The transfer of a queue and slot. -/
def sameXfer (x y : Transfer) : Bool := x.q == y.q && x.slot == y.slot

/-- Reserves the token and slot and starts the transfer; one that reads nothing completes at once. -/
def State.startXfer (s : State) (n : Nat) (j : Job) (x : Transfer) : State :=
  let (_, sz, count) := s.ring j.slot.val x.q
  if sz < x.bytes then s.overrun n
  else
    let go (x : Transfer) (s : State) : State :=
      let c := s.core n
      let x := { x with slot := c.nextOf x.q }
      let c := (c.takeSlot x.q count).setTq x.q (c.tq x.q ++ [⟨x.slot, false, x.isParam, x.rwBlk⟩])
      if x.lines.isEmpty && !x.waiting then (s.setCore n c).deliver n x
      else s.setCore n { c with xfers := c.xfers ++ [x] }
    if x.waiting then go x s else s.readsSpad n x go

/-! ### LD, RCV, GATHER -/

/-- Coordinate `d` of element `e` of row `r` of a box, none where an index dropped it. -/
def boxCoord (ix : Option Idx) (origin : List Int) (ext : List Nat) (d r e : Nat) : Option Int :=
  (idxCoord ix origin ext r e).map (·.getD d 0)

/-- The channels of the box's block inside the tensor, when the box starts the block and its rows are the block's channels
in order (R590), which those that an index names need not be. -/
def blockChannels (t : Tensor) (ix : Option Idx) (origin : List Int) (ext : List Nat) : Option Nat :=
  let nch := t.dims.getD 1 1
  match boxCoord ix origin ext 1 0 0 with
  | none => none
  | some c0 =>
    let m := min 32 (nch - c0.toNat)
    if 0 ≤ c0 ∧ c0 % 32 = 0 ∧ c0.toNat < nch ∧
        (ix.isNone || (List.range (min m (boxRows ext))).all (fun r => boxCoord ix origin ext 1 r 0 == some (c0 + r))) then some m
    else none

/-- Sources of the side data of a W box (R164, R202, R590): RW[k] of the block of its first channel, then ΣW of each
row's channel. In memory each channel block has a record of RW[k] for every k, 8 bytes each, and 32 sums of 4 bytes. -/
def State.sideSrc (s : State) (n : Nat) (j : Job) (t : Tensor) (ix : Option Idx) (origin : List Int) (ext : List Nat) :
    List Cell :=
  let kf := t.dims.getD 0 1
  let nch := t.dims.getD 1 1
  let recB := 8 * kf + 128
  let at_ (a : Nat) : Cell := s.byteCell n j t.region a
  let g := (max 0 ((boxCoord ix origin ext 1 0 0).getD 0)).toNat / 32
  let rw := (List.range (ext.headD 1)).flatMap (fun e =>
    (List.range 8).map (fun b =>
      match boxCoord ix origin ext 0 0 e with
      | none => .out
      | some k => if 0 ≤ k ∧ k.toNat < kf ∧ 32 * g < nch then at_ (t.side + g * recB + 8 * k.toNat + b) else .out))
  let sw := (List.range (boxRows ext)).flatMap (fun r =>
    (List.range 4).map (fun b =>
      match boxCoord ix origin ext 1 r 0 with
      | none => .out
      | some ch =>
        if 0 ≤ ch ∧ ch.toNat < nch then at_ (t.side + ch.toNat / 32 * recB + 8 * kf + 4 * (ch.toNat % 32) + b) else .out))
  rw ++ sw

/-- Sources of the block-exponent plane of a box (R152, R202): in memory one byte for each row of the tensor and each of
its blocks of 32 along dimension 0. Where an index chooses single elements, a block takes the exponent of its first
(DESIGN CHOICE, log 38). -/
def State.planeSrc (s : State) (n : Nat) (j : Job) (t : Tensor) (addr : Nat) (ix : Option Idx) (origin : List Int)
    (ext : List Nat) : List Cell :=
  let nb := (t.dims.getD 0 1 + 31) / 32
  (List.range (boxRows ext)).flatMap (fun r =>
    (List.range ((ext.headD 1 + 31) / 32)).map (fun b =>
      match idxCoord ix origin ext r (32 * b) with
      | none => .out
      | some x =>
        if insideT t x then
          let row := (List.zip (x.drop 1) (t.dims.drop 1)).foldr (fun p acc => p.1.toNat + p.2 * acc) 0
          s.byteCell n j t.region (addr + row * nb + (x.headD 0).toNat / 32)
        else .out))

/-- What follows the rows of a box: the plane, and the side data of a weight tensor. -/
def State.boxPlane (s : State) (n : Nat) (j : Job) (t : Tensor) (sc : List Byte) (ix : Option Idx) (origin : List Int)
    (ext : List Nat) : List Cell :=
  if fld sc 0 4 % 8 = 2 ∧ bits (fld sc 4 4) 1 0 = 1 then s.planeSrc n j t (fld sc 32 5) ix origin ext else []
def State.boxSide (s : State) (n : Nat) (j : Job) (t : Tensor) (ix : Option Idx) (origin : List Int) (ext : List Nat) :
    Option (List Cell) :=
  if t.weight then some (s.sideSrc n j t ix origin ext) else none

/-- A byte that the box needs has no translation (R252). -/
def State.boxBad (s : State) (n : Nat) (j : Job) (t : Tensor) (sc : List Byte) (cells : List (List Cell)) (ix : Option Idx)
    (origin : List Int) (ext : List Nat) : Bool :=
  cells.any (·.contains .bad) || (s.boxPlane n j t sc ix origin ext).contains .bad ||
    ((s.boxSide n j t ix origin ext).getD []).contains .bad

/-- The transfer of a box. -/
def State.tileXfer (s : State) (n : Nat) (j : Job) (q : Nat) (t : Tensor) (sc : List Byte) (cells : List (List Cell))
    (ix : Option Idx) (origin : List Int) (ext : List Nat) : Transfer :=
  let isScale := fld sc 0 4 % 8 = 2
  let ctl := fld sc 4 4
  let plane := (s.boxPlane n j t sc ix origin ext).map Cell.key?
  let side := (s.boxSide n j t ix origin ext).map (·.map Cell.key?)
  let rows := cells.map (fun r => r.map Cell.bit?)
  let each := ix.any (·.gran == 0)
  let extra := (plane ++ side.getD []).filterMap (fun o => o.map (8 * ·))
  let seq := rows.flatMap (fun r => lineSeq each (r.filterMap id)) ++ lineSeq false extra
  { q := q, slot := 0, isParam := false, fmt := t.fmt, beMode := b2n (isScale && bits ctl 1 0 == 1),
    beUni := if isScale then bits ctl 15 8 else 127, extent := ext, rows := rows, plane := plane, side := side,
    rwBlk := if t.weight then blockChannels t ix origin ext else none, lines := requests seq, bad := [], clean := [],
    poison := [], got := [], param := [], group := none, waiting := false, source := false }

/-- The FE goes on from a load unless it stopped the core. -/
def State.loadDone (s : State) (n : Nat) : State := if (s.core n).mode = .stopped then s else s.adv n .fe

/-- Starts a load of a box: waits, then XLATE, counts and the transfer. -/
def State.loadBox (b : State) (n : Nat) (j : Job) (q td m : Nat) (ix : Tensor → List Int → List Nat → State →
    (Option Idx → State → State) → State) (mark : Transfer → State → Transfer × State) : State :=
  if b.loadWaits n q then b
  else
    b.useMap n j m (fun rs zero s =>
      s.useDesc n j b td (fun d s =>
        let t := tensorOf (s.lcnt n) d
        s.useDesc n j b t.scale (fun sc s =>
          let origin := s.feOrigin n j rs
          let ext := rs.map (·.ext)
          ix t origin ext s (fun i s =>
            let cells := s.boxCells n j t false i origin ext
            if s.boxBad n j t sc cells i origin ext then s.xlateFault n
            else
              let s := s.modCore n (·.addRange ((if zero then 0 else countOut cells) +
                (match i with | some i => (i.vals.filter (·.isNone)).length | none => 0)))
              let (x, s) := mark (s.tileXfer n j q t sc cells i origin ext) s
              (s.startXfer n j x).loadDone n))))

/-- No index. -/
def noIdx (_ : Tensor) (_ : List Int) (_ : List Nat) (s : State) (k : Option Idx → State → State) : State := k none s

/-- A group table entry (R254): SOURCE and MEMBERS as local indices. -/
def State.mcEntry (s : State) (slot g : Nat) : Nat × List Nat :=
  (leNat (s.secBytes slot 10 (16 * g) 1), bitList 16 (leNat (s.secBytes slot 10 (16 * g + 2) 2)))

/-- Local index of the logical core of a core. -/
def State.localIdx (s : State) (n : Nat) (j : Job) : Nat := (s.core n).lcore % s.shCores j.slot.val

/-- The core of a local index in the same logical cluster. -/
def State.peer (s : State) (n : Nat) (j : Job) (l : Nat) : Option Nat :=
  j.cores[(s.core n).lcore / s.shCores j.slot.val * s.shCores j.slot.val + l]?

/-- Counts an issue of a core in its group and gives its number (R255). -/
def State.mcCount (s : State) (n : Nat) (j : Job) (g : Nat) : State × Nat :=
  let l := s.localIdx n j
  let cl := clusterOf n
  let k := (((s.cluster cl).groups.find? (fun x => x.job == j.id && x.gid == g)).map (fun x => mapGet x.counts l 0)).getD 0
  (s.modCluster cl (fun c => { c with groups := c.groups.map (fun x =>
    if x.job = j.id ∧ x.gid = g then { x with counts := mapSet x.counts l 0 (k + 1) } else x) }), k)

/-- Makes a transfer the source's or a member's of its group; it waits for the others. -/
def markGroup (n : Nat) (j : Job) (g : Nat) (src : Bool) (x : Transfer) (s : State) : Transfer × State :=
  let (s, k) := s.mcCount n j g
  ({ x with group := some (g, k), waiting := true, source := src }, s)

/-- LD (R123, R195, R254, R595): an ordinary load, a multicast source, or a member's receive. -/
def ld (n : Nat) (s : State) : State :=
  s.issue n .fe (isOp 0x10) (fun w s =>
    match s.coreJob n with
    | none => s
    | some j =>
      let g := bits w 49 46
      let (src, mem) := s.mcEntry j.slot.val g
      let l := s.localIdx n j
      let mark : Transfer → State → Transfer × State :=
        if bit w 50 then
          if l = src then markGroup n j g true else if mem.contains l then markGroup n j g false else fun x s => (x, s)
        else fun x s => (x, s)
      s.loadBox n j (bits w 52 51) (bits w 45 34) (bits w 33 26) noIdx mark)

def execLd (core : Fin 128) (s : State) : Host.Outcome State Fault Refusal := .next (ld core.val s)

/-- RCV (R255, R595): on a member the paired receive; elsewhere SCHEDULE_OVERRUN. -/
def rcv (n : Nat) (s : State) : State :=
  s.issue n .fe (isOp 0x11) (fun w s =>
    match s.coreJob n with
    | none => s
    | some j =>
      let g := bits w 49 46
      if (s.mcEntry j.slot.val g).2.contains (s.localIdx n j) then
        s.loadBox n j (bits w 52 51) (bits w 45 34) (bits w 33 26) noIdx (markGroup n j g false)
      else s.overrun n)

def execRcv (core : Fin 128) (s : State) : Host.Outcome State Fault Refusal := .next (rcv core.val s)

/-- The transfer of a group's `k`th issue on a core. -/
def Core.groupXfer (c : Core) (g k : Nat) : Option Transfer := c.xfers.find? (fun x => x.group == some (g, k))

def Core.setXfer (c : Core) (x : Transfer) : Core :=
  { c with xfers := c.xfers.map (fun y => if sameXfer x y then x else y) }
def Core.dropXfer (c : Core) (x : Transfer) : Core := { c with xfers := c.xfers.filter (fun y => !sameXfer x y) }

/-- A member takes its source's transfer as its own (R256). -/
def State.joinSource (s : State) (g k m : Nat) (x : Transfer) : State :=
  match (s.core m).groupXfer g k with
  | none => s
  | some y =>
    if y.extent = x.extent ∧ y.bytes = x.bytes then
      let y := { x with q := y.q, slot := y.slot, group := y.group, waiting := false, source := false }
      let s := s.modCore m (·.setXfer y)
      if x.lines.isEmpty then ((s.modCore m (·.dropXfer y)).deliver m y).countReg (pgCl (clusterOf m)) 0x110 0 else s
    else s.overrun m

/-- Every member has its paired receive (R255). -/
def State.membersReady (s : State) (g k : Nat) (peers : List (Option Nat)) : Bool :=
  peers.all (fun p => p.any (fun m => ((s.core m).groupXfer g k).isSome))

/-- MCAST_SOURCE_ISSUE (R255, R256): once every member has its paired receive, the source's requests start and each
member takes them as its own; a member whose box differs in size raises SCHEDULE_OVERRUN. How long the FE has waited is
free, and counted in MCAST_WAIT. -/
def mcastSourceIssue (n : Nat) (s : State) : State :=
  match (s.core n).xfers.find? (fun x => x.source && x.waiting), s.coreJob n with
  | some x, some j =>
    match x.group with
    | none => s
    | some (g, k) =>
      let peers := (s.mcEntry j.slot.val g).2.map (s.peer n j)
      if (s.core n).mode = .running ∧ !s.gatedAt n ∧ s.membersReady g k peers then
        let (s, waited) := s.drawNat 32
        (s.countReg (pgCl (clusterOf n)) 0x114 0 waited).readsSpad n x (fun x s =>
          let go := { x with waiting := false }
          let s := s.modCore n (·.setXfer go)
          let s := if x.lines.isEmpty then (s.modCore n (·.dropXfer go)).deliver n go else s
          peers.foldl (fun s p => match p with
            | none => s
            | some m => s.joinSource g k m x) s)
      else s
  | _, _ => s

def execMcastSourceIssue (core : Fin 128) (s : State) : Host.Outcome State Fault Refusal :=
  .next (mcastSourceIssue core.val s)

/-- Positions of the index tensor that a box reads (R205). -/
def idxPos (gran : Nat) (origin : List Int) (ext : List Nat) : List Int :=
  match gran with
  | 0 => (List.range (ext.headD 1)).map (fun e => origin.getD 0 0 + (e : Nat))
  | 1 => (List.range (ext.getD 1 1)).map (fun r => origin.getD 1 0 + (r : Nat))
  | _ => [origin.getD 1 0]

/-- Index values of cells of the index tensor, none where outside it or out of range. -/
def State.idxVals (s : State) (n w lim : Nat) (cells : List Cell) : List (Option Int) :=
  cells.map (fun c => match c with
    | .at b =>
      let v := sext w (elemAt (s.keyByte n) w b)
      if 0 ≤ v ∧ v < (lim : Int) then some v else none
    | _ => none)

/-- Reads the index values of a box (R205): short reads of the index tensor, or of the scratchpad, whose poison stops the
core. -/
def State.useIdx (n : Nat) (j : Job) (b : State) (gran itd : Nat) (t : Tensor) (origin : List Int) (ext : List Nat)
    (s : State) (k : Option Idx → State → State) : State :=
  s.useDesc n j b itd (fun d s =>
    let it := tensorOf (s.lcnt n) d
    let cells := (idxPos gran origin ext).map (fun p => s.cell n j it false [p, 0, 0, 0, 0])
    if cells.contains .bad then s.xlateFault n
    else
      let ls := ((cells.filterMap Cell.bit?).map (fun b => b / 8 / 64 * 64)).eraseDups
      match (s.core n).linesChk ((ls.filter isSpadKey).map (· - 2 ^ 41)) with
      | .bad => s.lineCheckFault n
      | .poison i => s.poisonFault n i
      | .ok =>
        match s.shortReads n (ls.filter (fun l => !isSpadKey l)) with
        | none => b
        | some (s, some i) => s.poisonFault n i
        | some (s, none) =>
          k (some ⟨gran, s.idxVals n (fmtBits it.fmt) (t.dims.getD (if gran = 0 then 0 else 1) 1) cells⟩) s)

/-- GATHER (R205). -/
def gather (n : Nat) (s : State) : State :=
  s.issue n .fe (isOp 0x12) (fun w s =>
    match s.coreJob n with
    | none => s
    | some j =>
      s.loadBox n j (bits w 52 51) (bits w 45 34) (bits w 33 26)
        (fun t o e s' k => State.useIdx n j s (bits w 50 49) (bits w 25 14) t o e s' k) (fun x s => (x, s)))

def execGather (core : Fin 128) (s : State) : Host.Outcome State Fault Refusal := .next (gather core.val s)

/-! ### Tile responses (R123, R129, R196, R256) -/

/-- One line of a transfer arrives on a core. Returns the transfer as it then stands. -/
def Transfer.land (x : Transfer) (run l : Nat) (r : Resp) (p : PInfo) (data : List Byte) : Transfer :=
  { x with
    lines := x.lines.erase (run, l)
    got := putBytes x.got l data
    bad := if r = .corrupt then insN x.bad run else x.bad
    clean := if r = .poisoned ∨ r = .error then insN x.clean run else x.clean
    poison := if r = .poisoned ∨ r = .error then x.poison ++ [(l, p)] else x.poison }

/-- The core takes a landed line: the run's tag check, then the token (R469). -/
def State.landLine (s : State) (n : Nat) (x : Transfer) (run l : Nat) (r : Resp) (p : PInfo) (data : List Byte) : State :=
  let y := x.land run l r p data
  let runDone := !y.lines.any (fun e => e.1 == run)
  if runDone && !x.isParam && !y.clean.contains run && (y.bad.contains run || !s.keyTagOk l) then
    s.coreFault n 1 1 6 0 (if isDramKey l then l / 1024 * 1024 else 0) 63 63
  else
    let s := s.modCore n (·.setXfer y)
    if y.lines.isEmpty then
      let s := (s.modCore n (·.dropXfer y)).deliver n y
      if y.group.isSome && !y.source then s.countReg (pgCl (clusterOf n)) 0x110 0 else s
    else s

/-- The requests that the core has outstanding: the first 512 of its transfers, in issue order (R130). -/
def Core.inFlight (c : Core) : List (Transfer × Nat × Nat) :=
  (c.ownXfers.flatMap (fun x => x.lines.map (fun l => (x, l)))).take 512

/-- TILE_RESPONSE: line `i` of the requests outstanding for queue `q`, in issue order, once its meters have passed it
(R377). -/
def tileResponse (n q i : Nat) (r : Resp) (s : State) : State :=
  let c := s.core n
  match (c.inFlight.filter (fun e => e.1.q == q))[i]?, s.coreJob n, c.mode with
  | some (x, run, l), some j, .running =>
    match s.passKeys n [l] with
    | none => s
    | some s =>
      let (s, r, p) := s.lineResp n l r
      let data := (List.range 64).map (fun k => s.keyByte n (l + k))
      let s := s.landLine n x run l r p data
      match x.group with
      | none => s
      | some (g, k) =>
        (s.mcEntry j.slot.val g).2.foldl (fun s m => match s.peer n j m with
          | none => s
          | some m =>
            match (s.core m).groupXfer g k with
            | some y => if y.waiting then s else s.landLine m y run l r p data
            | none => s) s
  | _, _, _ => s

def execTileResponse (core : Fin 128) (q : Fin 3) (line : Nat) (resp : Resp) (s : State) :
    Host.Outcome State Fault Refusal := .next (tileResponse core.val q.val line resp s)

/-! ### Stores (R204, R206, R587) -/

/-- Bytes to be written, by key: the nibbles covered (1 low, 2 high) and their values. -/
abbrev WMap := SMap (Nat × Nat)

/-- Adds an element of `w` bits at a bit. -/
def WMap.put (m : WMap) (w b v : Nat) : WMap :=
  if w = 4 then
    let (mask, old) := mapGet m (b / 8) (0, 0)
    if b % 8 = 0 then mapPut m (b / 8) (mask ||| 1, old / 16 * 16 + v % 16)
    else mapPut m (b / 8) (mask ||| 2, old % 16 + v % 16 * 16)
  else (List.range (w / 8)).foldl (fun m i => mapPut m (b / 8 + i) (3, v / 2 ^ (8 * i) % 256)) m

/-- Maximal spans of consecutive keys within one line, with their nibbles. -/
def spans : List (Nat × Nat × Nat) → List (Nat × List (Nat × Nat))
  | [] => []
  | (k, b) :: r =>
    match spans r with
    | (k', bs) :: t => if k' = k + 1 ∧ k' % 64 ≠ 0 then (k, b :: bs) :: t else (k, [b]) :: (k', bs) :: t
    | [] => [(k, [b])]

/-- Stores one span: a request to DRAM, or bytes merged nibble by nibble into cluster memory or scratchpad (R587). -/
def State.putSpan (s : State) (o : Owner) (merge : Bool) (k : Nat) (es : List (Nat × Nat)) : State :=
  if isDramKey k then
    s.storeLine { o with nib := if es.all (·.1 = 3) then [] else es.map (·.1) } k (es.map (fun e => BitVec.ofNat 8 e.2)) merge
  else
    let bs := es.zipIdx.map (fun e => mergeNib (s.keyByte o.core (k + e.2)) e.1)
    if isSpadKey k then s.modCore o.core (·.spadWrite (k - 2 ^ 41) bs) else s.keyWrite o k bs merge

/-- Stores the bytes of a map. -/
def State.putWMap (s : State) (o : Owner) (merge : Bool) (m : WMap) : State :=
  (spans m).foldl (fun s p => s.putSpan o merge p.1 p.2) s

/-- A store of the FE, by the landing path or by the short path. -/
def feOwner (n : Nat) (short : Bool) : Owner := ⟨n, .fe, short, []⟩

/-- Blocks in the order first written. -/
def blocksOf (order : List Nat) : List Nat := (order.map (fun b => b / 8 / 1024)).eraseDups

/-- The block is wholly covered. -/
def covered (m : WMap) (blk : Nat) : Bool :=
  (m.filter (fun p => p.1 / 1024 = blk && p.2.1 = 3)).length = 1024

/-- Sends a store: whole blocks only with TAG_MODE 0 (R587), merged with TAG_MODE 1. -/
def State.sendStore (s : State) (n : Nat) (t : Tensor) (order : List Nat) (m : WMap) : State :=
  if t.region = 2 ∨ t.merge then s.putWMap (feOwner n false) true m
  else
    let bl := blocksOf order
    let good := bl.takeWhile (covered m)
    let s := s.putWMap (feOwner n false) false (m.filter (fun p => good.contains (p.1 / 1024)))
    if good.length = bl.length then s else s.overrun n

/-- Tickets of the entries that drive a map, one for each entry however many dimensions it drives (R265). -/
def State.ticketsOf (s : State) (n : Nat) (rs : List MapRec) : List TicketStore :=
  (((rs.filter (fun r => r.drv = 6)).map (·.sb)).eraseDups).filterMap (fun i =>
    match (s.core n).sb[i]? with
    | some e =>
      if e.ticket ∧ 0 ≤ fldS e.bytes 0 4 then some ⟨fld e.bytes 8 1, fld e.bytes 0 4, w32 (fld e.bytes 4 4)⟩ else none
    | none => none)

/-- Elements of a box with their values in a slot, in order. -/
def boxElems (fmt : Nat) (ext : List Nat) (cells : List (List Cell)) (data : List Byte) : List (Nat × Nat) :=
  let rb := rowBytes fmt (ext.headD 1)
  let w := fmtBits fmt
  let rd (k : Nat) : Byte := data.getD k 0
  (cells.zipIdx).flatMap (fun r => (r.1.zipIdx).filterMap (fun e =>
    (e.1.bit?).map (fun b => (b, elemAt rd w (8 * r.2 * rb + e.2 * w)))))

/-- A store of the slot at the head of TQ3. Its slot is free once its last line has been accepted (R128), which is at once
(log 51). -/
def State.storeBox (b : State) (n : Nat) (j : Job) (td m : Nat) (ix : Tensor → List Int → List Nat → State →
    (Option Idx → State → State) → State) : State :=
  match (b.core n).tq3 with
  | [] => b
  | sl :: rest =>
    b.useMap n j m (fun rs _ s =>
      s.useDesc n j b td (fun d s =>
        let t := tensorOf (s.lcnt n) d
        let origin := s.feOrigin n j rs
        let ext := rs.map (·.ext)
        ix t origin ext s (fun i s =>
          let cells := s.boxCells n j t true i origin ext
          if cells.any (·.contains .bad) then s.xlateFault n
          else
            s.readSpad n (s.slotAt j.slot.val 3 sl) (rowBytes t.fmt (ext.headD 1) * boxRows ext) (fun data =>
              let s := s.modCore n (·.addRange (match i with
                | some i => (i.vals.filter (·.isNone)).length | none => 0))
              let flat := boxElems t.fmt ext cells data
              let wm := flat.foldl (fun m p => WMap.put m (fmtBits t.fmt) p.1 p.2) ([] : WMap)
              let tick := s.ticketsOf n rs
              let s := s.modCore n (fun c => { (c.freeSlot 3 sl) with tq3 := rest, tickets := c.tickets ++ tick })
              ((s.sendStore n t (flat.map (·.1)) wm).perfCycles n).loadDone n))))

/-- ST (R204). -/
def st (n : Nat) (s : State) : State :=
  s.issue n .fe (isOp 0x13) (fun w s =>
    match s.coreJob n with
    | none => s
    | some j => s.storeBox n j (bits w 45 34) (bits w 33 26) noIdx)

/-- SCATTER (R205, R206). -/
def scatter (n : Nat) (s : State) : State :=
  s.issue n .fe (isOp 0x14) (fun w s =>
    match s.coreJob n with
    | none => s
    | some j =>
      s.storeBox n j (bits w 45 34) (bits w 33 26)
        (fun t o e s' k => State.useIdx n j s (bits w 50 49) (bits w 25 14) t o e s' k))

/-! ### Work counters (R260 to R267) -/

/-- Position of the physical counter of a job's logical counter in a cluster. -/
def Cluster.counterAt (c : Cluster) (job : BitVec 16) (cnt : Nat) : Option Nat :=
  c.counters.findIdx? (fun w => w.job == job && w.cnt == cnt)

def Cluster.setCounter (c : Cluster) (i : Nat) (w : WorkCnt) : Cluster := { c with counters := c.counters.set i w }

/-- Even parity over bytes (R262). -/
def parityOf (bs : List Byte) : Nat := (bs.map (fun b => popCount 8 b.toNat)).foldl (· + ·) 0 % 2

/-- What a counter returns to a WCNT. -/
def wcntWords (w : WorkCnt) (idx : Int) : List Byte :=
  let h := leBytes 4 (wrapTo 32 idx) ++ leBytes 4 w.gen.toNat ++ leBytes 1 w.cnt
  fitBytes 64 (h ++ leBytes 1 (parityOf h) ++ leBytes 2 0 ++ leBytes 4 w.limit)

def Core.setSb (c : Core) (i : Nat) (e : SBEntry) : Core := { c with sb := c.sb.set i e }
def Core.sbAt (c : Core) (i : Nat) : SBEntry := c.sb.getD i SBEntry.reset

/-- A new short read names the entry: it becomes invalid (R135). -/
def Core.askSb (c : Core) (i : Nat) (p : SPend) (ticket : Bool) : Core :=
  c.setSb i { c.sbAt i with valid := false, poison := none, pend := p, ticket := ticket }

/-- WCNT (R262): the counter serves the request in one step; the answer lands later. -/
def wcnt (n : Nat) (s : State) : State :=
  s.issue n .fe (isOp 0x18) (fun w s =>
    match s.coreJob n with
    | none => s
    | some j =>
      let c := s.core n
      let sb := bits w 52 48
      if s.shortBusy n ∨ (c.sbAt sb).pend ≠ .none then s
      else
        let cl := s.cluster (clusterOf n)
        match cl.counterAt j.id (bits w 47 44) with
        | none => s.xlateFault n
        | some i =>
          let k := cl.counters.getD i WorkCnt.reset
          let (idx, k') : Int × WorkCnt :=
            if k.value < k.limit then ((k.value : Int), { k with value := k.value + 1 }) else (-1, k)
          let s := s.setCluster (clusterOf n) (cl.setCounter i k')
          let s := s.countReg (pgCl (clusterOf n)) 0x11C 0
          (s.modCore n (·.askSb sb (.served (wcntWords k idx)) true)).adv n .fe)

def execWcnt (core : Fin 128) (s : State) : Host.Outcome State Fault Refusal := .next (wcnt core.val s)

/-- WCNT_RESPONSE (R262, R266). -/
def wcntResponse (n sb : Nat) (parityOk : Bool) (s : State) : State :=
  let c := s.core n
  match (c.sbAt sb).pend with
  | .served bs =>
    if c.mode ≠ .running then s
    else if parityOk then s.setCore n (c.setSb sb { c.sbAt sb with valid := true, pend := .none, bytes := bs })
    else s.coreFault n 9 2 5 0 0 63 63
  | _ => s

def execWcntResponse (core : Fin 128) (sb : Fin 32) (parityOk : Bool) (s : State) :
    Host.Outcome State Fault Refusal := .next (wcntResponse core.val sb.val parityOk s)

/-- DUP_TILE, raised by a counter of a cluster through the core whose store it served. -/
def State.dupTile (s : State) (n : Nat) : State :=
  (s.countReg (pgCl (clusterOf n)) 0x118 0).coreFault n 5 2 5 (6 * 4096 + 63) 0 63 63

/-- TICKETED_STORE_ACCEPT (R265): the oldest ticketed store of the core. -/
def ticketedStoreAccept (n : Nat) (s : State) : State :=
  let c := s.core n
  match c.tickets, s.coreJob n with
  | t :: rest, some j =>
    if c.mode ≠ .running then s
    else
      let s := s.setCore n { c with tickets := rest }
      let cl := s.cluster (clusterOf n)
      match cl.counterAt j.id t.counter with
      | none => s
      | some i =>
        let k := cl.counters.getD i WorkCnt.reset
        if k.gen ≠ t.gen ∨ k.done.contains t.index then s.dupTile n
        else s.setCluster (clusterOf n) (cl.setCounter i { k with done := insN k.done t.index })
  | _, _ => s

def execTicketedStoreAccept (core : Fin 128) (s : State) : Host.Outcome State Fault Refusal :=
  .next (ticketedStoreAccept core.val s)

/-! ### Short transfers (R134 to R136, R207, R264) -/

/-- The counter window: offsets from 0x40_0000 in region 1. -/
def counterWindow : Nat := 0x400000

/-- Source or destination bits of the first `len` bytes of a box, as bytes. -/
def firstBytes (cells : List (List Cell)) (w len : Nat) : List Cell :=
  if w = 4 then
    ((cells.flatMap id).zipIdx.filter (fun p => p.2 % 2 = 0)).map (·.1) |>.take len
  else
    ((cells.flatMap id).flatMap (fun c => (List.range (w / 8)).map (fun i => match c with
      | .at b => Cell.at (b + 8 * i)
      | x => x))).take len

/-- A short transfer keeps to the 64-byte line of its first byte (R134): bytes of the box in another line read as 0 and are
not written (DESIGN CHOICE, log 36). -/
def oneLine (cells : List Cell) : List Cell :=
  match cells.findSome? Cell.key? with
  | none => cells
  | some k => cells.map (fun c => match c.key? with
    | some x => if x / 64 = k / 64 then c else .drop
    | none => c)

/-- Elements outside the tensor among those that the first `len` bytes of a box touch (R201). -/
def shortOutside (cells : List (List Cell)) (w len : Nat) : Nat :=
  (((cells.flatMap id).take ((8 * len + w - 1) / w)).filter (· = .out)).length

/-- Bytes of the counter window of a job's counter (R264), within one line. -/
def windowBytes (k : WorkCnt) (o len : Nat) : List Byte := fitBytes len (windowLine k o (min len (64 - o % 64)))
where
 windowLine (k : WorkCnt) (o len : Nat) : List Byte :=
  if o < 16 then
    ((leBytes 4 k.value ++ leBytes 4 k.limit ++ leBytes 4 k.gen.toNat ++ leBytes 4 k.done.length).drop o).take len
  else if 0x200 ≤ o then
    (List.range len).map (fun i => BitVec.ofNat 8 (ofBits ((List.range 8).filter (fun b => k.done.contains (8 * (o - 0x200 + i) + b)))))
  else List.replicate len 0

/-- Base offset of a short transfer in region 1 when it lies in the counter window. -/
def windowOff (t : Tensor) (origin : List Int) : Option Nat :=
  let b := cellBit t origin / 8
  if t.region = 1 ∧ counterWindow ≤ b then some (b - counterWindow) else none

/-- SRD. An entry whose earlier request is still out holds the FE until it has landed (DESIGN CHOICE, log 54). -/
def srd (n : Nat) (s : State) : State :=
  s.issue n .fe (isOp 0x15) (fun w b =>
    let s := b
    match s.coreJob n with
    | none => s
    | some j =>
      let sb := bits w 52 48
      let len := bits w 5 0 + 1
      let c := s.core n
      if s.shortBusy n ∨ (c.sbAt sb).pend ≠ .none then s
      else if bits w 33 26 = 255 then
        let a := s.descAddr j (bits w 45 34)
        (s.modCore n (·.askSb sb (.read ((List.range len).map (fun i => some (a + i)))) false)).adv n .fe
      else
        s.useMap n j (bits w 33 26) (fun rs zero s =>
          s.useDesc n j b (bits w 45 34) (fun d s =>
            let t := tensorOf (s.lcnt n) d
            let origin := s.feOrigin n j rs
            match windowOff t origin with
            | some o =>
              match (s.cluster (clusterOf n)).counterAt j.id (o / 0x400) with
              | none => s.xlateFault n
              | some i =>
                let k := (s.cluster (clusterOf n)).counters.getD i WorkCnt.reset
                (s.modCore n (·.askSb sb (.words (windowBytes k (o % 0x400) len)) false)).adv n .fe
            | none =>
              let box := s.boxCells n j t false none origin (rs.map (·.ext))
              let cells := oneLine (firstBytes box (fmtBits t.fmt) len)
              if cells.contains .bad then s.xlateFault n
              else
                let s := s.modCore n (·.addRange (if zero then 0 else shortOutside box (fmtBits t.fmt) len))
                let src := cells.map Cell.key?
                (s.modCore n (·.askSb sb (.read src) false)).adv n .fe)))

def execSrd (core : Fin 128) (s : State) : Host.Outcome State Fault Refusal := .next (srd core.val s)

/-- Lines of the scratchpad that a short read reads. -/
def shortSpad (src : List (Option Nat)) : List Nat :=
  (((src.filterMap id).filter isSpadKey).map (fun k => (k - 2 ^ 41) / 64 * 64)).eraseDups

/-- SHORT_RESPONSE (R135, R136, R594), once the meters have passed the line that the request reads (R377). -/
def shortResponse (n sb : Nat) (r : Resp) (s : State) : State :=
  let c := s.core n
  let e := c.sbAt sb
  if c.mode ≠ .running then s
  else
    match e.pend with
    | .words bs => s.setCore n (c.setSb sb { e with valid := true, pend := .none, bytes := bs ++ e.bytes.drop bs.length })
    | .read src =>
      let ls := (((src.filterMap id).map (· / 64 * 64)).eraseDups).filter (fun l => !isSpadKey l)
      match c.linesChk (shortSpad src), s.passKeys n ls with
      | .bad, _ => s.lineCheckFault n
      | _, none => s
      | chk, some s =>
        let (s, p) := ls.foldl (fun (s, p) l =>
          let (s, r, i) := s.lineResp n l r
          (s, if r = .poisoned ∨ r = .error then p.or (some i) else p)) (s, chk.info?)
        let bs := src.map (fun o => match o with | some k => s.keyByte n k | none => 0)
        s.setCore n (c.setSb sb { e with valid := true, poison := p, pend := .none, bytes := bs ++ e.bytes.drop bs.length })
    | _ => s

def execShortResponse (core : Fin 128) (sb : Fin 32) (resp : Resp) (s : State) : Host.Outcome State Fault Refusal :=
  .next (shortResponse core.val sb.val resp s)

/-- SWR, work-counter re-arms among them (R264). -/
def swr (n : Nat) (s : State) : State :=
  s.issue n .fe (isOp 0x16) (fun w b =>
    let s := b
    match s.coreJob n with
    | none => s
    | some j =>
      let len := bits w 5 0 + 1
      let e := (s.core n).sbAt (bits w 52 48)
      if !e.valid || s.shortBusy n then s
      else match e.poison with
      | some p => s.poisonFault n p
      | none =>
        let data := e.bytes.take len
        if bits w 33 26 = 255 then (s.keyWrite (feOwner n true) (s.descAddr j (bits w 45 34)) data true).adv n .fe
        else
          s.useMap n j (bits w 33 26) (fun rs _ s =>
            s.useDesc n j b (bits w 45 34) (fun d s =>
              let t := tensorOf (s.lcnt n) d
              let origin := s.feOrigin n j rs
              match windowOff t origin with
              | some o =>
                match (s.cluster (clusterOf n)).counterAt j.id (o / 0x400) with
                | none => s.xlateFault n
                | some i =>
                  if o % 0x400 = 4 ∧ len = 4 then
                    (s.modCluster (clusterOf n) (fun cl =>
                      let k := cl.counters.getD i WorkCnt.reset
                      cl.setCounter i { k with limit := min 4096 (fld data 0 4), value := 0, done := [], gen := k.gen + 1 })).adv n .fe
                  else (s.modCore n (·.addRange 1)).adv n .fe
              | none =>
                let cells := oneLine (firstBytes (s.boxCells n j t true none origin (rs.map (·.ext))) (fmtBits t.fmt) len)
                if cells.contains .bad then s.xlateFault n
                else
                  let wm := (List.zip cells data).foldl (fun m p => match p.1 with
                    | .at b => mapPut m (b / 8) (3, p.2.toNat)
                    | _ => m) ([] : WMap)
                  (s.putWMap (feOwner n true) true wm).adv n .fe)))

def execSwr (core : Fin 128) (s : State) : Host.Outcome State Fault Refusal := .next (swr core.val s)

/-! ### LDP (R210)

The block's layout is the model's: A SCALE2 at 0, W SCALE2 at 4, output SCALE2 at 8, A ZERO_POINT at 12, output
ZERO_POINT at 14, BE_UNIFORM of A, W and output at 16 to 18, output format in the low nibble of 19 with zero points
enabled in bit 4, output CONTROL at 20, STATS_ADDR at 24, clamp bounds at 32 and 36, channel offset at 40, bit 0 of 44
SCALE_RETRY in force, the output's PLANE_ADDR at 48, W ZERO_POINT at 56; for the 32 channels s2w at 64, zW at 192, ΣW at
256, bias at 384. -/

/-- The output format: that of the first tensor descriptor that names the output scale. -/
def State.outFmt (s : State) (slot scale : Nat) : Nat :=
  ((((List.range (s.nDesc slot)).map (s.descImg slot)).find? (fun d =>
    fld d 0 4 % 8 = 1 && fld d 16 2 % 4096 = scale)).map (fun d => bits (fld d 4 4) 5 2)).getD 2

/-- Sources of `w` bytes for each of 32 channels from `c0`, at `place` of a channel; channels outside the tensor have none. -/
def State.chanSrc (s : State) (n : Nat) (j : Job) (region w : Nat) (c0 : Int) (nch : Nat) (place : Nat → Nat) : List Cell :=
  (List.range 32).flatMap (fun i =>
    let ch := c0 + (i : Nat)
    (List.range w).map (fun b => if 0 ≤ ch ∧ ch.toNat < nch then s.byteCell n j region (place ch.toNat + b) else .out))

/-- No source for 32 values of `w` bytes. -/
def noSrc (w : Nat) : List Cell := List.replicate (32 * w) .out

/-- The descriptors of a parameter descriptor (R197): A, W and output scale, bias and weight tensor. -/
structure ParamDescs where
  pd : List Byte
  sa : List Byte
  sw : List Byte
  so : List Byte
  bd : List Byte
  wd : List Byte
  deriving DecidableEq, Repr

/-- Reads a parameter descriptor and those it names. -/
def State.useParam (s : State) (n : Nat) (j : Job) (b : State) (td : Nat) (k : ParamDescs → State → State) : State :=
  s.useDesc n j b td (fun pd s =>
    s.useDesc n j b (fld pd 4 2 % 4096) (fun sa s =>
      s.useDesc n j b (fld pd 6 2 % 4096) (fun sw s =>
        s.useDesc n j b (fld pd 8 2 % 4096) (fun so s =>
          s.useDesc n j b (fld pd 10 2 % 4096) (fun bd s =>
            s.useDesc n j b (fld pd 20 2 % 4096) (fun wd s => k ⟨pd, sa, sw, so, bd, wd⟩ s))))))

/-- Zero points apply: A's or W's (R171, R177). -/
def ParamDescs.zp (p : ParamDescs) : Bool := bit (fld p.sa 4 4) 3 || bit (fld p.sw 4 4) 3
/-- Output channels of the weight tensor; without one, every channel counts. -/
def ParamDescs.channels (p : ParamDescs) (lcnt : List Nat) (c0 : Int) : Nat :=
  if fld p.pd 20 2 % 4096 ≠ 0 then (tensorOf lcnt p.wd).dims.getD 1 1 else c0.toNat + 32

/-- Sources of the per-channel values of a parameter block: s2w, zW, ΣW and bias. -/
def State.paramSrc (s : State) (n : Nat) (j : Job) (p : ParamDescs) (c0 : Int) : List Cell :=
  let wt := tensorOf (s.lcnt n) p.wd
  let bt := tensorOf (s.lcnt n) p.bd
  let nch := p.channels (s.lcnt n) c0
  let cw := fld p.sw 4 4
  let arr := fld p.sw 24 5
  let kf := wt.dims.getD 0 1
  (if bit cw 2 then s.chanSrc n j 0 4 c0 nch (fun c => arr + 4 * c) else noSrc 4) ++
  (if bit cw 3 then s.chanSrc n j 0 2 c0 nch (fun c => arr + 4 * nch + 2 * c) else noSrc 2) ++
  (if p.zp && fld p.pd 20 2 % 4096 != 0 && wt.weight then
      s.chanSrc n j wt.region 4 c0 nch (fun c => wt.side + c / 32 * (8 * kf + 128) + 8 * kf + 4 * (c % 32))
    else noSrc 4) ++
  (if fld p.pd 10 2 % 4096 ≠ 0 then s.chanSrc n j bt.region 4 c0 (bt.dims.getD 0 1) (fun c => bt.base + 4 * c) else noSrc 4)

/-- The first 64 bytes of a parameter block. `s2o` is the output's SCALE2. -/
def State.paramHead (s : State) (j : Job) (p : ParamDescs) (c0 : Int) (s2o : Nat) : List Byte :=
  let ca := fld p.sa 4 4
  let cw := fld p.sw 4 4
  let co := fld p.so 4 4
  fitBytes 64 (leBytes 4 (fld p.sa 8 4) ++ leBytes 4 (fld p.sw 8 4) ++ leBytes 4 s2o ++
    leBytes 2 (if bit ca 3 then fld p.sa 16 2 else 0) ++ leBytes 2 (if bit co 3 then fld p.so 16 2 else 0) ++
    leBytes 1 (bits ca 15 8) ++ leBytes 1 (bits cw 15 8) ++ leBytes 1 (bits co 15 8) ++
    leBytes 1 (s.outFmt j.slot.val (fld p.pd 8 2 % 4096) + 16 * b2n p.zp) ++ leBytes 4 co ++ leBytes 8 (fld p.so 40 5) ++
    leBytes 4 (fld p.pd 12 4) ++ leBytes 4 (fld p.pd 16 4) ++ leBytes 4 (wrapTo 32 c0) ++
    leBytes 4 (b2n (j.retry && bit co 5 && bits co 1 0 == 1)) ++ leBytes 8 (fld p.so 32 5) ++ leBytes 2 (fld p.sw 16 2))

/-- The output's SCALE2. With per-channel scales the field is unused (R177), no rule says which scale the output stage then
applies, and it is free (log 37). -/
def State.outScale (s : State) (so : List Byte) : State × Nat := if bit (fld so 4 4) 2 then s.drawNat 32 else (s, fld so 8 4)

/-- LDP. -/
def ldp (n : Nat) (s : State) : State :=
  s.issue n .fe (isOp 0x17) (fun w b =>
    match b.coreJob n with
    | none => b
    | some j =>
      let q := bits w 52 51
      if b.loadWaits n q then b
      else
        b.useMap n j (bits w 33 26) (fun rs _ s =>
          s.useParam n j b (bits w 45 34) (fun p s =>
            let c0 := (s.feOrigin n j rs).getD 0 0
            let cells := s.paramSrc n j p c0
            if cells.contains .bad then s.xlateFault n
            else
              let (s, s2o) := s.outScale p.so
              let src := cells.map Cell.key?
              let s2w := if bit (fld p.sw 4 4) 2 then 0 else fld p.sw 8 4
              let x : Transfer :=
                { q := q, slot := 0, isParam := true, fmt := 10, beMode := 0, beUni := 0, extent := [512, 1, 1, 1, 1],
                  rows := [], plane := src, side := none, rwBlk := none,
                  lines := (lineSeq false (src.filterMap (fun o => o.map (8 * ·)))).map (fun l => (0, l)), bad := [],
                  clean := [], poison := [], got := [],
                  param := s.paramHead j p c0 s2o ++ (List.range 32).flatMap (fun _ => leBytes 4 s2w) ++ List.replicate 320 0,
                  group := none, waiting := false, source := false }
              (s.startXfer n j x).loadDone n)))

def execLdp (core : Fin 128) (s : State) : Host.Outcome State Fault Refusal := .next (ldp core.val s)

end Sys2Proof.Machine
end

