-- ==== Sys2Proof/Machine/Array.lean ====
section
/-! DEFINITION. The array and the output stage: MM and CV (R81 to R90, R98 to R100, R148 to R163, R236 to R240, R270 to
R274), the drain with its checksums (R91 to R97, R166 to R170, R590), and OS (R117 to R121, R171 to R184, R592, R593). An
instruction's products are formed as it issues and held in its accumulator set until ARRAY_DRAIN. -/

namespace Sys2Proof.Machine

/-! ### Tokens and tiles -/

/-- Accumulator tiles of a core (R108). -/
def State.accTiles (s : State) (n : Nat) : Nat := if (mapGet? s.fuse.bankOut n).isSome then 12 else 16

def Core.tile (c : Core) (t : Nat) : Tile := c.tiles.getD t Tile.reset
def Core.setTile (c : Core) (t : Nat) (x : Tile) : Core := { c with tiles := c.tiles.set t x }

/-- ACC_RANGE. -/
def State.accRange (s : State) (n : Nat) : State := s.coreFault n 6 2 4 0 0 63 63

/-- An earlier instruction that writes the tile is not yet readable (R88). -/
def Core.tileBusy (c : Core) (t : Nat) : Bool := c.sets.any (fun x => x.tile == t)

/-- An output-stage pass over the tile is outstanding (R131, R184): what would write the tile waits. -/
def Core.osTile (c : Core) (t : Nat) : Bool := c.osq.any (fun e => bits e.w 52 49 == t)

/-- Uses the head of a load queue (R125, R211): an empty queue or an incomplete head raises SCHEDULE_OVERRUN. -/
def State.useToken (s : State) (n q : Nat) (keep rel : Bool) (k : Token → State → State) : State :=
  match (s.core n).tq q with
  | [] => s.overrun n
  | t :: rest =>
    if t.complete then
      k t (if keep then s
        else s.modCore n (fun c => let c := c.setTq q rest; if rel then c.freeSlot q t.slot else c))
    else s.overrun n

/-- The header of a slot (R202). -/
structure SlotHdr where
  fmt : Nat
  beMode : Nat
  beUni : Nat
  side : Bool
  rows : Nat
  k : Nat
  planeOff : Nat
  sideOff : Nat
  deriving DecidableEq, Repr

def slotHdr (b : List Byte) : SlotHdr :=
  ⟨fld b 0 1, fld b 1 1, fld b 2 1, bit (fld b 3 1) 0, fld b 4 2, fld b 6 2, fld b 8 4, fld b 12 4⟩

/-! ### Operands -/

/-- An operand element in the array: significand, shift and grain (R148, R153). -/
structure Op where
  s : Int
  h : Nat
  g : Int
  deriving DecidableEq, Repr

/-- One row of operand elements: blocks of 32 converted with their block exponents; also the elements that were NaN or
infinite, and whether one was flushed (R150, R152, R154). -/
def convRow (fmt : Nat) (be : Nat → Nat) (vs : List Nat) : List Op × Nat × Bool :=
  (List.range ((vs.length + 31) / 32)).foldl (fun (acc : List Op × Nat × Bool) b =>
    let (ops, phi, fl) := convBlock fmt ((vs.drop (32 * b)).take 32)
    let g := ((be b : Nat) : Int) - 127 + phi
    (acc.1 ++ ops.map (fun o => ⟨o.s, o.h, g⟩), acc.2.1 + (ops.filter (·.nonfinite)).length, acc.2.2 || fl))
    ([], 0, false)

/-- A row of a slot: its first `k` elements (R236). -/
def slotRow (rd : Nat → Byte) (h : SlotHdr) (r k : Nat) : List Op × Nat × Bool :=
  let w := fmtBits h.fmt
  let base := 64 + r * rowBytes h.fmt h.k
  let nb := (h.k + 31) / 32
  let be (b : Nat) : Nat := if h.beMode = 1 then (rd (h.planeOff + r * nb + b)).toNat else h.beUni
  convRow h.fmt be ((List.range k).map (fun e => elemAt rd w (8 * base + e * w)))

/-- The slot lines a row's feeder reads: its elements, and its plane bytes. -/
def rowSpan (h : SlotHdr) (r k : Nat) : List (Nat × Nat) :=
  let nb := (h.k + 31) / 32
  (64 + r * rowBytes h.fmt h.k, fmtBytes h.fmt k) ::
    (if h.beMode = 1 then [(h.planeOff + r * nb, (k + 31) / 32)] else [])

/-- A convolution table entry (R270). -/
structure Conv where
  kh : Nat
  kw : Nat
  sx : Nat
  dx : Nat
  dy : Nat
  cblk : Nat
  pw : Nat
  ph : Nat
  units : Nat
  deriving DecidableEq, Repr

def convEntry (b : List Byte) : Conv :=
  ⟨fld b 0 1, fld b 1 1, fld b 2 1, fld b 3 1, fld b 4 1, fld b 5 1, fld b 6 2, fld b 8 1, fld b 9 1⟩

/-- The slot bit of the patch element of row feeder `i` at step `k` (R272). -/
def patchBit (v : Conv) (w i k : Nat) : Nat :=
  let cs := v.cblk * 32
  let c := k % cs
  let t := k / cs
  let px := i * v.sx + t % v.kw * v.dx
  let py := t / v.kw * v.dy
  8 * (64 + (py * v.pw + px) * v.units * 64) + c * w

def patchRow (rd : Nat → Byte) (h : SlotHdr) (v : Conv) (i k : Nat) : List Op × Nat × Bool :=
  let w := fmtBits h.fmt
  convRow h.fmt (fun _ => h.beUni) ((List.range k).map (fun e => elemAt rd w (patchBit v w i e)))

/-! ### Products and checksums -/

/-- ±m × 2^e, truncated toward zero to an integer. -/
def truncDy (m : Int) (e : Int) : Int := if 0 ≤ e then m * 2 ^ e.toNat else Int.tdiv m (2 ^ (-e).toNat)

/-- The 56-bit accumulation of one cell (R156, R157): value, truncation, saturation. -/
def cellSum (anchor : Int) (a w : List Op) : Int × Bool × Bool :=
  (List.zip a w).foldl (fun (acc : Int × Bool × Bool) p =>
    let (c, t) := contribution p.1.s p.1.h p.1.g p.2.s p.2.h p.2.g anchor
    let x := acc.1 + c
    (clampI accMin accMax x, acc.2.1 || t, acc.2.2 || x < accMin || accMax < x)) (0, false, false)

/-- A sum of dyadic numbers. -/
def dySum (l : List (Int × Int)) : Int × Int :=
  l.foldl (fun a p => dyAdd a.1 a.2 p.1 p.2) (0, 0)

/-- Adds to a 64-bit checksum accumulator; the bound sets the flag (R166). -/
def chk64 (a : Int × Bool) (c : Int) : Int × Bool :=
  let x := a.1 + c
  (clampI (-(2 ^ 63)) (2 ^ 63 - 1) x, a.2 || x < -(2 ^ 63) || 2 ^ 63 - 1 < x)

/-- A checksum cell: products of two dyadic streams. -/
def chkSum (anchor : Int) (a w : List (Int × Int)) : Int × Bool :=
  (List.zip a w).foldl (fun acc p => chk64 acc (truncDy (p.1.1 * p.2.1) (p.1.2 + p.2.2 - anchor))) (0, false)

/-- The exact converted value of an operand. -/
def Op.dy (o : Op) : Int × Int := (o.s, (o.h : Int) + o.g)

/-- Per step, the sum over rows (R91). -/
def colSums (k : Nat) (rows : List (List Op)) : List (Int × Int) :=
  (List.range k).map (fun q => dySum (rows.map (fun r => (r.getD q ⟨0, 0, 0⟩).dy)))

/-- RW[k] of side data (R164): significand in bits [39:0], exponent in bits [49:40]. -/
def rwVal (b : List Byte) : Int × Int :=
  let n := leNat b
  (sext 40 (n % 2 ^ 40), sext 10 (bits n 49 40))

/-- Rows and columns of a SHAPE (R84). -/
def shapeOf : Nat → Nat × Nat
  | 0 => (32, 32) | 1 => (32, 16) | 2 => (16, 32) | 3 => (16, 16) | 4 => (8, 32) | _ => (32, 8)

/-- The accumulator set an instruction makes from its operand rows (M rows of A, N of W). -/
def arrSet (w : Nat) (wq3 : Bool) (arows wrows : List (List Op)) (flushed : Bool) (rw : Option (List (Int × Int)))
    (noSide : Bool) : ArrSet :=
  let anchor := sext 11 (bits w 36 26)
  let k := 32 * bits w 25 16
  let (m, n) := shapeOf (bits w 39 37)
  let cells := arows.map (fun a => wrows.map (fun b => cellSum anchor a b))
  let flat := cells.flatMap id
  let tr := flushed || flat.any (fun c => c.2.1)
  let as_ := colSums k arows
  let col := wrows.map (fun b => chkSum anchor as_ (b.map Op.dy))
  let zero : List (Int × Int) := List.replicate k (0, 0)
  let r := rw.getD zero
  let row := arows.map (fun a => chkSum anchor (a.map Op.dy) r)
  let cor := chkSum anchor as_ r
  { tile := bits w 44 41, acc := bit w 40, m := m, n := n, k := k, vals := flat.map (·.1), trunc := tr,
    sat := flat.any (fun c => c.2.2), rowChk := row.map (·.1), colChk := col.map (·.1), corner := cor.1,
    chkSat := !wq3 && (row.any (·.2) || col.any (·.2) || cor.2), rowsOn := rw.isSome, noSide := noSide,
    rowSums := arows.map (fun a => (a.map (·.s)).foldl (· + ·) 0), anchor := anchor,
    tol := if tr then 33 * k else 0 }

/-- The formats a mode accepts (R98, R194). -/
def arrayFmt (wq3 : Bool) (f : Nat) : Bool := if wq3 then f ≤ 3 else f ≤ 6

/-- Checks several spans of a slot for line checks and poison. -/
def Core.spadChks (c : Core) (base : Nat) (l : List (Nat × Nat)) : SpadChk :=
  if l.any (fun p => c.spadChk (base + p.1) p.2 == .bad) then .bad
  else match l.findSome? (fun p => match c.spadChk (base + p.1) p.2 with | .poison i => some i | _ => none) with
    | some i => .poison i
    | none => .ok

/-- MM and CV from their two tokens on: checks of R237 and R271, operands, and the set (R85). -/
def State.arrayIssue (s : State) (n w : Nat) (j : Job) (cv : Bool) (ta tw : Token) : State :=
  let c := s.core n
  let (m, nn) := shapeOf (bits w 39 37)
  let k := 32 * bits w 25 16
  let ba := s.slotAt j.slot.val (bits w 52 51) ta.slot
  let bw := s.slotAt j.slot.val (bits w 48 47) tw.slot
  let ha := slotHdr (c.spadBytes ba 64)
  let hw := slotHdr (c.spadBytes bw 64)
  let v := convEntry (s.secBytes j.slot.val 9 (16 * bits w 15 10) 16)
  let cs := v.cblk * 32
  let aBad :=
    if cv then
      ha.rows != v.pw * v.ph || ha.k != cs || ha.beMode == 1 || v.units * 64 < fmtBytes ha.fmt cs
    else ha.rows < m || ha.k < k
  if aBad || hw.rows < nn || hw.k < k || !arrayFmt c.wq3 ha.fmt || !arrayFmt c.wq3 hw.fmt then s.overrun n
  else
    let rd (b : Nat) (i : Nat) : Byte := mapGet c.spad (b + i) 0
    let w8 := fmtBits ha.fmt
    let rwOn := hw.side && (match tw.rwBlk with | some x => x ≤ nn | none => false) && !c.wq3
    let spA :=
      if cv then (List.range m).flatMap (fun i => (List.range (k / 32)).map (fun b =>
        (patchBit v w8 i (32 * b) / 8, fmtBytes ha.fmt 32)))
      else (List.range m).flatMap (fun r => rowSpan ha r k)
    let spW := (List.range nn).flatMap (fun r => rowSpan hw r k) ++ (if rwOn then [(hw.sideOff, 8 * k)] else [])
    let chk := match c.spadChks ba ((0, 64) :: spA) with
      | .ok => c.spadChks bw ((0, 64) :: spW)
      | x => x
    match chk with
    | .bad => s.lineCheckFault n
    | .poison p => s.poisonFault n p
    | .ok =>
      let ra := (List.range m).map (fun i => if cv then patchRow (rd ba) ha v i k else slotRow (rd ba) ha i k)
      let rw := (List.range nn).map (fun i => slotRow (rd bw) hw i k)
      let nf := (ra ++ rw).foldl (fun a r => a + r.2.1) 0
      let fl := (ra ++ rw).any (fun r => r.2.2)
      let side := if rwOn then
          some ((List.range k).map (fun q => rwVal ((List.range 8).map (fun b => rd bw (hw.sideOff + 8 * q + b)))))
        else none
      let x := arrSet w c.wq3 (ra.map (·.1)) (rw.map (·.1)) fl side (!hw.side)
      (s.modCore n (fun c => { c.addNonfinite nf with sets := c.sets ++ [x], nextSet := !c.nextSet })).adv n .xe

/-- MM and CV: waits of R131, tile range, tokens. -/
def arrayOp (op : Nat) (n : Nat) (s : State) : State :=
  s.issue n .xe (isOp op) (fun w s =>
    match s.coreJob n with
    | none => s
    | some j =>
      if 4 ≤ (s.core n).sets.length || (s.core n).osTile (bits w 44 41) then s
      else if s.accTiles n ≤ bits w 44 41 then s.accRange n
      else
        s.useToken n (bits w 52 51) (bit w 50) (bit w 49) (fun ta s =>
          s.useToken n (bits w 48 47) (bit w 46) (bit w 45) (fun tw s =>
            s.arrayIssue n w j (op == 0x21) ta tw)))

def execMm (core : Fin 128) (s : State) : Host.Outcome State Fault Refusal := .next (arrayOp 0x20 core.val s)
def execCv (core : Fin 128) (s : State) : Host.Outcome State Fault Refusal := .next (arrayOp 0x21 core.val s)

/-! ### Comparison (R93, R94, R96, R166 to R170) -/

/-- Within the tolerance: equal at 0, else a smaller difference. -/
def within (tol : Nat) (d : Int) : Bool := if tol = 0 then d == 0 else d.natAbs < tol

/-- Row i of an m × n list of values. -/
def rowOfVals (n i : Nat) (vals : List Int) : List Int := (vals.drop (n * i)).take n

/-- The comparisons that fail: rows, columns, corner. -/
def failing (tol m n : Nat) (rowsOn : Bool) (vals rowChk colChk : List Int) (corner : Int) :
    List Nat × List Nat × Bool :=
  let sumI (l : List Int) : Int := l.foldl (· + ·) 0
  let rows := (List.range m).filter (fun i => rowsOn && !within tol (sumI (rowOfVals n i vals) - rowChk.getD i 0))
  let cols := (List.range n).filter (fun q =>
    !within tol (sumI ((List.range m).map (fun i => (rowOfVals n i vals).getD q 0)) - colChk.getD q 0))
  (rows, cols, rowsOn && !within tol (sumI (rowChk.take m) - corner))

/-- CHECKSUM_LANE at a drain, located by R94. -/
def State.drainFault (s : State) (n : Nat) : List Nat × List Nat × Bool → State
  | ([i], [q], _) => s.coreFault n 2 2 2 (i * 256 + q) 0 i q
  | ([i], [], false) => s.coreFault n 2 2 2 (i * 256 + 32) 0 i 32
  | ([], [q], false) => s.coreFault n 2 2 2 (32 * 256 + q) 0 32 q
  | ([], [], true) => s.coreFault n 2 2 2 (32 * 256 + 32) 0 32 32
  | _ => s.coreFault n 2 2 3 0 0 63 63

/-- CHECKSUM_LANE at a whole-tile read: L1, accumulator memory (R96). -/
def State.tileFault (s : State) (n : Nat) (f : List Nat × List Nat × Bool) : State :=
  let r := f.1.headD 63
  let q := f.2.1.headD 63
  s.coreFault n 2 2 1 (4096 + (if r = 63 then q else r)) 0 r q

/-- Value of cell (i, j) in tile memory. -/
def Tile.at_ (t : Tile) (i q : Nat) : Int := t.vals.getD (32 * i + q) 0

/-- The m × n values of a tile. -/
def Tile.shaped (t : Tile) : List Int :=
  (List.range t.m).flatMap (fun i => (List.range t.n).map (fun q => t.at_ i q))

/-- Writes values over the rows and columns of a shape; `f` combines old and new. -/
def putShape (old : List Int) (m n : Nat) (new : List Int) (f : Int → Int → Int) : List Int :=
  (List.range 1024).map (fun p =>
    let i := p / 32
    let q := p % 32
    let o := old.getD p 0
    if i < m ∧ q < n then f o (new.getD (n * i + q) 0) else o)

/-- Adds or replaces checksum values over the first ones. -/
def putChk (acc : Bool) (old new : List Int) : List Int :=
  (List.range 32).map (fun i => (if acc then old.getD i 0 else 0) + new.getD i 0)

/-- Row sums are held in 40 bits (R173); a sum beyond them wraps (DESIGN CHOICE, log 54). -/
def wrap40 (x : Int) : Int := sext 40 (wrapTo 40 x)

/-- A value outside 64 bits. -/
def out64 (x : Int) : Bool := x < -(2 ^ 63) || 2 ^ 63 - 1 < x

/-- The tile after a drain (R90, R95, R168, R169, R173, R240). `ok` says the drain was compared. -/
def Tile.drain (t : Tile) (x : ArrSet) (ok : Bool) : Tile :=
  let big (l : List Int) : Bool := l.any (fun v => v < accMin || accMax < v)
  if x.acc then
    let raw := putShape t.vals x.m x.n x.vals (· + ·)
    let rc := putChk true t.rowChk x.rowChk
    let cc := putChk true t.colChk x.colChk
    let co := t.corner + x.corner
    { t with
      vals := raw.map (clampI accMin accMax), rowChk := rc, colChk := cc, corner := co
      trunc := t.trunc || x.trunc, sat := t.sat || x.sat || big raw
      valid := t.valid && ok && !big raw && !rc.any out64 && !cc.any out64 && !out64 co
      allowance := min (t.allowance + x.tol) (2 ^ 48 - 1)
      rowSums := t.rowSums.map (fun l => (List.range 32).map (fun i => wrap40 (l.getD i 0 + x.rowSums.getD i 0)))
      noSide := t.noSide || x.noSide, anchor := x.anchor, m := max t.m x.m, n := max t.n x.n
      rowsOn := t.rowsOn && x.rowsOn }
  else
    { t with
      vals := putShape t.vals x.m x.n x.vals (fun _ b => b), rowChk := putChk false [] x.rowChk
      colChk := putChk false [] x.colChk, corner := x.corner, trunc := x.trunc, sat := x.sat, valid := ok
      allowance := x.tol, rowSums := some ((fitI x.rowSums).map wrap40), noSide := x.noSide, anchor := x.anchor
      m := x.m, n := x.n, rowsOn := x.rowsOn }
where
  fitI (l : List Int) : List Int := (l ++ List.replicate (32 - l.length) 0).take 32

/-- An upset of one cell before the checks: data cell, checksum cell or corner. -/
def ArrSet.upset (x : ArrSet) (u : Fin 33 × Fin 33 × Int) : ArrSet :=
  let i := u.1.val
  let q := u.2.1.val
  let d := u.2.2
  if i < x.m ∧ q < x.n then { x with vals := x.vals.set (x.n * i + q) (x.vals.getD (x.n * i + q) 0 + d) }
  else if i = 32 ∧ q < x.n then { x with colChk := x.colChk.set q (x.colChk.getD q 0 + d) }
  else if i < x.m ∧ q = 32 then { x with rowChk := x.rowChk.set i (x.rowChk.getD i 0 + d) }
  else if i = 32 ∧ q = 32 then { x with corner := x.corner + d }
  else x

/-- The check of a whole-tile read (R96, R97, R169): counts, and the fault. -/
def State.readTile (s : State) (n t : Nat) (k : State → State) : State :=
  let c := s.core n
  let x := c.tile t
  if c.wq3 then k s
  else if x.valid then
    let s := s.countReg (pgTc n) 0x120 1
    let f := failing x.allowance x.m x.n x.rowsOn x.shaped x.rowChk x.colChk x.corner
    if f.1 != [] || f.2.1 != [] || f.2.2 then s.tileFault n f else k s
  else k (s.countReg (pgTc n) 0x124 1)

/-! ### Activation (R115, R118) -/

/-- FP32 with the occurrences counted so far. -/
abbrev FC := Word × Nat × Nat

def fc (r : FR) (a : Nat × Nat) : FC := (r.val, a.1 + b2n r.invalid, a.2 + b2n r.overflow)

/-- A table lookup (R115). -/
def tableLookup (t : ActTable) (x : Word) (a : Nat × Nat) : FC :=
  if fIsNan x then (fNan, a)
  else
    let d := fsub x t.x0
    let (_, a) := fc d a
    let m := fmul d.val t.invStep
    let (u, a) := fc m a
    match fdecode u with
    | .nan => (fNan, a)
    | v =>
      let i : Nat := match v with
        | .fin sg mm e => (clampI 0 255 (roundInt 2 sg mm e)).toNat
        | .inf sg => if sg then 0 else 255
        | .nan => 0
      let df := fsub u (froundInt (i : Int) 0).val
      let (f, a) := fc df a
      let f := if flt f 0 then 0 else if flt 0x3F800000 f then 0x3F800000 else f
      let st := fsub (t.t.getD (i + 1) 0) (t.t.getD i 0)
      let (_, a) := fc st a
      fc (ffma f st.val (t.t.getD i 0)) a

/-- The activation of R118; NaN passes as 0x7FC0_0000. -/
def activate (act : Nat) (t : ActTable) (lo hi y : Word) (a : Nat × Nat) : FC :=
  if fIsNan y then (fNan, a)
  else
    match act with
    | 0 => (y, a)
    | 1 => (if flt 0 y then y else 0, a)
    | 2 => (if flt y lo then lo else if flt hi y then hi else y, a)
    | _ => tableLookup t y a

/-! ### The output stage (R174 to R178) -/

/-- What OS takes from its parameter block (R210). -/
structure Param where
  s2a : Word
  s2o : Word
  zA : Int
  zO : Int
  beA : Nat
  beW : Nat
  beO : Nat
  fmt : Nat
  zp : Bool
  ctl : Nat
  stats : Nat
  lo : Word
  hi : Word
  chan : Int
  retry : Bool
  plane : Nat
  s2w : List Word
  zW : List Int
  sumW : List Int
  bias : List Word
  deriving DecidableEq, Repr

def paramOf (b : List Byte) : Param :=
  let w (o : Nat) : Word := w32 (fld b o 4)
  { s2a := w 0, s2o := w 8, zA := fldS b 12 2, zO := fldS b 14 2, beA := fld b 16 1, beW := fld b 17 1,
    beO := fld b 18 1, fmt := fld b 19 1 % 16, zp := bit (fld b 19 1) 4, ctl := fld b 20 4, stats := fld b 24 8,
    lo := w 32, hi := w 36, chan := fldS b 40 4, retry := bit (fld b 44 4) 0, plane := fld b 48 8,
    s2w := (List.range 32).map (fun j => w (64 + 4 * j)), zW := (List.range 32).map (fun j => fldS b (192 + 2 * j) 2),
    sumW := (List.range 32).map (fun j => fldS b (256 + 4 * j) 4), bias := (List.range 32).map (fun j => w (384 + 4 * j)) }

/-- inv_out (R174). -/
def invOut (p : Param) (a : Nat × Nat) : FC :=
  let d := fdiv 0x3F800000 p.s2o
  let (_, a) := fc d a
  fc (fldexp d.val (127 - (p.beO : Int))) a

/-- c of a channel (R174). -/
def chanScale (p : Param) (anchor : Int) (q : Nat) (a : Nat × Nat) : FC :=
  let m := fmul p.s2a (p.s2w.getD q 0)
  let (_, a) := fc m a
  fc (fldexp m.val anchor) a

/-- y4 and y5 of an element (R172, R174). -/
def outElem (p : Param) (x : Tile) (kt : Int) (act : Nat) (tb : ActTable) (c : Word) (i q : Nat) (a : Nat × Nat) :
    Word × FC :=
  let y1 := (froundInt (x.at_ i q) 0).val
  let (y2, a) :=
    if p.zp then
      let zw := p.zW.getD q 0
      let sa := (x.rowSums.getD []).getD i 0
      let zc := kt * p.zA * zw - zw * sa - p.zA * p.sumW.getD q 0
      let z := froundInt zc ((p.beA : Int) - 127 + ((p.beW : Int) - 127) - x.anchor)
      let (_, a) := fc z a
      fc (fadd y1 z.val) a
    else (y1, a)
  let (y3, a) := fc (fmul y2 c) a
  let (y4, a) := fc (fadd y3 (p.bias.getD q 0)) a
  (y4, activate act tb p.lo p.hi y4 a)

/-- One pass over a tile: per element y4, y5 and the quantised result. -/
structure Pass where
  y4 : List (List Word)
  out : List (List Nat)
  sat : Nat
  ufl : Nat
  maxAbs : Word
  fp : Nat × Nat
  deriving DecidableEq, Repr

/-- `k` scales inv_out by an exact power of two (R183). An element whose u is NaN stays out of MAX_ABS (R175). -/
def osPass (p : Param) (x : Tile) (kt : Int) (act : Nat) (tb : ActTable) (inv : Word) (k : Int) (cs : List Word)
    (a : Nat × Nat) : Pass :=
  let rows := List.range x.m
  let cols := List.range x.n
  rows.foldl (fun (r : Pass) i =>
    let r' := cols.foldl (fun (acc : List Word × List Nat × Pass) q =>
      let (y4, y5, fp) := outElem p x kt act tb (cs.getD q 0) i q acc.2.2.fp
      let (u, fp) := if p.fmt = 7 then (y5, fp) else fc (fmulExp y5 inv k) fp
      let o := quantise p.fmt p.zO y5 u
      let m := if fIsNan u then acc.2.2.maxAbs else if flt acc.2.2.maxAbs (fabs y5) then fabs y5 else acc.2.2.maxAbs
      (acc.1 ++ [y4], acc.2.1 ++ [o.bits],
        { acc.2.2 with sat := acc.2.2.sat + b2n o.sat, ufl := acc.2.2.ufl + b2n o.ufl, maxAbs := m, fp := fp }))
      ([], [], r)
    { r'.2.2 with y4 := r.y4 ++ [r'.1], out := r.out ++ [r'.2.1] }) ⟨[], [], 0, 0, 0, a⟩

/-- The smallest k with num/den × 2^e ≤ 2^k. -/
def ceilLog2 (num den : Nat) (e : Int) : Int :=
  let k0 := (ilog2 num : Int) - (ilog2 den : Int) + e
  let le (k : Int) : Bool :=
    let d := k - e
    if 0 ≤ d then num ≤ den * 2 ^ d.toNat else num * 2 ^ (-d).toNat ≤ den
  if le (k0 - 1) then k0 - 1 else if le k0 then k0 else k0 + 1

/-- ρ of SCALE_RETRY (R183); 0 where no retry is needed. -/
def retryShift (p : Param) (inv : Word) (r : Pass) (elems : Nat) : Int :=
  if (r.sat = 0 ∧ r.ufl ≤ elems / 2 ^ bits p.ctl 23 19) ∨ r.maxAbs = 0 then 0
  else
    let k : Int := match fdecode r.maxAbs, fdecode (fabs inv), fdecode (qmax p.fmt) with
      | .fin _ m e, .fin _ n f, .fin _ d g => if n = 0 then -8 else ceilLog2 (m * n) d (e + f - g)
      | _, _, _ => 8
    let k := clampI (-8) 8 k
    clampI (-(p.beO : Int)) (255 - (p.beO : Int)) k

/-- Rank of an argmax candidate (R277): the second replaces the first. -/
def better (v : Word) (i : Int) (w : Word) (k : Int) : Bool :=
  if fIsNan v then (if fIsNan w then k < i else true)
  else if fIsNan w then false
  else flt v w || (!flt w v && k < i)

/-- Updates the running argmax state with the rows of a pass (R119, R592). -/
def argmaxRun (st : List (Option (Word × Int))) (chan : Int) (y4 : List (List Word)) :
    List (Option (Word × Int)) :=
  (st.zipIdx).map (fun p =>
    match y4[p.2]? with
    | none => p.1
    | some row => (row.zipIdx).foldl (fun (cur : Option (Word × Int)) q =>
        match cur with
        | none => some (q.1, chan + q.2)
        | some (v, i) => if better v i q.1 (chan + q.2) then some (q.1, chan + q.2) else cur) p.1)

/-- The index row and the row of maxima (R593). -/
def argmaxRows (p : Param) (act : Nat) (tb : ActTable) (inv : Word) (sc : Int) (m : Nat) (val : Bool)
    (st : List (Option (Word × Int))) : List Byte :=
  let live := (st.zipIdx).map (fun x => if x.2 < m then x.1 else none)
  let idx := fitBytes 64 (live.flatMap (fun o => leBytes 2 (match o with | some (_, i) => wrapTo 16 i | none => 0)))
  let mx := live.map (fun o => match o with
    | some (v, _) =>
      let y5 := (activate act tb p.lo p.hi v (0, 0)).1
      (quantise p.fmt p.zO y5 (fmulExp y5 inv sc).val).bits
    | none => 0)
  if val then idx ++ fitBytes (rowBytes p.fmt 32) (packElems (fmtBits p.fmt) mx) else idx

/-- A statistics record (R178). -/
def statsRecord (r : Pass) (x : Tile) (rho : Int) (retried unc : Bool) : List Byte :=
  leBytes 4 r.maxAbs.toNat ++ leBytes 2 r.sat ++ leBytes 2 r.ufl ++ leBytes 2 (x.m * x.n) ++
    leBytes 1 (b2n x.trunc + 2 * b2n x.sat + 4 * b2n retried + 8 * b2n unc) ++ leBytes 1 (wrapTo 8 rho) ++ leBytes 4 0

/-- What the output stage stores beside its result, each at a virtual address; an address without translation stops the
core, with the ones before it stored. -/
def State.osStores (s : State) (n : Nat) (j : Job) (k : State → State) : List (Nat × List Byte) → State
  | [] => k s
  | (v, bs) :: rest =>
    match s.vaTo j v bs.length true with
    | none => s.xlateFault n
    | some a => (s.keyWrite ⟨n, .xe, false, []⟩ a bs true).osStores n j k rest

/-- An OS that writes its result: any but an argmax pass that is not the final one (R593). -/
def osClaims (w : Nat) : Bool := !(bit w 39 && !bit w 37)

/-- The passes of an OS over its tile (R183): the first, ρ, and the last. -/
def osPasses (p : Param) (x : Tile) (kt : Int) (act : Nat) (tb : ActTable) : Pass × Int × Pass × Word :=
  let (inv, a) := invOut p (0, 0)
  let (cs, a) := (List.range x.n).foldl (fun (acc : List Word × Nat × Nat) q =>
    let (v, a) := chanScale p x.anchor q acc.2
    (acc.1 ++ [v], a)) ([], a)
  let r1 := osPass p x kt act tb inv 0 cs a
  let rho := if p.retry then retryShift p inv r1 (x.m * x.n) else 0
  (r1, rho, if p.retry then osPass p x kt act tb inv (-rho) cs r1.fp else r1, inv)

/-- What an OS leaves in its result slot (R202, R204, R593). -/
def osData (p : Param) (x : Tile) (w : Nat) (tb : ActTable) (r : Pass) (inv : Word) (rho : Int)
    (st : List (Option (Word × Int))) : List Byte :=
  if bit w 39 then argmaxRows p (bits w 44 42) tb inv (-rho) x.m (bit w 36) st
  else r.out.flatMap (fun l => fitBytes (rowBytes p.fmt x.n) (packElems (fmtBits p.fmt) l))

/-- The counts of an OS (R119, R120, R144), with its rows: those of both passes where there are two. -/
def State.osCounts (s : State) (n : Nat) (p : Param) (x : Tile) (r1 r : Pass) : State :=
  let twice (f : Pass → Nat) : Nat := if p.retry then f r1 + f r else f r1
  let s := ((s.countReg (pgTc n) 0x128 1 (twice (·.sat))).countReg (pgTc n) 0x12C 1 (twice (·.ufl)))
  let s := (s.countReg (pgTc n) 0x130 1 (b2n x.sat)).countReg (pgTc n) 0x134 1 (b2n x.trunc)
  s.perf n 11 (if p.retry then 2 * x.m else x.m)

/-- OS after its waits and checks. Its statistics record goes to the slot STATS of STATS_ADDR (R178), and its plane bytes
to the 32-byte slot of the same number at PLANE_ADDR: DESIGN CHOICE (log 37), as R176 lets the instruction name an
exponent slot and its one slot number is STATS. -/
def State.osRun (s : State) (n : Nat) (j : Job) (e : OsEnt) (p : Param) (k : State → State) : State :=
  let c := s.core n
  let w := e.w
  let x := c.tile (bits w 52 49)
  let tb := c.tables.getD (bits w 41 40) ActTable.reset
  let (r1, rho, r, inv) := osPasses p x e.kt (bits w 44 42) tb
  let st := if bit w 39 then argmaxRun (if bit w 38 then c.argmax else List.replicate 32 none) p.chan r.y4 else c.argmax
  let s := s.osCounts n p x r1 r
  let s := s.modCore n (fun c => { c.addFp r.fp.1 r.fp.2 with argmax := st })
  let s := match e.slot with
    | some sl => s.modCore n (fun c => { c.spadWrite (s.slotAt j.slot.val 3 sl) (osData p x w tb r inv rho st) with
        tq3 := if bit w 20 then c.tq3 ++ [sl] else c.tq3 })
    | none => s
  s.osStores n j k
    ((p.stats + 16 * e.idx, statsRecord r x rho (rho ≠ 0) (!x.valid || c.wq3)) ::
      (if bits p.ctl 1 0 = 1 && !bit w 39 then
        [(p.plane + 32 * e.idx, List.replicate x.m (BitVec.ofNat 8 ((p.beO : Int) + rho).toNat))] else []))

/-- An OS whose tile is readable (R88): the checks of R240 and R248, the check of the tile, then the passes. -/
def State.osTileRead (s : State) (n : Nat) (j : Job) (e : OsEnt) (k : State → State) : State :=
  let t := bits e.w 52 49
  let p := paramOf e.par
  let x := (s.core n).tile t
  if (p.zp && (p.zW.take x.n).any (· ≠ 0)) && (x.noSide || x.rowSums.isNone) then s.overrun n
  else s.readTile n t (fun s => s.osRun n j e p k)

/-- The output stage goes on with what it has accepted, in order: an OS whose tile has become readable and whose token finds
room in TQ3 (R127, R131). -/
def State.osPump (s : State) (n : Nat) : Nat → State
  | 0 => s
  | k + 1 =>
    match (s.core n).osq, s.coreJob n with
    | e :: rest, some j =>
      let c := s.core n
      if c.mode = .running && !c.tileBusy (bits e.w 52 49) && !(e.slot.isSome && bit e.w 20 && 16 ≤ c.tq3.length) then
        ((s.modCore n (fun c => { c with osq := rest })).osTileRead n j e id).osPump n k
      else s
    | _, _ => s

/-- OS: waits (R127, R131, R212), then the checks of R108, R210 and R278. It runs at once when its tile is readable (R88);
else the output stage holds it, the one it runs and one behind it, and the XE goes on. It keeps the Kt, the statistics slot
and the result slot of its issue. -/
def os (n : Nat) (s : State) : State :=
  s.issue n .xe (isOp 0x22) (fun w s =>
    match s.coreJob n with
    | none => s
    | some j =>
      let c := s.core n
      let t := bits w 52 49
      if s.accTiles n ≤ t then s.accRange n
      else if 2 ≤ c.osq.length then s
      else if osClaims w && (c.slotBusy 3 (c.nextOf 3) || (bit w 20 && 16 ≤ c.tq3.length)) then s
      else
        s.useToken n (bits w 48 47) (bit w 46) (bit w 45) (fun tok s =>
          if !tok.isParam then s.overrun n
          else
            s.readSpad n (s.slotAt j.slot.val (bits w 48 47) tok.slot) 512 (fun b =>
              if bit w 39 && 32767 < (paramOf b).chan + 31 then s.overrun n
              else
                let e : OsEnt :=
                  ⟨w, b, sext 32 (c.sr.getD (bits w 24 21) 0).toNat,
                   bits w 35 26 + (if bit w 25 then c.xe.idx (bits w 54 53) else 0),
                   if osClaims w then some (c.nextOf 3) else none⟩
                let s := if osClaims w then
                    s.modCore n (fun c => { (c.takeSlot 3 (s.ring j.slot.val 3).2.2) with curSlot := e.slot })
                  else s
                if c.osq.isEmpty && !c.tileBusy t then s.osTileRead n j e (·.adv n .xe)
                else (s.modCore n (fun c => { c with osq := c.osq ++ [e] })).adv n .xe)))

def execOs (core : Fin 128) (s : State) : Host.Outcome State Fault Refusal := .next (os core.val s)

/-! ### Drains and stores, after which the output stage may go on -/

/-- ARRAY_DRAIN (R86, R93): the oldest set drains, is compared and reaches its tile. How long feeders held the array
meanwhile is free, and counted (R144). -/
def arrayDrain (n : Nat) (u : Option (Fin 33 × Fin 33 × Int)) (s : State) : State :=
  let c := s.core n
  match c.sets with
  | [] => s
  | x :: rest =>
    if c.mode ≠ .running || s.gatedAt n then s
    else
      let x := match u with | some u => x.upset u | none => x
      let ok := !c.wq3 && !x.sat && !x.chkSat
      let s := s.countReg (pgTc n) (if ok then 0x120 else 0x124) 1
      let (s, held) := s.drawNat 32
      let s := (s.countReg (pgTc n) 0x138 1 held).perfCycles n
      let f := failing x.tol x.m x.n x.rowsOn x.vals x.rowChk x.colChk x.corner
      if ok && (f.1 != [] || f.2.1 != [] || f.2.2) then s.drainFault n f
      else (s.modCore n (fun c => { c.setTile x.tile ((c.tile x.tile).drain x ok) with sets := rest })).osPump n 2

def execArrayDrain (core : Fin 128) (upset : Option (Fin 33 × Fin 33 × Int)) (s : State) :
    Host.Outcome State Fault Refusal := .next (arrayDrain core.val upset s)

/-- ST and SCATTER (R204 to R206): the store, then what TQ3 held back. -/
def execSt (core : Fin 128) (s : State) : Host.Outcome State Fault Refusal := .next ((st core.val s).osPump core.val 2)
def execScatter (core : Fin 128) (s : State) : Host.Outcome State Fault Refusal :=
  .next ((scatter core.val s).osPump core.val 2)

end Sys2Proof.Machine
end

