-- ==== Sys2Proof/Machine/Reel.lean ====
section
/-! DEFINITION. Reels: their rings (R279 to R281), submission (R282, R283), how JSC takes a command and what refuses it
(R285 to R289, R300, R539), completions (R290), the accounting table (R322) and poisoned commands (R472). A reel command
acts when it is the one at HEAD of its reel and JSC may take it; otherwise it changes nothing. -/

namespace Sys2Proof.Machine

def State.reel (s : State) (n : Nat) : Reel := s.reels[n]?.getD Reel.reset
def State.setReel (s : State) (n : Nat) (r : Reel) : State := { s with reels := s.reels.setIfInBounds n r }
def State.modReel (s : State) (n : Nat) (f : Reel → Reel) : State := s.setReel n (f (s.reel n))

/-- REEL_CFG0 and REEL_CFG1 (R280). -/
def State.reelBase (s : State) (n : Nat) : Nat := s.rn pgReels (0x100 + 16 * n) % 2 ^ 28 * 4096
def State.reelLog (s : State) (n : Nat) : Nat := bits (s.rn pgReels (0x104 + 16 * n)) 3 0
def State.reelSource (s : State) (n : Nat) : Nat := bits (s.rn pgReels (0x104 + 16 * n)) 5 4
def State.reelUrgent (s : State) (n : Nat) : Bool := bit (s.rn pgReels (0x104 + 16 * n)) 6
def State.reelOn (s : State) (n : Nat) : Bool := bit (s.rn pgReels (0x104 + 16 * n)) 7
/-- The reel holds its rings: enabled, or disabled with completions or reserved entries left (R281, R291). -/
def State.reelLive (s : State) (n : Nat) : Bool :=
  s.reelOn n || (s.reel n).reserved != 0 || (s.reel n).chead != (s.reel n).ctail

/-- Entries between two ring pointers of 2^log entries (R280). -/
def ringCount (log front back : Nat) : Nat := (front + 2 ^ (log + 1) - back) % 2 ^ (log + 1)
/-- The next value of a ring pointer. -/
def ringNext (log p : Nat) : Nat := (p + 1) % 2 ^ (log + 1)

/-- Completion entries of a reel that are free and not reserved (R285). -/
def State.cmplFree (s : State) (n : Nat) : Nat :=
  let r := s.reel n
  2 ^ s.reelLog n - ringCount (s.reelLog n) r.chead r.ctail - r.reserved

/-! ### Window tables and accounting (R66, R322) -/

/-- Key of byte `o` of entry `e` of a window page with entries of `w` bytes. -/
def winKey (page w e o : Nat) : Nat := page * 2 ^ 32 + e * w + o

/-- A field of a window table entry. -/
def State.winNat (s : State) (page w e o n : Nat) : Nat :=
  leNat ((List.range n).map (fun i => mapGet s.winTab (winKey page w e (o + i)) 0))
/-- Hardware writes fields (offset, bytes, value) of an entry in one step; its generation advances (R70). -/
def State.setWin (s : State) (page w e : Nat) (fs : List (Nat × Nat × Nat)) : State :=
  let k := winKey page 1 e 0
  { s with winTab := fs.foldl (fun m f => putBytes m (winKey page w e f.1) (leBytes f.2.1 f.2.2)) s.winTab
           winGen := mapSet s.winGen k 0 (mapGet s.winGen k 0 + 1) }

/-- Increments a count of a session's accounting entry, saturating, while the entry is still that session's: it holds the GEN of
the last session SEC established on the index (R322). -/
def State.acct (s : State) (session : Fin 256) (gen : BitVec 16) (off : Nat) : State :=
  if s.winNat pgAcct 32 session.val 2 2 = gen.toNat then
    s.setWin pgAcct 32 session.val [(off, 4, min (s.winNat pgAcct 32 session.val off 4 + 1) 0xFFFFFFFF)]
  else s

/-! ### Completions (R290) -/

/-- The entry, and its place at CHEAD; bit n of page 0x071 (R280). -/
def State.complete (s : State) (n type status seq : Nat) (job : BitVec 16) (opcode detail : Nat) (result : List Byte) :
    State :=
  let r := s.reel n
  let l := s.reelLog n
  let e := leBytes 1 type ++ leBytes 1 status ++ leBytes 2 seq ++ leBytes 2 job.toNat ++ leBytes 1 opcode ++
    leBytes 1 n ++ leBytes 5 s.tk ++ leBytes 3 detail ++ fitBytes 48 result
  let s := s.writeVia 19 (s.reelBase n + 64 * 2 ^ l + 64 * (r.chead % 2 ^ l)) e
  (s.modReel n (fun r => { r with chead := ringNext l r.chead })).raise pgReels n

/-- A completion of a run gives its reserved entry back. -/
def State.unreserve (s : State) (n : Nat) : State := s.modReel n (fun r => { r with reserved := r.reserved - 1 })

/-! ### Commands (R286 to R289) -/

/-- A command JSC has taken, with the session it came from and the role that session carries now (R539). -/
structure Cmd where
  reel : Nat
  bytes : List Byte
  session : Fin 256
  gen : BitVec 16
  role : Option Role
  deriving DecidableEq, Repr

def Cmd.op (c : Cmd) : Nat := fld c.bytes 0 1
def Cmd.seq (c : Cmd) : Nat := fld c.bytes 2 2
def Cmd.job (c : Cmd) : BitVec 16 := BitVec.ofNat 16 (fld c.bytes 4 2)
def Cmd.atLeast (c : Cmd) (r : Role) : Bool :=
  match c.role with
  | some q => decide (roleNum r ≤ roleNum q)
  | none => false

/-- CMD_DONE. A refusal counts for its session and shows in LAST_REFUSAL (R322, R324). -/
def State.done (s : State) (c : Cmd) (status detail : Nat) (result : List Byte) : State :=
  let s := s.complete c.reel 1 status c.seq c.job c.op detail result
  if status ≠ 0 then
    let s := if status < 0x70 then s.acct c.session c.gen 16 else s
    (s.setRn pgAdm 0x114 (status + 256 * c.op + 65536 * c.job.toNat)).setRn pgAdm 0x118 (detail % 2 ^ 24)
  else s

/-- A refused command. -/
def State.refuse (s : State) (c : Cmd) (status detail : Nat) : State := s.done c status detail []

/-- Bytes of the body that a command uses (R289, R361). -/
def usedBytes : Nat → List (Nat × Nat)
  | 0x01 => [(8, 9), (16, 21), (24, 28)]
  | 0x02 => [(8, 13), (16, 21), (24, 37), (40, 42), (44, 48)]
  | 0x03 => [(8, 9), (16, 40)]
  | 0x04 => [(8, 10), (16, 40)]
  | 0x05 => [(8, 9)]
  | 0x07 => [(8, 9), (16, 21)]
  | 0x08 => [(8, 9), (16, 21), (24, 56)]
  | 0x09 => [(8, 11)]
  | 0x0A => [(8, 12)]
  | 0x21 => [(8, 9)]
  | 0x22 => [(8, 9), (12, 36)]
  | 0x23 => [(8, 9)]
  | 0x24 => [(8, 9), (16, 29)]
  | 0x26 => [(8, 14), (16, 20)]
  | 0x27 => [(8, 9)]
  | _ => []

/-- Opcodes of R287 and R361. -/
def knownOp (op : Nat) : Bool := (1 ≤ op && op ≤ 0x0A) || (0x20 ≤ op && op ≤ 0x27)

/-- The lowest role of a command that the opcode alone decides (R287, R361). -/
def opRole (op : Nat) : Role :=
  if op = 0x01 ∨ op = 0x0A ∨ op = 0x25 ∨ op = 0x26 then .installer else .operator

/-- The lowest role of a command, its options included. -/
def cmdRole (b : List Byte) : Role := if fld b 0 1 = 2 && bit (fld b 10 1) 0 then .installer else opRole (fld b 0 1)

/-- Fields with values that the manual gives no meaning: loop counts above 24 bits, RFLAGS, CLASS, OPTIONS, SCOPE,
COUNT and ACTION (refused as reserved bytes are; DEDUCED from R289). -/
def badField (op : Nat) (b : List Byte) : Option Nat :=
  if op = 0x02 then (if 3 < fld b 9 1 then some 9 else if 3 < fld b 10 1 then some 10 else none)
  else if op = 0x03 ∨ op = 0x04 then
    if (if op = 0x04 then 32 else 16) ≤ fld b 8 1 then some 8
    else ([19, 23, 27, 31]).find? (fun o => fld b o 1 ≠ 0)
  else if op = 0x05 then (if 2 < fld b 8 1 then some 8 else none)
  else if op = 0x07 ∨ op = 0x08 then (if fld b 8 1 = 0 ∨ 8 < fld b 8 1 then some 8 else none)
  else if op = 0x09 then (if 1 < fld b 10 1 then some 10 else none)
  else if op = 0x27 then (if fld b 8 1 = 0 ∨ 2 < fld b 8 1 then some 8 else none)
  else none

/-- The first reserved byte that is not 0, or field without meaning (R286, R289). -/
def reservedAt (b : List Byte) : Option Nat :=
  let op := fld b 0 1
  if 2 ≤ fld b 1 1 then some 1
  else if fld b 6 2 ≠ 0 then some 6
  else
    match (List.range 56).find? (fun i => fld b (8 + i) 1 ≠ 0 && !(usedBytes op).any (fun r => r.1 ≤ 8 + i && 8 + i < r.2)) with
    | some i => some (8 + i)
    | none => badField op b

/-- Address of the command at HEAD. -/
def State.headAddr (s : State) (n : Nat) : Nat := s.reelBase n + 64 * ((s.reel n).head % 2 ^ s.reelLog n)

/-- A command at HEAD must still wait: for the runs before it (AFTER_RUNS), for SEC to verify an earlier copy in its slot, for
an earlier CANCEL of its job, or a BIND for BOOT_DONE (R286, R294, R316, R579). -/
def State.headWaits (s : State) (n : Nat) : Bool :=
  match s.readVia 19 (s.headAddr n) 64 with
  | (_, bs, .ok) =>
    let op := fld bs 0 1
    bit (fld bs 1 1) 0 && (s.reel n).reserved != 0 || op == 0x01 && (s.slot (fld bs 8 1)).verifying.isSome ||
      op == 0x05 && (s.job? (BitVec.ofNat 16 (fld bs 4 2))).any (fun j => j.cancel.isSome) ||
      op == 0x02 && !bit (fld bs 10 1) 1 && !s.sec.bootDone
  | _ => false

/-- JSC can take the reel's command, turns apart (R285). -/
def State.canTake (s : State) (n : Nat) : Bool :=
  let r := s.reel n
  s.reelOn n && !r.busy && r.head != r.tail && 1 ≤ s.cmplFree n && !s.headWaits n

/-- Reels in the order of a turn: the URGENT ones first (R285). -/
def State.turnOrder (s : State) : List Nat :=
  (List.range 32).filter s.reelUrgent ++ (List.range 32).filter (fun n => !s.reelUrgent n)

/-- The reel JSC serves next: the first of the turn's order that this turn has not served; with none left, a new turn begins.
The others follow in ascending order too, and a command that comes during a turn is of that turn where its reel has not been
served (DESIGN CHOICE, log 55). -/
def State.nextReel (s : State) : Option Nat :=
  let on := s.turnOrder.filter s.canTake
  match on.find? (fun n => !s.turn.contains n) with
  | some n => some n
  | none => on.head?

/-- Whether JSC may take a command of the reel (R285). -/
def State.mayTake (s : State) (n : Nat) : Bool := s.nextReel == some n

/-- HEAD moves on; the command's tag leaves with it, and the turn has served the reel. -/
def State.popCmd (s : State) (n : Nat) : State :=
  let l := s.reelLog n
  let s := { s with turn := if s.turn.contains n then [n] else s.turn ++ [n] }
  s.modReel n (fun r => { r with head := ringNext l r.head, tags := r.tags.filter (fun t => t.index ≠ r.head % 2 ^ l) })

/-- The command at HEAD with its session. -/
def State.headCmd (s : State) (n : Nat) (bs : List Byte) : Cmd :=
  let i := (s.reel n).head % 2 ^ s.reelLog n
  match (s.reel n).tags.find? (fun t => t.index = i) with
  | some t =>
    let ss := s.session t.session.val
    { reel := n, bytes := bs, session := t.session, gen := t.gen,
      role := if ss.isOpen && ss.gen == t.gen then some (s.sessionRole t.session.val) else none }
  | none => { reel := n, bytes := bs, session := 0, gen := 0, role := none }

/-- The lock a command names beside its lowest role: the instance lock of page 0x02A, or of the page of an axis (R361). -/
def State.lockOk (s : State) (c : Cmd) : Bool :=
  let meets (page : Nat) : Bool := match c.role with | some r => roleMeets r (s.lock page 2) | none => false
  if c.op = 0x22 ∨ c.op = 0x23 then meets pgCue
  else if c.op = 0x24 ∧ fld c.bytes 8 1 < 8 then meets (pgAx (fld c.bytes 8 1))
  else true

/-- JSC takes the command at HEAD when it is one that `sel` names, or one with no meaning, which any of the reel rows
refuses; `k` gives the effect of a command whose role and reserved bytes are in order. -/
def State.takeCmd (s : State) (n : Nat) (sel : List Byte → Bool) (k : Cmd → State → State) : State :=
  if s.mayTake n then
    let (s', bs, r) := s.readVia 19 (s.headAddr n) 64
    if r ≠ .ok then s
    else
      let c := s.headCmd n bs
      if !(sel bs || !knownOp c.op) then s
      else
        let s := s'.popCmd n
        let s := if c.op = 3 ∨ c.op = 4 then s.acct c.session c.gen 4 else s
        if !knownOp c.op then s.refuse c 0x01 0
        else if !c.atLeast (cmdRole bs) then s.refuse c 0x02 (if c.atLeast (opRole c.op) then 10 else 0)
        else if !s.lockOk c then s.refuse c 0x02 0
        else match reservedAt bs with
          | some o => s.refuse c 0x03 o
          | none => k c s
  else s

/-- The command's opcode. -/
def opIs (op : Nat) (b : List Byte) : Bool := fld b 0 1 == op

/-- A command may act on a job (R288). -/
def Cmd.owns (c : Cmd) (j : Job) : Bool := (j.owner == c.session && j.ownerGen == c.gen) || c.atLeast .installer

/-- The job a command names, checked in the order of R300. -/
def State.withJob (s : State) (c : Cmd) (k : Job → State) : State :=
  match s.job? c.job with
  | none => s.refuse c 0x04 4
  | some j => if c.owns j then k j else s.refuse c 0x09 4

/-! ### POISONED_CMD (R471, R472) -/

def poisonedCmd (n : Nat) (s : State) : State :=
  if s.mayTake n then
    let a := s.headAddr n
    let (s', _, r) := s.readVia 19 a 64
    if r = .ok then s
    else
      let s := s'.popCmd n
      let s := if r = .poisoned then s.dramUe pgJsc (s.badLine 19 a 64) else s
      s.complete n 1 0xA0 0 0 0 0 []
  else s

def execPoisonedCmd (reel : Fin 32) (s : State) : Host.Outcome State Fault Refusal := .next (poisonedCmd reel.val s)

/-! ### Submission (R282, R283) -/

/-- REEL_DROPS. -/
def State.reelDrops (s : State) (n k : Nat) : State := s.satReg pgReels (0x300 + 4 * n) k

/-- The ring is full. -/
def State.reelFull (s : State) (n : Nat) : Bool := ringCount (s.reelLog n) (s.reel n).tail (s.reel n).head == 2 ^ s.reelLog n

/-- Copies a command into the ring at TAIL. -/
def State.pushCmd (s : State) (n : Nat) (session : Fin 256) (gen : BitVec 16) (bs : List Byte) : State :=
  let r := s.reel n
  let l := s.reelLog n
  let s := s.writeVia 19 (s.reelBase n + 64 * (r.tail % 2 ^ l)) (fitBytes 64 bs)
  s.setReel n { r with tail := ringNext l r.tail, tags := r.tags ++ [⟨r.tail % 2 ^ l, session, gen⟩] }

/-- A write of word `w` of SUBMIT[n]; word 15 submits. -/
def State.submitWord (s : State) (n w : Nat) (v : Word) (who : Requester) : State :=
  let r := s.reel n
  let win := mapPut r.win w v
  if w ≠ 15 then (if s.reelSource n = 2 then s else s.setReel n { r with win := win })
  else
    let s := s.setReel n { r with win := [] }
    match s.sessionOf who with
    | some i =>
      if win.length = 16 && s.reelOn n && s.reelSource n == 1 && !s.reelFull n then
        s.pushCmd n i (s.session i.val).gen (win.flatMap (fun p => leBytes 4 p.2.toNat))
      else s.reelDrops n 1
    | none => s.reelDrops n 1

/-! ### Enable, disable and detach (R281, R424) -/

/-- The reel is detached from its session; a resume may follow. -/
def State.detachReel (s : State) (n : Nat) : State := s.modReel n (fun r => { r with attached := none, ackOwed := false })

/-- ENABLE goes from 1 to 0: commands not taken are dropped, HEAD becomes TAIL. -/
def State.disableReel (s : State) (n log : Nat) : State :=
  let r := s.reel n
  let s := s.reelDrops n (ringCount log r.tail r.head)
  (s.setReel n { r with head := r.tail, tags := [] }).detachReel n

/-- ENABLE goes from 0 to 1. -/
def State.enableReel (s : State) (n : Nat) : State :=
  s.modReel n (fun r =>
    if r.reserved = 0 ∧ r.ctail = r.chead then { r with head := 0, tail := 0, chead := 0, ctail := 0, tags := [], sent := 0 }
    else r)

end Sys2Proof.Machine
end

