-- ==== Sys2Proof/Machine/Power.lean ====
section
/-! DEFINITION. Chapter "Power, Supply and Thermal Control" but for its resets and standby: operating points (R501 to
R504), the gaffer's ceiling, preference, cap and duty (R505 to R511), DEADLINE_RISK (R512), SET_CAP (R513), phase
learning (R514, R515), estimates and calibration (R516, R517), droop (R518), supply monitors (R520), thermal ceilings
(R523) and PROCHOT_N (R525). Estimates and measurements are free values or operands: the manual gives no coefficients. -/

namespace Sys2Proof.Machine

/-! ### Operating points (R501 to R504) -/

/-- Tensor clock in MHz. -/
def opMhz (op : Nat) : Nat := 300 + 60 * op
/-- Dynamic power relative to OP5, in thousandths. -/
def opRel (op : Nat) : Nat := ([269, 371, 494, 638, 807, 1000, 1252, 1541]).getD op 1541
/-- The fallback point (R503). -/
def fallback (op : Nat) : Nat := op - 1

def State.fixed (s : State) : Bool := bit (s.rn pgGaffer 0x100) 0
def State.boostEn (s : State) : Bool := bit (s.rn pgGaffer 0x100) 1
def State.opMin (s : State) (c : Nat) : Nat := bits (s.rn pgGaffer (0x110 + 4 * c)) 2 0
def State.opMax (s : State) (c : Nat) : Nat := bits (s.rn pgGaffer (0x110 + 4 * c)) 6 4
def State.idleOp (s : State) (c : Nat) : Nat := bits (s.rn pgGaffer (0x110 + 4 * c)) 10 8
/-- MAX_OP of the image in a slot (R185). -/
def State.imgMaxOp (s : State) (slot : Nat) : Nat := s.imgN slot 8 1

/-- Starts a change when the cluster makes none and its target is another point; a decision taken during a change waits
for its end (R503). -/
def State.actuate (s : State) (c : Nat) : State :=
  s.modCluster c (fun k =>
    if k.change = none ∧ k.target ≠ k.op then
      { k with change := some ⟨k.target, false⟩, quiet := false,
               idleLock := if k.idleLock = some k.target then k.idleLock else none }
    else k)

/-- OP_SWITCH: the clock switches; the idle PLL then holds the point just left. -/
def opSwitch (c : Nat) (s : State) : State :=
  let k := s.cluster c
  match k.change with
  | some ⟨dest, false⟩ =>
    (s.setCluster c { k with op := dest, change := some ⟨dest, true⟩, quiet := false,
                             idleLock := if k.op = fallback dest then some k.op else none }).incReg (pgCl c) 0x198
  | _ => s

def execOpSwitch (cl : Fin 8) (s : State) : Host.Outcome State Fault Refusal := .next (opSwitch cl.val s)

/-- OP_CHANGE_END: the idle PLL is locked at the new fallback point, and a decision that waited takes effect. -/
def opChangeEnd (c : Nat) (s : State) : State :=
  let k := s.cluster c
  match k.change with
  | some ⟨_, true⟩ =>
    (s.setCluster c { k with change := none, idleLock := some (fallback k.op), quiet := false }).actuate c
  | _ => s

def execOpChangeEnd (cl : Fin 8) (s : State) : Host.Outcome State Fault Refusal := .next (opChangeEnd cl.val s)

/-! ### Takes on a cluster, ceiling and preference (R303, R505, R506) -/

/-- Jobs with cores claimed in a cluster for a take, running or armed. -/
def State.takesOn (s : State) (c : Nat) : List Job := s.jobs.filter (fun j => j.cores.any (fun n => clusterOf n == c))

/-- The take waits for its dispatch. -/
def Job.isArmed (j : Job) : Bool := (j.cur.any (·.armed)) && !j.released

/-- Temperature of a sensor in quarter degrees (R532). -/
def State.temp (s : State) (i : Nat) : Int := sext 10 (s.rn pgThermal (0x800 + 4 * i))

/-- Every sensor reads below BOOST_C. -/
def State.coolForBoost (s : State) : Bool :=
  (List.range 48).all (fun i => decide (s.temp i < 4 * sext 8 (s.rn pgThermal 0x104)))

/-- The ceiling of R505; OP5 with FIXED in force (R504). -/
def State.ceilingOf (s : State) (c : Nat) : Nat :=
  if s.fixed then 5
  else
    let boost := if s.boostEn && s.coolForBoost then 7 else 5
    let hot := if s.power.prochot && !s.power.prochotEnd then bits (s.rn pgGaffer 0x404) 2 0 else 7
    ((s.jobs.filter (fun j => (j.cores ++ j.claimed).any (fun n => clusterOf n == c)))).foldl (fun m j => min m (s.imgMaxOp j.slot.val))
      (min (min (s.opMax c) boost) (min (s.cluster c).thermCeil hot))

/-- A claim lowers the ceiling at once (R303). -/
def State.claimCeiling (s : State) (c : Nat) : State :=
  let m := s.ceilingOf c
  (s.modCluster c (fun k => { k with ceiling := m, target := min k.target m })).actuate c

/-- The point in force and any change in progress allow a take of a MAX_OP in a cluster (R303). -/
def State.opAllows (s : State) (c maxOp : Nat) : Bool :=
  let k := s.cluster c
  k.op ≤ maxOp && (match k.change with | some g => decide (g.dest ≤ maxOp) | none => true)

/-- The phase table entry's PREF, COMPILED, DUR_US and P_OP (R529). -/
def State.phPref (s : State) (e : Nat) : Nat := s.winNat pgGaffer 32 e 3 1
def State.phCompiled (s : State) (e : Nat) : Nat := s.winNat pgGaffer 32 e 4 1
def State.phDur (s : State) (e : Nat) : Nat := s.winNat pgGaffer 32 e 24 4
def State.phPow (s : State) (e op : Nat) : Nat := s.winNat pgGaffer 32 e (8 + 2 * op) 2

/-- The preference of one take on a cluster. -/
def State.takePref (s : State) (c : Nat) (j : Job) : Nat :=
  let req := s.rn (pgCl c) 0x180
  if bit req 3 then bits req 2 0
  else
    match ((s.cluster c).phases.find? (fun p => p.job == j.id)).bind (·.act) with
    | some e => if j.isArmed then s.opMax c else if s.phPref e ≠ 0xFF then s.phPref e else s.phCompiled e
    | none => s.opMax c

/-- The target before the cap: preference with the shift of R507, clamped. -/
def State.wanted (s : State) (c : Nat) : Nat :=
  if s.fixed then 5
  else
    let ceil := s.ceilingOf c
    match s.takesOn c with
    | [] => min (s.idleOp c) ceil
    | js =>
      let p := max (js.foldl (fun m j => max m (s.takePref c j)) 0) (s.opMin c)
      let shift := bit (s.rn pgGaffer 0x100) 2 && bits (s.rn pgGaffer 0x100) 15 8 ≤ (s.cluster c).wait
      min (if shift then max (p - 1) (s.opMin c) else p) ceil

/-! ### Prediction and cap (R508 to R510, R515) -/

/-- Predicted power of a cluster at a point, mW. -/
def State.predict (s : State) (c op : Nat) : Nat :=
  let k := s.cluster c
  let est := s.power.est.getD c 0
  let third := est * opRel op / opRel k.op
  match s.takesOn c, k.phases with
  | [_], p :: _ =>
    if p.entry = 255 then third
    else if s.phPow p.entry op ≠ 0 then s.phPow p.entry op
    else
      let seen := (List.range 8).filter (fun o => s.phPow p.entry o ≠ 0)
      let dist (o : Nat) : Nat := (o - op) + (op - o)
      match seen with
      | [] => third
      | o :: os =>
        let o := os.foldl (fun b x => if dist x < dist b then x else b) o
        s.phPow p.entry o * opRel op / opRel o
  | _, _ => third

/-- The package at chosen targets. -/
def State.predictAll (s : State) (ts : List Nat) : Nat :=
  (ts.zipIdx.foldl (fun a t => a + s.predict t.2 t.1) 0) + s.power.est.getD 8 0 + s.power.est.getD 9 0 + s.power.est.getD 10 0

/-- Rank of a cluster in the order of R508; the least is lowered first. -/
def State.capRank (s : State) (c target : Nat) : Nat :=
  let js := s.takesOn c
  let cls := js.foldl (fun m j => max m (4 - j.cls)) 0
  let risk := js.any (fun j => j.cls == 0 && j.cur.any (·.risk))
  (((if risk then 5 else cls) * 128 + (127 - min 127 (s.cluster c).wait)) * 8 + (7 - target)) * 8 + (7 - c)

/-- The first cluster of the order among those `ok` admits. -/
def State.capFirst (s : State) (ts : List Nat) (ok : Nat → Nat → Bool) : Option Nat :=
  (ts.zipIdx.filter (fun t => ok t.2 t.1)).foldl (fun b t =>
    match b with
    | none => some t.2
    | some c => if s.capRank t.2 t.1 < s.capRank c (ts.getD c 0) then some t.2 else b) none

/-- The last cluster of the order among those `ok` admits. -/
def State.capLast (s : State) (ts : List Nat) (ok : Nat → Nat → Bool) : Option Nat :=
  (ts.zipIdx.filter (fun t => ok t.2 t.1)).foldl (fun b t =>
    match b with
    | none => some t.2
    | some c => if s.capRank c (ts.getD c 0) < s.capRank t.2 t.1 then some t.2 else b) none

/-- Lowers targets one step at a time until the prediction fits or every cluster is at OP0. -/
def State.capLower (s : State) (cap : Nat) : Nat → List Nat → List Nat
  | 0, ts => ts
  | n + 1, ts =>
    if s.predictAll ts ≤ cap then ts
    else match s.capFirst ts (fun _ t => 0 < t) with
      | none => ts
      | some c => s.capLower cap n (ts.set c (ts.getD c 0 - 1))

/-- The core holds an armed take, so it is never gated (R509). -/
def State.armedCore (s : State) (n : Nat) : Bool := s.jobs.any (fun j => j.isArmed && j.cores.contains n)

/-- A cluster may be gated where some present core of it holds no armed take (R509, R510). -/
def State.mayGate (s : State) (c : Nat) : Bool :=
  (List.range 16).any (fun i => corePresent s.fuse.grade (16 * c + i) && !s.armedCore (16 * c + i))

/-- A cluster's duty falls by 1/16, not below 1/16. -/
def State.dutyDown (s : State) (c : Nat) : State := s.modCluster c (fun k => { k with duty := max 1 (k.duty - 1) })

/-- A status flag of GAF_STATUS, with the cause it sets when it becomes 1 (R510, R516). -/
def State.gafFlag (s : State) (b cause : Nat) (v : Bool) : State :=
  let r := s.rn pgGaffer 0x140
  if bit r b = v then s
  else if v then (s.setRn pgGaffer 0x140 (r + 2 ^ b)).raise pgGaffer cause
  else s.setRn pgGaffer 0x140 (r - 2 ^ b)

/-- The cap at one update: targets, and duties when every cluster is at OP0 (or with FIXED in force). -/
def State.applyCap (s : State) (base : List Nat) : State :=
  let cap := s.rn pgGaffer 0x104
  let start := base.zipIdx.map (fun t => t.1 - min t.1 (s.cluster t.2).capSteps)
  let low := if s.fixed then start else s.capLower cap 64 start
  let above := cap < s.predictAll low
  let fits := 100 * s.predictAll low < 95 * cap
  -- undo one action when the prediction has fallen 5 % below the cap
  let dutyUp := if fits then s.capLast low (fun c _ => (s.cluster c).duty < 16) else none
  let opUp := if fits && dutyUp.isNone && !s.fixed then s.capLast low (fun c t => t < base.getD c 0) else none
  let fin := match opUp with | some c => low.set c (low.getD c 0 + 1) | none => low
  let s := (List.range 8).foldl (fun s c =>
    s.modCluster c (fun k => { k with target := fin.getD c 0, capSteps := base.getD c 0 - fin.getD c 0 })) s
  let s := if low ≠ start then s.incReg pgGaffer 0x15C else s
  let s := match dutyUp with | some c => s.modCluster c (fun k => { k with duty := k.duty + 1, capDuty := k.capDuty && k.duty != 15 }) | none => s
  let s := if above && (s.fixed || low.all (· == 0)) then
      match s.capFirst low (fun c _ => 1 < (s.cluster c).duty && s.mayGate c) with
      | some c => (s.dutyDown c).modCluster c (fun k => { k with capDuty := true })
      | none => s
    else s
  let s := s.gafFlag 0 0 ((List.range 8).any (fun c => decide ((s.cluster c).duty < 16) && (s.cluster c).capDuty))
  s.gafFlag 1 1 (above && (s.fixed || low.all (· == 0)) &&
    (List.range 8).all (fun c => !s.mayGate c || (s.cluster c).duty == 1))

/-! ### DEADLINE_RISK (R512) -/

/-- Physical clusters of a job. -/
def Job.physClusters (j : Job) : List Nat := j.placed.map (·.1)

/-- WCET_CYCLES and WAIT_NS of the image (R188). -/
def State.shWcet (s : State) (slot : Nat) : Nat := s.sheet slot 44 8
def State.shWaitNs (s : State) (slot : Nat) : Nat := s.sheet slot 52 4

/-- f_eff × 16 in MHz. -/
def State.fEff16 (s : State) (j : Job) : Nat :=
  j.physClusters.foldl (fun m c => min m (opMhz (s.cluster c).op * (s.cluster c).duty)) (720 * 16)

/-- The check of one running CUE run; E, a count of cycles, is a free value up to WCET_CYCLES. -/
def State.riskOf (s : State) (j : Job) : State :=
  match j.cur with
  | some r =>
    match r.start with
    | some st =>
      if j.cls = 0 ∧ j.deadlineUs ≠ 0 ∧ !r.risk ∧ j.released ∧ j.cores ≠ [] then
        let slot := j.slot.val
        let (s, e) := s.drawNat 64
        let left := s.shWcet slot - e % (s.shWcet slot + 1)
        let f := max 1 (s.fEff16 j)
        -- times in 1/256 ns from now; START lies in the past
        let run : Nat := left * 16000 * 256 / f + 256 * s.shWaitNs slot
        let started : Int := sext 40 (st.toNat + 2 ^ 40 - s.tk)
        if started + 256000 * (j.deadlineUs : Int) < (run : Int) then
          let lowOp := j.physClusters.foldl (fun m c => min m (s.cluster c).op) 7
          let lowDuty := j.physClusters.foldl (fun m c => min m (s.cluster c).duty) 16
          let rec_ := leBytes 1 0x41 ++ leBytes 1 lowOp ++ leBytes 1 lowDuty ++ leBytes 1 (ofBits j.physClusters) ++
            leBytes 2 j.id.toNat ++ leBytes 2 0 ++ leBytes 5 s.tk ++ leBytes 3 0 ++ leBytes 5 (s.tk + run) ++ leBytes 3 0 ++
            leBytes 5 (st.toNat + 256000 * j.deadlineUs) ++ leBytes 3 0
          let s := s.modJob j.id (fun j => { j with records := j.records ++ [rec_], cur := some { r with risk := true } })
          (s.setRn pgGaffer 0x158 j.id.toNat).raise pgGaffer 2
        else s
      else s
    | none => s
  | none => s

/-! ### Phases (R233, R506, R514) -/

/-- The present phase of a take on a cluster ends: SEEN and DUR_US of its entry. -/
def State.phaseEnds (s : State) (c : Nat) (job : BitVec 16) : State :=
  match (s.cluster c).phases.find? (fun p => p.job == job) with
  | none => s
  | some p =>
    let d := (s.uptime - p.start) / 256000
    let old := s.phDur p.entry
    let new : Int := if old = 0 then (d : Int) else (old : Int) + ((d : Int) - (old : Int)) / 8
    s.setWin pgGaffer 32 p.entry [(24, 4, (wrapTo 32 new)), (28, 4, (s.winNat pgGaffer 32 p.entry 28 4 + 1) % 2 ^ 32)]

/-- A take leaves a cluster: its phase is no longer in force. -/
def State.phaseDrop (s : State) (c : Nat) (job : BitVec 16) : State :=
  s.modCluster c (fun k => { k with phases := k.phases.filter (fun p => p.job != job) })

/-- PHASE of the reference core: the entry of the tag comes into force. A short phase is not acted on (R515). -/
def State.phaseStart (s : State) (c : Nat) (j : Job) (tag : Nat) : State :=
  match (j.phases.find? (fun p => p.1 = tag)).map (·.2) with
  | none => s
  | some e =>
    let old := (s.cluster c).phases.find? (fun p => p.job == j.id)
    let s := s.phaseEnds c j.id
    let short := s.phDur e ≠ 0 && s.phDur e < 40
    let act := if short then old.bind (·.act) else some e
    s.modCluster c (fun k => { k with phases := ⟨j.id, e, s.uptime, act⟩ :: k.phases.filter (fun p => p.job != j.id) })

/-- PHASE. The reference core on a cluster is logical local core 0. -/
def phase (n : Nat) (s : State) : State :=
  s.issue n .xe (isOp 0x07) (fun w s =>
    let s := s.adv n .xe
    match s.coreJob n with
    | none => s
    | some j =>
      if (s.core n).lcore % s.shCores j.slot.val = 0 then s.phaseStart (clusterOf n) j (bits w 52 48) else s)

def execPhase (core : Fin 128) (s : State) : Host.Outcome State Fault Refusal := .next (phase core.val s)

/-! ### GAFFER_UPDATE -/

/-- Calibrated estimates of the eleven groups and their sum (R516). -/
def State.newEstimates (s : State) : State :=
  let draw := (List.range 11).foldl (fun (a : State × List Nat) _ =>
    ((a.1.drawNat 20).1, a.2 ++ [(a.1.drawNat 20).2])) (s, [])
  let s := draw.1
  let raw := draw.2
  let est := List.zipWith (fun x g => x * g / 16384) raw s.power.gains
  let sum := est.foldl (· + ·) 0
  let win := lastN 100 (s.power.windowEst ++ [sum])
  let s := { s with power := { s.power with
    est := est, windowEst := win, estSum := List.zipWith (fun (p : Nat × Nat) x => (p.1 + x, p.2 + 1)) s.power.estSum raw } }
  (s.setRn pgGaffer 0x144 sum).setRn pgGaffer 0x148 (win.foldl (· + ·) 0 / win.length)

/-- Learns P_OP of the point in force (R514). -/
def State.learn (s : State) (c : Nat) : State :=
  let k := s.cluster c
  match (s.takesOn c).filter (fun j => !j.isArmed), k.phases with
  | [_], p :: _ =>
    if k.quiet && k.change == none && !k.stretched && k.duty == 16 then
      let x := s.power.est.getD c 0
      let old := s.phPow p.entry k.op
      let new : Int := if old = 0 then (x : Int) else (old : Int) + ((x : Int) - (old : Int)) / 16
      s.setWin pgGaffer 32 p.entry [(8 + 2 * k.op, 2, wrapTo 16 new)]
    else s
  | _, _ => s

/-- SET_CAP takes effect: the last one counts, and each gets its CMD_DONE (R513). -/
def State.applySetCap (s : State) : State :=
  let ps := s.power.capPending
  let s := { s with power := { s.power with capPending := [] } }
  ps.foldl (fun s p =>
    let s := s.setRn pgGaffer 0x104 p.2.2.2
    let s := s.auditIfLocked 1 (.jsc p.2.2.1) pgGaffer 0 0x104 (w32 p.2.2.2) 0
    (s.complete p.1 1 0 p.2.1 0 0x0A 0 []).modReel p.1 (fun r => { r with busy := false })) s

/-- GAFFER_UPDATE. -/
def gafferUpdate (s : State) : State :=
  let s := s.applySetCap
  let s := if s.power.prochotEnd then { s with power := { s.power with prochot := false, prochotEnd := false } } else s
  let s := s.newEstimates
  let s := (List.range 8).foldl (fun s c => s.learn c) s
  let hold := s.uptime < s.power.sagHoldUntil
  let base := (List.range 8).map (fun c => if hold then min (s.wanted c) (s.cluster c).op else s.wanted c)
  let s := (List.range 8).foldl (fun s c => s.modCluster c (fun k => { k with ceiling := s.ceilingOf c, quiet := true })) s
  let s := s.applyCap base
  let s := (List.range 8).foldl (fun s c => s.actuate c) s
  s.jobs.foldl (fun s j => s.riskOf j) s

def execGafferUpdate (s : State) : Host.Outcome State Fault Refusal := .next (gafferUpdate s)

/-- SET_CAP (R513). -/
def setCap (n : Nat) (s : State) : State :=
  s.takeCmd n (opIs 0x0A) (fun c s =>
    let cap := fld c.bytes 8 4
    if cap < 20000 ∨ s.rn pgGaffer 0x400 < cap then s.refuse c 0x61 8
    else
      { s with
        staged := mapDel s.staged (rkey pgGaffer 0x104)
        power := { s.power with capPending := s.power.capPending ++ [(n, c.seq, c.session, cap)] } }.modReel n
          (fun r => { r with busy := true }))

def execSetCap (reel : Fin 32) (s : State) : Host.Outcome State Fault Refusal := .next (setCap reel.val s)

/-! ### Gating, waits, calibration (R507, R509, R516, R517) -/

/-- GATING_SLOT: every cluster's next 1 µs slot of sixteen. -/
def gatingSlot (s : State) : State :=
  (List.range 8).foldl (fun s c =>
    s.modCluster c (fun k =>
      let i := (k.slot16 + 1) % 16
      let g := decide (k.duty ≤ i) && s.mayGate c
      { k with slot16 := i, gated := g, quiet := k.quiet && !g })) s

def execGatingSlot (s : State) : Host.Outcome State Fault Refusal := .next (gatingSlot s)

/-- BAR_WAIT_WINDOW: of each cluster, XE cycles waiting at BAR or SLATE and XE cycles in all. -/
def barWaitWindow (waits : List (Nat × Nat)) (s : State) : State :=
  (List.range 8).foldl (fun s c =>
    let p := waits.getD c (0, 0)
    s.modCluster c (fun k => { k with wait := if p.2 = 0 then 0 else min 100 (100 * p.1 / p.2) })) s

def execBarWaitWindow (waits : List (Nat × Nat)) (s : State) : Host.Outcome State Fault Refusal := .next (barWaitWindow waits s)

/-- The group's telemetry comes over PMBus and one of its regulators has no address (R517). -/
def State.noRegulator (s : State) (g : Nat) : Bool :=
  let a := s.rn pgGaffer 0x13C
  if g = 9 then bits a 6 0 == 0 || bits a 14 8 == 0
  else if g = 10 then bits a 22 16 == 0 || bits a 30 24 == 0
  else false

/-- The new gain of a group: g + (P_meas / P_est - g) / 8, in u2.14 between 0.5 and 2.0. -/
def newGain (g meas : Nat) (est : Nat × Nat) : Option Nat :=
  if est.1 = 0 ∨ est.2 = 0 then none
  else
    let ratio : Int := ((meas * 16384 * est.2 / est.1 : Nat) : Int)
    some (clampI 0x2000 0x8000 ((g : Int) + (ratio - (g : Int)) / 8)).toNat

/-- CALIBRATION_UPDATE: measured power of each group, none where its regulator did not answer. -/
def calibrationUpdate (meas : List (Option Nat)) (s : State) : State :=
  let s := (List.range 11).foldl (fun s g =>
    let p := s.power
    match s.noRegulator g, meas.getD g none with
    | true, _ => { s with power := { p with gains := p.gains.set g 0x4000, failReads := p.failReads.set g 0 } }
    | false, none => { s with power := { p with failReads := p.failReads.set g (min 3 (p.failReads.getD g 0 + 1)) } }
    | false, some m =>
      let (s, f) := s.drawNat 14
      let g' := (newGain (p.gains.getD g 0x4000) m (p.estSum.getD g (0, 0))).getD (0x2000 + f)
      { s with power := { s.power with gains := p.gains.set g g', failReads := p.failReads.set g 0 } }) s
  let s := { s with power := { s.power with estSum := List.replicate 11 (0, 0) } }
  let s := s.setRn pgGaffer 0x14C (meas.foldl (fun a m => a + m.getD 0) 0)
  let s := (List.range 11).foldl (fun s g => s.setRn pgGaffer (0x160 + 4 * g) (s.power.gains.getD g 0x4000)) s
  -- 0.8 and 1.25 in u2.14
  let s := s.gafFlag 6 4 (s.power.gains.any (fun g => 5 * g < 4 * 16384 || 5 * 16384 < 4 * g))
  s.gafFlag 5 5 (s.power.failReads.any (· == 3))

def execCalibrationUpdate (meas : List (Option Nat)) (s : State) : Host.Outcome State Fault Refusal :=
  .next (calibrationUpdate meas s)

/-! ### Droop and supply monitors (R518 to R520) -/

/-- DROOP_DETECT. -/
def droopDetect (c : Nat) (s : State) : State :=
  if (s.cluster c).stretched then s
  else (s.modCluster c (fun k => { k with stretched := true, quiet := false })).incReg (pgCl c) 0x18C

def execDroopDetect (cl : Fin 8) (s : State) : Host.Outcome State Fault Refusal := .next (droopDetect cl.val s)

/-- DROOP_RECOVER, with the number of stretched cycles. -/
def droopRecover (c n : Nat) (s : State) : State :=
  if (s.cluster c).stretched then
    (s.modCluster c (fun k => { k with stretched := false, quiet := false })).incReg (pgCl c) 0x190 n
  else s

def execDroopRecover (cl : Fin 8) (stretched : Nat) (s : State) : Host.Outcome State Fault Refusal :=
  .next (droopRecover cl.val stretched s)

/-- A cluster goes to its fallback point, or one duty step down with FIXED in force (R504, R520, R525). -/
def State.toFallback (s : State) (c : Nat) : State :=
  if s.fixed then s.dutyDown c
  else (s.modCluster c (fun k => { k with target := min k.target (fallback k.op) })).actuate c

/-- An event that explains charged faults of the next 1 ms (R485). -/
def State.explains (s : State) : State := { s with power := { s.power with explainUntil := s.uptime + 256000000 } }

/-- SAG_WARN (R520). -/
def sagWarn (r : Nat) (s : State) : State :=
  if bit (s.rn pgSupply (0x100 + 4 * r)) 16 then
    let s := ((s.setRn pgSupply 0x184 r).setRn pgSupply 0x188 (s.tk / 256)).incReg pgSupply 0x18C
    let s := s.raise pgSupply 0
    let s := if r < 8 ∨ r = 9 ∨ r = 15 then s.explains else s
    let s := if r < 8 then s.toFallback r else s
    { s with power := { s.power with sagHoldUntil := s.uptime + 256000000 } }
  else s

def execSagWarn (rail : Fin 16) (s : State) : Host.Outcome State Fault Refusal := .next (sagWarn rail.val s)

/-! ### Thermal sensors and PROCHOT_N (R522 to R525, R532) -/

/-- THERMAL_SAMPLE: 48 readings of 0.25 °C. -/
def thermalSample (readings : List (BitVec 10)) (s : State) : State :=
  let s := (List.range 48).foldl (fun s i => s.setRn pgThermal (0x800 + 4 * i) (readings.getD i 0).toNat) s
  let t (i : Nat) : Int := s.temp i
  let hottest := (List.range 48).foldl (fun b i => if t b < t i then i else b) 0
  let throt := 4 * sext 8 (s.rn pgThermal 0x100)
  let hot := (List.range 48).filter (fun i => decide (460 ≤ t i))
  let p := s.power
  let s := { s with power := { p with
    prevHot := hot
    twice := hot.filter p.prevHot.contains
    hot100 := (List.range 48).foldl (fun l i => if throt ≤ t i then insN l i else l) p.hot100
    warm1ms := (List.range 48).foldl (fun l i => if throt - 12 ≤ t i then insN l i else l) p.warm1ms
    peak := some (match p.peak with | some x => max x (t hottest / 4) | none => t hottest / 4) } }
  let s := s.setRn pgThermal 0x108 (wrapTo 8 (t hottest / 4) + 256 * hottest)
  if 440 ≤ t hottest then s.raise pgThermal 1 else s

def execThermalSample (readings : List (BitVec 10)) (s : State) : Host.Outcome State Fault Refusal :=
  .next (thermalSample readings s)

/-- Sensors that a cluster's thermal ceiling looks at. -/
def thermSensors (c : Nat) : List Nat := (List.range 4).map (4 * c + ·) ++ (List.range 16).map (32 + ·)

/-- THERMAL_CEILING_WINDOW: the end of a 100 µs window, and of a 1 ms window when `long`. -/
def thermalCeilingWindow (long : Bool) (s : State) : State :=
  let p := s.power
  let s := (List.range 8).foldl (fun s c =>
    let k := s.cluster c
    if (thermSensors c).any p.hot100.contains then
      let s := s.modCluster c (fun k => { k with thermCeil := k.thermCeil - 1 })
      let s := if k.thermCeil = 7 then s.raise pgThermal 0 else s
      if s.fixed && decide (k.thermCeil - 1 < 5) then s.dutyDown c else s
    else if long && !(thermSensors c).any p.warm1ms.contains then
      s.modCluster c (fun k => { k with thermCeil := min 7 (k.thermCeil + 1) })
    else s) s
  { s with power := { s.power with hot100 := [], warm1ms := if long then [] else p.warm1ms } }

def execThermalCeilingWindow (long : Bool) (s : State) : Host.Outcome State Fault Refusal :=
  .next (thermalCeilingWindow long s)

/-- PROCHOT_ASSERT: PROCHOT_N has been low for 1 µs. -/
def prochotAssert (s : State) : State :=
  let s := { s with power := { s.power with prochot := true, prochotEnd := false } }
  let s := (s.explains).raise pgGaffer 3
  (List.range 8).foldl (fun s c =>
    if s.fixed then s.modCluster c (fun k => { k with duty := 1 }) else s.toFallback c) s

def execProchotAssert (s : State) : Host.Outcome State Fault Refusal := .next (prochotAssert s)

/-- PROCHOT_RELEASE: lifted at the next update. -/
def prochotRelease (s : State) : State :=
  if s.power.prochot then { s with power := { s.power with prochotEnd := true } } else s

def execProchotRelease (s : State) : Host.Outcome State Fault Refusal := .next (prochotRelease s)

end Sys2Proof.Machine
end

