-- ==== Sys2Proof/Machine/Load.lean ====
section
/-! DEFINITION. LOAD_IMAGE: the copy into the program slot with its line tags (R190, R294, R467) and SEC's verification
with every refusal of R187 in the order of the reason codes of R300. The trailer of the image (R537) stays with SEC until
the verification ends; the region holds every byte before it. -/

namespace Sys2Proof.Machine

/-! ### Keys and trailers (R537, R551) -/

/-- Bytes of a trailer: public key and signature. -/
def pubLen : Nat := 2592
def trailerLen : Nat := 7219

/-- The ASCII bytes of a context string. -/
def ctxBytes (c : String) : List Byte := c.toList.map (fun x => BitVec.ofNat 8 x.toNat)

/-- A public key is a maker key that may sign (R537). -/
def State.makerKey (s : State) (pub : List Byte) : Bool :=
  let d := Config.sha3 pub
  (s.fuse.rootValid && !s.fuse.rootRevoked && d == s.fuse.rootHash) ||
    (s.fuse.oemValid && !s.fuse.oemRevoked && d == s.fuse.oemHash)

/-- A public key is the installer key in force. -/
def State.installerKey (s : State) (pub : List Byte) : Bool := s.sec.keys.installer == some pub

/-- The trailer of a signed object verifies over every byte before its signature. -/
def trailerOk (ctx : String) (body trailer : List Byte) : Bool :=
  let pub := trailer.take pubLen
  trailer.length == trailerLen &&
    Config.mldsaVerify pub (ctxBytes ctx) (Config.sha3 (body ++ pub)) (trailer.drop pubLen)

/-! ### What an instruction word may hold (R209 to R214) -/

/-- Operand bits of an opcode, as ranges [hi:lo]; none where the opcode is reserved. -/
def opBits : Nat → Option (List (Nat × Nat))
  | 0x00 => some []
  | 0x01 => some [(42, 0)]
  | 0x02 => some []
  | 0x03 => some [(52, 32)]
  | 0x04 => some [(52, 31)]
  | 0x05 => some [(52, 17)]
  | 0x06 => some [(52, 17)]
  | 0x07 => some [(52, 48)]
  | 0x08 => some []
  | 0x09 => some [(52, 48), (31, 0)]
  | 0x10 => some [(52, 26)]
  | 0x11 => some [(52, 51), (49, 26)]
  | 0x12 => some [(52, 49), (45, 14)]
  | 0x13 => some [(45, 26)]
  | 0x14 => some [(50, 49), (45, 14)]
  | 0x15 => some [(52, 48), (45, 26), (5, 0)]
  | 0x16 => some [(52, 48), (45, 26), (5, 0)]
  | 0x17 => some [(52, 51), (45, 26)]
  | 0x18 => some [(52, 44)]
  | 0x20 => some [(52, 16)]
  | 0x21 => some [(52, 10)]
  | 0x22 => some [(52, 20)]
  | 0x23 => some [(52, 16)]
  | 0x24 => some [(52, 30)]
  | 0x25 => some [(48, 30), (21, 20)]
  | 0x26 => some [(52, 37)]
  | 0x27 => some [(52, 49), (45, 24)]
  | 0x28 => some [(52, 47)]
  | _ => none

/-- Reserved operand bits that are set. -/
def badBits (w : Nat) : Bool :=
  match opBits (bits w 63 58) with
  | none => false
  | some rs => (List.range 53).any (fun b => bit w b && !rs.any (fun r => r.2 ≤ b && b ≤ r.1))

/-- The opcode stands in its stream. -/
def inStream (e : Engine) (w : Nat) : Bool :=
  let op := bits w 63 58
  (opBits op).isSome && (match e with
    | .fe => op ≤ 0x18 && op ≠ 0x07 && op ≠ 0x09
    | .xe => op ≤ 0x09 || 0x20 ≤ op)

/-- Operand values that R211, R205 and R214 refuse; HOLD belongs to the XE alone. -/
def badOperands (e : Engine) (w : Nat) : Bool :=
  let op := bits w 63 58
  let q3 (hi : Nat) : Bool := bits w hi (hi - 1) == 3
  bits w 57 55 == 7 ||
    ((op == 0x10 || op == 0x11 || op == 0x12 || op == 0x17) && q3 52) ||
    ((op == 0x12 || op == 0x14) && bits w 50 49 == 3) ||
    ((op == 0x20 || op == 0x21) && (q3 52 || q3 48 || (bit w 50 && bit w 49) || (bit w 46 && bit w 45) ||
      bits w 25 16 == 0 || 6 ≤ bits w 39 37)) ||
    (op == 0x22 && (q3 48 || (bit w 46 && bit w 45) || 4 ≤ bits w 44 42)) ||
    (op == 0x23 && (0x14 < bits w 52 45 || bits w 18 17 == 3 || bits w 29 28 == 3 ||
      (bits w 52 45 == 0x0E && bits w 18 17 == 2) || (bits w 29 28 == 1 && bit w 27) ||
      (bits w 52 45 == 0x0F && 11 ≤ bits w 22 19 && bits w 22 19 ≤ 14) ||
      ((bits w 52 45 == 0x0A || bits w 52 45 == 0x0B) && bits w 18 17 == 0))) ||
    ((op == 0x24 || op == 0x27 || op == 0x28) && (q3 52 || (bit w 50 && bit w 49))) ||
    (op == 0x27 && bits w 33 24 == 0) ||
    (e == .fe && ((op == 0x03 && bits w 47 32 != 0) || (op == 0x04 && bits w 46 31 != 0) ||
      ((op == 0x05 || op == 0x06) && bits w 32 17 != 0)))

/-- Loops of a stream (R216): the first instruction that breaks the nesting, and how many levels are open at each. -/
def loopScan : List Nat → Nat → Nat → List Nat → List Nat → Option Nat × List Nat
  | [], _, _, stack, ds => (if stack.isEmpty then none else some 0, ds)
  | w :: ws, i, len, stack, ds =>
    let op := bits w 63 58
    let top := stack.headD len
    if op = 0x02 then
      if top = i then loopScan ws (i + 1) len (stack.drop 1) (ds ++ [stack.length]) else (some i, ds)
    else if top = i then (some i, ds)
    else if op = 0x01 then
      let e := i + bits w 15 0
      if stack.length = 4 ∨ bits w 15 0 < 2 ∨ len ≤ e ∨ top ≤ e then (some i, ds)
      else loopScan ws (i + 1) len (e :: stack) (ds ++ [stack.length])
    else loopScan ws (i + 1) len stack (ds ++ [stack.length])

/-! ### Refusals -/

/-- A refusal: reason code and image offset of the failing field. -/
abbrev Ref := Option (Nat × Nat)

/-- The first refusal of a list. -/
def firstRef : List Ref → Ref
  | [] => none
  | some r :: _ => some r
  | none :: l => firstRef l

/-- A refusal when a condition holds. -/
def refIf (b : Bool) (code off : Nat) : Ref := if b then some (code, off) else none

/-- Image offset of an entry of a section. -/
def State.entOff (s : State) (slot ty size i : Nat) : Nat := s.secOff slot ty + size * i

/-- Entries of a section. -/
def State.entries (s : State) (slot ty size : Nat) : List (Nat × List Byte) :=
  (List.range (s.secLen slot ty / size)).map (fun i => (i, s.secBytes slot ty (size * i) size))

/-- Bytes [lo, hi) of a structure are 0. -/
def zeroIn (b : List Byte) (lo hi : Nat) : Bool := fld b lo (hi - lo) == 0

def State.descs (s : State) (slot : Nat) : List (Nat × List Byte) :=
  (List.range (s.nDesc slot)).map (fun i => (i, s.descImg slot i))

/-- TYPE of a descriptor; 8 where there is none. -/
def State.dType (s : State) (slot h : Nat) : Nat := if h < s.nDesc slot then bits (fld (s.descImg slot h) 0 4) 2 0 else 8

/-- Words of both streams with their engine and index. -/
def State.allWords (s : State) (slot : Nat) : List (Engine × Nat × Nat) :=
  ((s.stream slot .fe).zipIdx.map (fun p => (.fe, p.2, p.1))) ++ ((s.stream slot .xe).zipIdx.map (fun p => (.xe, p.2, p.1)))
def State.wordOff (s : State) (slot : Nat) (e : Engine) (i : Nat) : Nat := s.entOff slot (streamTy e) 8 i

/-- The first instruction that a condition holds of. -/
def State.refWord (s : State) (slot code : Nat) (p : Engine → Nat → Nat → Bool) : Ref :=
  ((s.allWords slot).find? (fun x => p x.1 x.2.1 x.2.2)).map (fun x => (code, s.wordOff slot x.1 x.2.1))

/-- Sections the image must hold (R186), and the sizes its entries allow. -/
def State.needs (s : State) (slot ty : Nat) : Bool :=
  let ops := (s.allWords slot).map (fun x => (bits x.2.2 63 58, x.2.2))
  if ty ≤ 4 ∨ ty = 15 then true
  else if ty = 6 then ops.any (fun o => o.1 == 5 || o.1 == 6)
  else if ty = 7 then ops.any (fun o => o.1 == 3)
  else if ty = 9 then ops.any (fun o => o.1 == 0x21)
  else if ty = 10 then ops.any (fun o => o.1 == 0x11 || (o.1 == 0x10 && bit o.2 50))
  else if ty = 12 then (s.descs slot).any (fun d => bits (fld d.2 0 4) 2 0 == 1 && bit (fld d.2 4 4) 6)
  else false

/-- A section's LENGTH agrees with its entries (R185, R186). -/
def State.secSizeOk (s : State) (slot ty n : Nat) : Bool :=
  if ty = 1 then n == 256
  else if ty = 2 then n == 8 * s.imgN slot 12 4
  else if ty = 3 then n == 8 * s.imgN slot 16 4
  else if ty = 4 then n == 64 * s.imgN slot 10 2
  else if ty = 5 then n % 64 == 0 && n ≤ 64 * 256
  else if ty = 6 then n % 128 == 0 && n ≤ 128 * 256
  else if ty = 7 then n % 48 == 0 && n ≤ 48 * 16
  else if ty = 8 then n == 128
  else if ty = 9 then n % 16 == 0 && n ≤ 16 * 64
  else if ty = 10 then n % 16 == 0 && n ≤ 16 * 16
  else if ty = 13 then n % 1036 == 0
  else if ty = 14 then n % 2 == 0 && n ≤ 512
  else if ty = 15 then n == trailerLen
  else true

/-- HEADER (R185, R186, R187, R188). -/
def State.chkHeader (s : State) (slot len : Nat) : Ref :=
  let h (o n : Nat) : Nat := s.imgN slot o n
  let ns := h 9 1
  let sec (i : Nat) : Nat × Nat × Nat := (h (256 + 16 * i) 4, h (260 + 16 * i) 4, h (264 + 16 * i) 4)
  let secs := (List.range (min ns 16)).map sec
  let base := firstRef
    [refIf (h 0 4 != 0x3156485A) 0x11 0, refIf (h 4 2 != 1) 0x11 4, refIf (7 < h 8 1) 0x11 8,
     refIf (ns == 0 || 16 < ns) 0x11 9, refIf (h 10 2 == 0 || 4096 < h 10 2) 0x11 10,
     refIf (h 12 4 == 0 || 1048576 < h 12 4) 0x11 12, refIf (h 16 4 == 0 || 1048576 < h 16 4) 0x11 16,
     refIf (h 20 4 != len) 0x11 20]
  let table := (secs.zipIdx.find? (fun p =>
    let (ty, o, n) := p.1
    ty == 0 || 15 < ty || o % 64 != 0 || o < 256 + 16 * ns || len < o + n || !s.secSizeOk slot ty n ||
      (ty == 15 && o + n != len) ||
      secs.zipIdx.any (fun q => q.2 != p.2 && (q.1.1 == ty || meets o n q.1.2.1 q.1.2.2)))).map
        (fun p => (0x11, 256 + 16 * p.2))
  match base.or table with
  | some r => some r
  | none =>
    let retry := (s.descs slot).any (fun d => bits (fld d.2 0 4) 2 0 == 2 && bit (fld d.2 4 4) 5)
    let co := s.secOff slot 1
    let c (o n : Nat) : Nat := s.sheet slot o n
    firstRef
      ([refIf ((List.range 16).any (fun ty => ty != 0 && s.needs slot ty && (s.section? slot ty).isNone)) 0x11 256,
        refIf (bit (h 6 2) 0 != bit (c 128 4) 6) 0x11 6, refIf (bit (h 6 2) 1 != retry) 0x11 6,
        refIf (c 0 2 == 0 || 8 < c 0 2) 0x11 co, refIf (c 2 2 == 0 || 16 < c 2 2) 0x11 (co + 2),
        refIf (786432 < c 4 4) 0x11 (co + 4), refIf (c 8 1 == 0 || 16 < c 8 1) 0x11 (co + 8),
        refIf (4194304 < c 12 4) 0x11 (co + 12), refIf (64 < c 24 2) 0x11 (co + 24)] ++
       (List.range 8).map (fun m => refIf (16777216 ≤ c (96 + 4 * m) 4) 0x11 (co + 96 + 4 * m)))

/-- Reserved fields of a descriptor (R177, R193, R194, R197). -/
def descReserved (d : List Byte) : Bool :=
  let hd := fld d 0 4
  let c := fld d 4 4
  let hi40 (o : Nat) : Bool := fld d (o + 5) 3 != 0
  16 ≤ hd ||
    (match hd % 8 with
     | 0 => !zeroIn d 4 64
     | 1 => 4096 ≤ c || hi40 8 || 4096 ≤ fld d 16 2 || !zeroIn d 18 20 || hi40 56
     | 2 => bits c 7 6 != 0 || 0x1000000 ≤ c || !zeroIn d 20 24 || hi40 24 || hi40 32 || hi40 40 || !zeroIn d 48 64
     | 3 => !zeroIn d 24 64
     | 4 => hi40 4 || !zeroIn d 20 64
     | _ => false)

/-- RESERVED_FIELD. -/
def State.chkReserved (s : State) (slot : Nat) : Ref :=
  let co := s.secOff slot 1
  let sh := s.secBytes slot 1 0 256
  let tab (ty size : Nat) (bad : List Byte → Bool) : Ref :=
    ((s.entries slot ty size).find? (fun e => bad e.2)).map (fun e => (0x12, s.entOff slot ty size e.1))
  firstRef
    [refIf (4 ≤ s.imgN slot 6 2) 0x12 6, refIf (s.imgN slot 96 160 != 0) 0x12 96,
     ((List.range (s.imgN slot 9 1)).find? (fun i => s.imgN slot (268 + 16 * i) 4 != 0)).map (fun i => (0x12, 268 + 16 * i)),
     refIf (fld sh 9 1 != 0) 0x12 (co + 9),
     ((List.range 4).find? (fun q => fld sh (71 + 8 * q) 1 != 0)).map (fun q => (0x12, co + 71 + 8 * q)),
     refIf (128 ≤ fld sh 128 4) 0x12 (co + 128), refIf (!zeroIn sh 136 256) 0x12 (co + 136),
     ((s.descs slot).find? (fun d => descReserved d.2)).map (fun d => (0x12, s.entOff slot 4 64 d.1)),
     tab 5 64 (fun m => 2 ≤ fld m 0 4 || (List.range 5).any (fun i => 8 ≤ fld m (14 + 12 * i) 1)),
     tab 6 128 (fun e => 16 ≤ fld e 82 1 || !zeroIn e 83 128),
     tab 7 48 (fun e => !zeroIn e 1 8 || !zeroIn e 40 48),
     tab 8 4 (fun e => !zeroIn e 1 4),
     tab 9 16 (fun e => !zeroIn e 10 16),
     tab 10 16 (fun e => !zeroIn e 1 2 || !zeroIn e 4 16),
     s.refWord slot 0x12 (fun _ _ w => badBits w)]

/-- LOOP_NEST and PREDICATE. -/
def State.chkLoops (s : State) (slot : Nat) : Ref :=
  let go (e : Engine) : Ref := ((loopScan (s.stream slot e) 0 (s.streamLen slot e) [] []).1).map (fun i => (0x14, s.wordOff slot e i))
  (go .fe).or (go .xe)

def State.chkPredicates (s : State) (slot : Nat) : Ref :=
  let go (e : Engine) : Ref :=
    let ds := (loopScan (s.stream slot e) 0 (s.streamLen slot e) [] []).2
    (((s.stream slot e).zipIdx).find? (fun p => bits p.1 57 55 != 0 && ds.getD p.2 0 ≤ bits p.1 54 53)).map
      (fun p => (0x15, s.wordOff slot e p.2))
  (go .fe).or (go .xe)

/-- A descriptor that breaks R187, R193, R194 or R197. -/
def State.descBad (s : State) (slot h : Nat) (d : List Byte) : Bool :=
  let hd := fld d 0 4
  let ty := hd % 8
  let c := fld d 4 4
  let fmt := bits c 5 2
  (h == 0 && ty != 0) || 4 < ty || bit hd 3 != (ty == 2 && bit c 4) ||
    (ty == 1 && ((11 ≤ fmt && fmt ≤ 14) || 2 ≤ bits c 8 7 || bits c 11 9 == 0 || 5 < bits c 11 9 ||
      (if 8 ≤ fmt && fmt != 9 || fmt == 9 then fld d 16 2 % 4096 != 0 else s.dType slot (fld d 16 2 % 4096) != 2))) ||
    (ty == 3 && (s.dType slot (fld d 4 2) != 2 || s.dType slot (fld d 6 2) != 2 || s.dType slot (fld d 8 2) != 2 ||
      1 < s.dType slot (fld d 10 2) || 1 < s.dType slot (fld d 20 4)))

/-- HANDLE. -/
def State.chkHandles (s : State) (slot : Nat) : Ref :=
  firstRef
    [((s.descs slot).find? (fun d => s.descBad slot d.1 d.2)).map (fun d => (0x16, s.entOff slot 4 64 d.1)),
     ((s.entries slot 14 2).find? (fun e =>
       let h := fld e.2 0 2
       s.dType slot h == 8 || bit (fld (s.descImg slot h) 0 4) 3)).map (fun e => (0x16, s.entOff slot 14 2 e.1)),
     s.refWord slot 0x16 (fun _ _ w =>
       let op := bits w 63 58
       let td := bits w 45 34
       let tensor (h : Nat) : Bool := s.dType slot h == 1
       if op == 0x10 || op == 0x11 || op == 0x13 then !tensor td
       else if op == 0x12 || op == 0x14 then
         let itd := bits w 25 14
         let f := bits (fld (s.descImg slot itd) 4 4) 5 2
         !tensor td || !tensor itd || !(f == 8 || f == 9)
       else if op == 0x15 || op == 0x16 then
         if bits w 33 26 == 255 then s.dType slot td == 0 || 4 < s.dType slot td else !tensor td
       else if op == 0x17 then s.dType slot td != 3
       else if op == 0x27 then s.dType slot td != 2
       else false)]

/-- TABLE_INDEX. -/
def State.chkTables (s : State) (slot : Nat) : Ref :=
  let n (ty size : Nat) : Nat := s.secLen slot ty / size
  s.refWord slot 0x17 (fun _ _ w =>
    let op := bits w 63 58
    ((0x10 ≤ op && op ≤ 0x17) && n 5 64 ≤ bits w 33 26 && !((op == 0x15 || op == 0x16) && bits w 33 26 == 255)) ||
      ((op == 5 || op == 6) && n 6 128 ≤ bits w 40 33) ||
      (op == 3 && n 7 48 ≤ bits w 51 48) || (op == 7 && n 8 4 ≤ bits w 52 48) ||
      (op == 0x21 && n 9 16 ≤ bits w 15 10) ||
      ((op == 0x11 || (op == 0x10 && bit w 50)) && n 10 16 ≤ bits w 49 46) ||
      (op == 4 && s.sheet slot 24 2 ≤ bits w 52 47))

/-- END_MISPLACED. -/
def State.chkEnd (s : State) (slot : Nat) : Ref :=
  s.refWord slot 0x18 (fun e i w => (bits w 63 58 == 8) != (i + 1 == s.streamLen slot e))

/-- IDs of the SLATEs (5) or YIELDs (6) of a stream. -/
def State.ids (s : State) (slot : Nat) (e : Engine) (op : Nat) : List Nat :=
  ((s.stream slot e).filter (isOp op)).map (fun w => bits w 52 41)

/-- SLATE_IDS. -/
def State.chkSlateIds (s : State) (slot : Nat) : Ref :=
  let dup (e : Engine) (op : Nat) : Bool := !decide (s.ids slot e op).Nodup
  let a := s.ids slot .fe 5
  let b := s.ids slot .xe 5
  firstRef
    [refIf (dup .fe 5 || dup .fe 6) 0x19 (s.secOff slot 2), refIf (dup .xe 5 || dup .xe 6) 0x19 (s.secOff slot 3),
     refIf (!(a.all b.contains && b.all a.contains)) 0x19 (s.secOff slot 3)]

/-! ### Side data (R164, R165) -/

/-- Dyadic numbers are equal. -/
def dyEq (a b : Int × Int) : Bool :=
  let m := min a.2 b.2
  a.1 * 2 ^ (a.2 - m).toNat == b.1 * 2 ^ (b.2 - m).toNat

/-- What the side data of a weight tensor is held against: the tensor, its block exponents, and where the image holds its
weights, their plane and the side data. No rule gives those places before BIND: they are open (log 24). -/
structure WeightSrc where
  t : Tensor
  be : Nat → Nat → Nat
  base : Nat
  side : Nat
  rd : Nat → Byte

/-- The stored elements of an output channel. -/
def WeightSrc.elems (x : WeightSrc) (ch : Nat) : List Nat :=
  let w := fmtBits x.t.fmt
  (List.range (x.t.dims.getD 0 1)).map (fun k => elemAt x.rd w (8 * (x.base + ch * x.t.strides.getD 1 0) + k * w))

/-- The converted elements of an output channel, scaled by their blocks (R148, R154). -/
def WeightSrc.row (x : WeightSrc) (ch : Nat) : List (Int × Int) := ((convRow x.t.fmt (x.be ch) (x.elems ch)).1).map Op.dy

/-- Bytes of the record of a channel block: RW[k] for every k, then 32 column sums. -/
def WeightSrc.recAt (x : WeightSrc) (g : Nat) : Nat := x.side + g * (8 * x.t.dims.getD 0 1 + 128)
def WeightSrc.read (x : WeightSrc) (o n : Nat) : List Byte := (List.range n).map (fun i => x.rd (o + i))

/-- The side data of a channel block is what its weights give (R164): RW[k] by value, and for integer weights ΣW. -/
def WeightSrc.blockOk (x : WeightSrc) (g : Nat) : Bool :=
  let kf := x.t.dims.getD 0 1
  let chs := (List.range 32).map (32 * g + ·) |>.filter (· < x.t.dims.getD 1 1)
  let rows := chs.map x.row
  (List.range kf).all (fun k =>
    dyEq (dySum (rows.map (fun r => r.getD k (0, 0)))) (rwVal (x.read (x.recAt g + 8 * k) 8))) &&
  (3 < x.t.fmt || chs.all (fun ch =>
    (((x.elems ch).map (fun v => (cellOp x.t.fmt v).s)).foldl (· + ·) 0) ==
      sext 32 (leNat (x.read (x.recAt g + 8 * kf + 4 * (ch % 32)) 4))))

def WeightSrc.ok (x : WeightSrc) : Bool := (List.range ((x.t.dims.getD 1 1 + 31) / 32)).all x.blockOk

/-- A weight descriptor of the image in a slot. -/
def State.weightSrc (s : State) (slot td : Nat) (d : List Byte) : WeightSrc :=
  let img := s.rawBytes (s.slotAddr slot) (s.imgN slot 20 4 - trailerLen)
  let t := tensorOf [0, 0, 0, 0] d
  let sc := s.descImg slot t.scale
  let nb := (t.dims.getD 0 1 + 31) / 32
  let rd (o : Nat) : Byte := img.getD o 0
  let plane := t.scale ≠ 0 && bits (fld sc 4 4) 1 0 == 1
  { t := t, base := Config.weightPlace img td, side := Config.sidePlace img td, rd := rd
    be := fun ch b => if plane then (rd (Config.planePlace img td + ch * nb + b)).toNat
      else if t.scale ≠ 0 then bits (fld sc 4 4) 15 8 else 127 }

/-- SIDE_DATA (R165). -/
def State.chkSide (s : State) (slot : Nat) : Ref :=
  let weight (d : List Byte) : Bool := bits (fld d 0 4) 2 0 == 1 && bit (fld d 4 4) 6
  let lc (d : List Byte) : Bool :=
    (List.range (bits (fld d 4 4) 11 9)).any (fun i => 0xFFFFFFF0 ≤ fld d (20 + 4 * i) 4 && fld d (20 + 4 * i) 4 ≤ 0xFFFFFFF3)
  firstRef
    [((s.descs slot).find? (fun d => weight d.2 && lc d.2)).map (fun d => (0x1A, s.entOff slot 4 64 d.1)),
     refIf ((s.descs slot).any (fun d => weight d.2 && !(s.weightSrc slot d.1 d.2).ok)) 0x1A (s.secOff slot 12)]

/-- Bytes a scratchpad tensor reaches from its base, bucket extents at their largest (R189, R241). -/
def State.spadSpan (s : State) (slot : Nat) (d : List Byte) : Nat :=
  let t := tensorOf ((List.range 4).map (fun m => s.sheet slot (112 + 4 * m) 4)) d
  let nd := bits (fld d 4 4) 11 9
  if (t.dims.take nd).any (· == 0) then 0
  else fmtBytes t.fmt (t.dims.headD 0) +
    (List.zipWith (fun x st => (x - 1) * st) (t.dims.drop 1) (t.strides.drop 1)).foldl (· + ·) 0

/-- RING_OVERLAP (R189): every ring and every scratchpad-region descriptor. -/
def State.chkRings (s : State) (slot : Nat) : Ref :=
  let co := s.secOff slot 1
  let rings := (List.range 4).map (fun q => let r := s.ring slot q; (r.1, r.2.1 * r.2.2, r.2.2, co + 64 + 8 * q))
  let tens := ((s.descs slot).filter (fun d => bits (fld d.2 0 4) 2 0 == 1 && bits (fld d.2 4 4) 1 0 == 2)).map
    (fun d => (fld d.2 8 5, s.spadSpan slot d.2))
  (rings.zipIdx.find? (fun p =>
    let (b, n, k, _) := p.1
    b % 64 != 0 || k == 0 || 32 < k || s.sheet slot 4 4 < b + n ||
      rings.zipIdx.any (fun q => q.2 < p.2 && meets b n q.1.1 q.1.2.1) || tens.any (fun t => meets b n t.1 t.2))).map
        (fun p => (0x1B, p.1.2.2.2))

/-- Size of a live-set entry for logical core 0 (R225). -/
def State.liveSize (s : State) (slot : Nat) (e : List Byte) : Nat :=
  let len (i : Nat) : Nat := fld e (8 * i + 4) 4
  let regs := fld e 82 1
  let k := max 1 (s.shCores slot)
  (List.range 8).foldl (fun a i => a + len i) 0 + (len 8 + len 9 + k - 1) / k + 7696 * popCount 16 (fld e 80 2) +
    4096 * b2n (bit regs 0) + 64 * b2n (bit regs 1) + 2048 * b2n (bit regs 2) + 256 * b2n (bit regs 3) + 256 +
    64 * (s.mutables slot).length

/-- LIVE_SET (R225). -/
def State.chkLive (s : State) (slot : Nat) : Ref :=
  (refIf (262144 < s.shLiveMax slot) 0x1C (s.secOff slot 1 + 40)).or
    (((s.entries slot 6 128).find? (fun e =>
      (List.range 8).any (fun i => fld e.2 (8 * i) 4 % 64 != 0 || fld e.2 (8 * i + 4) 4 % 64 != 0) ||
        s.shLiveMax slot < s.liveSize slot e.2)).map (fun e => (0x1C, s.entOff slot 6 128 e.1)))

/-- BYTES of a tile transfer that its map and descriptor fix (R202, R203). -/
def State.tileBytes (s : State) (slot w : Nat) : Option Nat :=
  let m := s.mapBytes slot (bits w 33 26)
  let rs := mapRecs m
  if rs.any (fun r => r.drv == 6) then none
  else
    let d := s.descImg slot (bits w 45 34)
    let c := fld d 4 4
    let ext := rs.map (·.ext)
    let rows := boxRows ext
    let k := ext.headD 1
    let plane := s.dType slot (fld d 16 2 % 4096) == 2 && bits (fld (s.descImg slot (fld d 16 2 % 4096)) 4 4) 1 0 == 1
    some (64 + rows * roundUp 64 (fmtBytes (bits c 5 2) k) + (if plane then roundUp 64 (rows * ((k + 31) / 32)) else 0) +
      (if bit c 6 then 8 * k + 4 * rows else 0))

/-- SLOT_OVERFLOW. -/
def State.chkSlots (s : State) (slot : Nat) : Ref :=
  s.refWord slot 0x1D (fun _ _ w =>
    let op := bits w 63 58
    let room := (s.ring slot (bits w 52 51)).2.1
    if op == 0x10 || op == 0x11 || op == 0x12 then
      bits w 52 51 != 3 && (match s.tileBytes slot w with | some n => decide (room < n) | none => false)
    else op == 0x17 && bits w 52 51 != 3 && decide (room < 512))

/-- CONV_ENTRY (R270). -/
def State.chkConv (s : State) (slot : Nat) : Ref :=
  let e (i o n : Nat) : Nat := fld (s.secBytes slot 9 (16 * i) 16) o n
  let out (x lo hi : Nat) : Bool := x < lo || hi < x
  firstRef
    [((List.range (s.secLen slot 9 / 16)).find? (fun i =>
       out (e i 0 1) 1 7 || out (e i 1 1) 1 7 || out (e i 2 1) 1 4 || out (e i 3 1) 1 4 || out (e i 4 1) 1 4 ||
         out (e i 5 1) 1 255)).map (fun i => (0x1F, s.entOff slot 9 16 i)),
     s.refWord slot 0x1F (fun _ _ w =>
       let i := bits w 15 10
       let m := ([32, 32, 16, 16, 8, 32]).getD (bits w 39 37) 32
       bits w 63 58 == 0x21 &&
         (bits w 25 16 != e i 0 1 * e i 1 1 * e i 5 1 || decide (e i 6 2 < (m - 1) * e i 2 1 + (e i 1 1 - 1) * e i 3 1 + 1) ||
          decide (e i 8 1 < (e i 0 1 - 1) * e i 4 1 + 1) || decide (e i 9 1 * 64 < e i 5 1 * 16)))]

/-- MCAST_GROUP (R254). -/
def State.chkGroups (s : State) (slot : Nat) : Ref :=
  ((s.entries slot 10 16).find? (fun g =>
    let src := fld g.2 0 1
    let mem := fld g.2 2 2
    let k := s.shCores slot
    mem == 0 || bit mem src || k ≤ src || 2 ^ k ≤ mem)).map (fun g => (0x20, s.entOff slot 10 16 g.1))

/-- The signature of the copy and its key (R187, R537, R551). -/
def State.imageSigOk (s : State) (slot len : Nat) (trailer : List Byte) : Bool :=
  let body := s.rawBytes (s.slotAddr slot) (len - trailerLen)
  let pub := trailer.take pubLen
  trailerOk "WQ-ZHEVI" body trailer && (s.makerKey pub || s.installerKey pub) &&
    (Config.sha3 pub).toNat == s.imgN slot 32 64

/-- Every check of R187 in the order of R300. -/
def State.imageRef (s : State) (slot len : Nat) (trailer : List Byte) : Ref :=
  if !s.imageSigOk slot len trailer then some (0x10, 0)
  else match s.chkHeader slot len with
  | some r => some r
  | none =>
    firstRef
      [s.chkReserved slot, s.refWord slot 0x13 (fun e _ w => !inStream e w), s.chkLoops slot, s.chkPredicates slot,
       s.chkHandles slot, s.chkTables slot, s.chkEnd slot, s.chkSlateIds slot, s.chkSide slot, s.chkRings slot,
       s.chkLive slot, s.chkSlots slot, s.refWord slot 0x1E (fun e _ w => badOperands e w), s.chkConv slot, s.chkGroups slot]

/-! ### LOAD_IMAGE -/

/-- Writes the tags of every line of the two stream sections into the slot's table (R294, R467). -/
def State.writeLineTags (s : State) (slot len : Nat) : State :=
  ([Engine.fe, Engine.xe]).foldl (fun s e =>
    let n := (min (s.secLen slot (streamTy e)) len + 63) / 64
    iterate (fun i s =>
      let a := s.slotAddr slot + s.secOff slot (streamTy e) + 64 * i
      let k := s.tagIndex slot (e == .fe) i
      if 64 * k + 64 ≤ s.slotBytes then
        s.writeVia 19 (s.tagTable slot + 4 * k) (leBytes 4 (s.lineTag slot i (s.rawBytes a 64)).toNat)
      else s) n 0 s) s

/-- LOAD_IMAGE: the checks before the copy, and the copy. The command waits while SEC still verifies an earlier copy in
the same slot. -/
def loadImage (n : Nat) (s : State) : State :=
  s.takeCmd n (opIs 0x01) (fun c s =>
    let slot := fld c.bytes 8 1
    let src := fld c.bytes 16 5
    let len := fld c.bytes 24 4
    if 63 < slot then s.refuse c 0x06 8
    else if s.slotBytes < len ∨ !s.inDram src len ∨ src % 64 ≠ 0 then
      (if s.slotLocked slot then s else s.setSlot slot PSlot.reset).refuse c 0x21 (if s.slotBytes < len then 24 else 16)
    else if s.slotLocked slot then s.refuse c 0x07 8
    else
      let poison := (s.poison ++ (s.cellErr.filter (·.2.1)).map (·.1)).filter (fun l => src ≤ l && l < src + len)
      let (s, bs, _) := s.readVia 19 src len
      let s := s.writeVia 19 (s.slotAddr slot) (bs.take (len - trailerLen))
      let s := poison.foldl (fun s l => s.poisonLines (s.slotAddr slot + (l - src)) 64) s
      let s := s.writeLineTags slot len
      let s := s.setSlot slot { PSlot.reset with
        verifying := some ⟨n, c.seq, c.job.toNat, c.session, c.gen, len⟩, trailer := bs.drop (len - trailerLen) }
      s.modReel n (fun r => { r with busy := true }))

def execLoadImage (reel : Fin 32) (s : State) : Host.Outcome State Fault Refusal := .next (loadImage reel.val s)

/-- LOAD_IMAGE_VERIFIED: the image is loaded, or refused with its reason code and the slot left empty. -/
def loadImageVerified (slot : Nat) (s : State) : State :=
  let p := s.slot slot
  match p.verifying with
  | none => s
  | some v =>
    let c : Cmd := { reel := v.reel, bytes := leBytes 1 1 ++ leBytes 1 0 ++ leBytes 2 v.seq ++ leBytes 2 v.job,
                     session := v.session, gen := v.gen, role := none }
    let s := s.modReel v.reel (fun r => { r with busy := false })
    match s.imageRef slot v.length p.trailer with
    | some (code, off) => (s.setSlot slot PSlot.reset).refuse c code (off % 2 ^ 24)
    | none =>
      let id := s.imgN slot 24 8
      let d := Config.sha3 (s.rawBytes (s.slotAddr slot) (v.length - trailerLen))
      let s := s.setSlot slot { loaded := true, verifying := none, trailer := [], length := v.length,
                                imageId := BitVec.ofNat 64 id, digest := d }
      let ss := s.session v.session.val
      let s := s.auditAs 8 (roleNum (s.sessionRole v.session.val)) v.session.val v.gen
        (if v.session.val = 0 then 0xFF else ss.keySlot) 0 0xFFFF 0 (w32 slot) 0 (leBytes 8 id ++ (digestBytes d).take 16)
      s.done c 0 0 []

def execLoadImageVerified (slot : Fin 64) (s : State) : Host.Outcome State Fault Refusal :=
  .next (loadImageVerified slot.val s)

end Sys2Proof.Machine
end

