-- ==== Sys2Proof/Machine/Ptu.lean ====
section
/-! DEFINITION. Chapter "Phase Axes, Cues and Network Time": the event FIFO, axes with their tracking filter, cue slots up
to their firing, cue pins, steps and the servo. Times are 1/256 ns since PTP 0; cue and pin times are 125 ps units. -/

namespace Sys2Proof.Machine

def State.axis (s : State) (n : Nat) : Axis := s.axes[n]?.getD Axis.reset
def State.setAxis (s : State) (n : Nat) (a : Axis) : State := { s with axes := s.axes.setIfInBounds n a }
def State.cue (s : State) (n : Nat) : Cue := s.cues[n]?.getD Cue.reset
def State.setCue (s : State) (n : Nat) (c : Cue) : State := { s with cues := s.cues.setIfInBounds n c }
def State.pin (s : State) (n : Nat) : Pin := s.pins[n]?.getD Pin.reset
def State.setPin (s : State) (n : Nat) (p : Pin) : State := { s with pins := s.pins.setIfInBounds n p }

/-! ### Event FIFO (R329) -/

/-- Pushes an entry, or counts a drop. -/
def State.pushEvt (s : State) (e : Evt) : State :=
  if s.evts.length < 256 then { s with evts := s.evts ++ [e] }.raise pgTk 2
  else (s.satReg pgTk 0x118).raise pgTk 3

/-! ### Axis configuration (R336) -/

def State.axSource (s : State) (n : Nat) : Nat := bits (s.rn (pgAx n) 0x100) 3 0
def State.axModulo (s : State) (n : Nat) : Bool := bit (s.rn (pgAx n) 0x100) 4
def State.axInvert (s : State) (n : Nat) : Bool := bit (s.rn (pgAx n) 0x100) 5
def State.axZMode (s : State) (n : Nat) : Nat := bits (s.rn (pgAx n) 0x100) 7 6
/-- GLITCH × 10 ns. -/
def State.axGlitch (s : State) (n : Nat) : Int := (bits (s.rn (pgAx n) 0x100) 11 8 * 2560 : Nat)
def State.axInc (s : State) (n : Nat) : Int := (s.rn (pgAx n) 0x104 : Nat)
/-- A signed 64-bit pair of registers. -/
def State.reg64 (s : State) (page lo : Nat) : Int := sext 64 (s.rn page lo + 2 ^ 32 * s.rn page (lo + 4))
def State.axModulus (s : State) (n : Nat) : Int := s.reg64 (pgAx n) 0x108
def State.axZpos (s : State) (n : Nat) : Int := s.reg64 (pgAx n) 0x11C
def State.axDelay (s : State) (n : Nat) : Int := psTo256 (sext 32 (s.rn (pgAx n) 0x400))

/-- Reduces a phase into [0, M) on a modulo axis. -/
def State.axReduce (s : State) (n : Nat) (x : Int) : Int :=
  if s.axModulo n ∧ 0 < s.axModulus n then x % s.axModulus n else x

/-- Reduces the rational r/d into [−m/2, m/2): the numerator over d. -/
def centreQ (m r d : Int) : Int := let y := r % (m * d); if 2 * y < m * d then y else y - m * d

/-! ### Interpolated phase (R335) -/

/-- x + v (t − t_k) in 2^−48 counts. -/
def Axis.at48 (a : Axis) (t : Int) : Int := a.x * 2 ^ 32 + a.v * (t - a.tk)

/-- The interpolated phase at a time, clamped for counting sources, truncated toward zero. -/
def State.interp (s : State) (n : Nat) (t : Int) : Int :=
  let a := s.axis n
  let y := a.at48 t
  let src := s.axSource n
  let m := s.axModulus n
  let modulo := s.axModulo n ∧ 0 < m
  let y :=
    if src = 1 ∨ src = 2 ∨ src = 3 ∨ src = 5 then
      let p := a.pos * 2 ^ 32
      let u := if modulo then centreQ m (y - p) (2 ^ 32) else y - p
      let lim := s.axInc n * 2 ^ 32 - 2 ^ 32
      let u := if 0 < a.v ∧ lim < u then lim else if a.v < 0 ∧ u < -lim then -lim else u
      p + u
    else y
  let y := if modulo then y % (m * 2 ^ 32) else y
  Int.tdiv y (2 ^ 32)

/-! ### Cue slots: times and arming (R338, R341 to R343) -/

/-- A register of a cue slot. -/
def cueOff (slot o : Nat) : Nat := 0x800 + 32 * slot + o
def State.cueReg (s : State) (slot o : Nat) : Nat := s.rn pgCue (cueOff slot o)
/-- The registers of a slot, and the word a commit would give one: staged, over one of an earlier commit that waits for its
firing (R348), over the one in force. -/
def cueRegs : List Nat := [0, 4, 8, 0xC, 0x10, 0x14]
def State.cueWill (s : State) (slot o : Nat) : Word :=
  mapGet s.staged (rkey pgCue (cueOff slot o)) (mapGet (s.cue slot).later o (s.reg pgCue (cueOff slot o)))
def State.cueArmed (s : State) (slot : Nat) : Bool := bit (s.cueReg slot 0) 0
def State.cueKind (s : State) (slot : Nat) : Nat := bits (s.cueReg slot 0) 2 1
def State.cueAxis (s : State) (slot : Nat) : Nat := bits (s.cueReg slot 0) 5 3
def State.cueCross (s : State) (slot : Nat) : Nat := bits (s.cueReg slot 0) 7 6
def State.cueTarget (s : State) (slot : Nat) : Int := s.reg64 pgCue (cueOff slot 4)
def State.cueLead (s : State) (slot : Nat) : Int := sext 32 (s.cueReg slot 0xC)

/-- The present moment in 125 ps units, rounded up. -/
def State.now125 (s : State) : Int := ((s.time : Int) + 31) / 32

/-- num/den to the nearest multiple, ties upward (R338). -/
def roundUpDiv (num den : Int) : Int := (2 * num + den) / (2 * den)

/-- The slot is to fire at once, with LATE. -/
def fireNow (s : State) (c : Cue) : Cue := { c with fireAt := some s.now125, late := true, handed := true, waiting := false }

/-- Schedules a firing time, or fires at once when it is not ahead (R341). -/
def schedule (s : State) (c : Cue) (f : Int) : Cue :=
  if 32 * f ≤ (s.time : Int) then fireNow s c else { c with fireAt := some f, late := false, waiting := false }

/-- TARGET − x toward the crossing: reduced into (0, M] in the slot's direction on a modulo axis (R341). -/
def State.cueDist (s : State) (slot : Nat) (up : Bool) (x : Int) : Int :=
  let n := s.cueAxis slot
  let m := s.axModulus n
  let d := s.cueTarget slot - x
  if s.axModulo n ∧ 0 < m then
    if up then (if d % m = 0 then m else d % m) else (if (-d) % m = 0 then -m else -((-d) % m))
  else d

/-- Computes t* of a phase slot from the filter state (R341), or WAITING (R342). -/
def State.phaseCompute (s : State) (slot : Nat) (c : Cue) : Cue :=
  let a := s.axis (s.cueAxis slot)
  if !a.velValid ∨ a.v = 0 ∨ (c.up ∧ a.v < 0) ∨ (!c.up ∧ 0 < a.v) then
    { c with waiting := true, fireAt := none, late := false }
  else
    let dx := s.cueDist slot c.up a.x
    let num := a.tk * a.v + dx * 2 ^ 32
    let (num, den) := if a.v < 0 then (-num, -(32 * a.v)) else (num, 32 * a.v)
    schedule s c (roundUpDiv (num - s.cueLead slot * den) den)

/-- The axis stands at or beyond TARGET in the slot's direction (R342). -/
def State.beyond (s : State) (slot : Nat) (up : Bool) (x : Int) : Bool :=
  if up then s.cueTarget slot ≤ x else x ≤ s.cueTarget slot

/-- Evaluates a time slot (R343). -/
def State.timeCompute (s : State) (slot : Nat) (c : Cue) : Cue :=
  let tgt := s.cueReg slot 4 * 256 + s.cueReg slot 8 % 256
  let t := s.extendTk (((tgt : Int) - 32 * s.cueLead slot) % 2 ^ 40).toNat
  schedule s c (roundUpDiv t 32)

/-- Arms a slot: clears what was computed and computes anew. A slot that is not armed computes nothing. -/
def State.armCue (s : State) (slot : Nat) : State :=
  let c := { s.cue slot with fireAt := none, late := false, more := [], handed := false, waiting := false,
                             remoteSent := false }
  if !s.cueArmed slot then s.setCue slot c
  else
    match s.cueKind slot with
    | 0 =>
      let n := s.cueAxis slot
      let x := s.interp n s.time
      let cr := s.cueCross slot
      let up := if cr = 1 then true else if cr = 2 then false else decide (x < s.cueTarget slot)
      let c := { c with up := up }
      if !(s.axModulo n) ∧ s.beyond slot up x then s.setCue slot (fireNow s c)
      else s.setCue slot (s.phaseCompute slot c)
    | 1 => s.setCue slot (s.timeCompute slot c)
    | _ => s.setCue slot { c with lastEdge := (s.cue slot).lastEdge }

/-- Whether a measurement shows the axis past TARGET in the direction, for a waiting slot (R342). -/
def State.passed (s : State) (slot : Nat) (up : Bool) (before z : Int) : Bool :=
  let n := s.cueAxis slot
  let m := s.axModulus n
  if s.axModulo n ∧ 0 < m then
    let mv := centreQ m (z - before) 1
    if up then 0 < mv ∧ s.cueDist slot true before ≤ mv else mv < 0 ∧ mv ≤ s.cueDist slot false before
  else s.beyond slot up z

/-- One slot after its axis changed: recomputed until its hand-off. `seen` is the phase before and the one measured, where a
measurement came. -/
def State.recue (s : State) (axis : Nat) (seen : Option (Int × Int)) (slot : Nat) : State :=
  let c := s.cue slot
  if s.cueArmed slot ∧ s.cueKind slot = 0 ∧ s.cueAxis slot = axis ∧ !c.handed then
    if c.waiting ∧ seen.any (fun m => s.passed slot c.up m.1 m.2) then s.setCue slot (fireNow s c)
    else s.setCue slot (s.phaseCompute slot c)
  else s

/-- Every slot of an axis after a filter update. -/
def State.recueAll (s : State) (axis : Nat) (seen : Option (Int × Int)) : State :=
  iterate (fun i s => s.recue axis seen i) 64 0 s

/-! ### The tracking filter (R333, R334) -/

/-- A filter reset: the next measurement starts it. -/
def Axis.restart (a : Axis) : Axis := { a with v := 0, velValid := false, count := 0, meas := none }

/-- Division by an interval of either sign, to nearest, ties to even. -/
def rneDivI (x d : Int) : Int := if d < 0 then rneDiv (-x) (-d).toNat else rneDiv x d.toNat

/-- One update with the latest measurement (z, t). -/
def State.filterStep (s : State) (n : Nat) (z t : Int) : State :=
  let a := s.axis n
  let d := t - a.tk
  if a.count = 0 then
    s.setAxis n { a with x := s.axReduce n z, v := 0, velValid := false, tk := t, count := 1, meas := none }
  else if a.count = 1 then
    let (s, v) := if d = 0 then (let (s, k) := s.drawNat 64; (s, sext 64 k)) else s.fitS 64 (rneDivI ((z - a.x) * 2 ^ 32) d)
    s.setAxis n { a with x := s.axReduce n z, v := v, velValid := true, tk := t, count := 2, meas := none }
  else
    let gain := s.rn (pgAx n) 0x110
    let xp := a.at48 t
    let m := s.axModulus n
    let modulo := s.axModulo n ∧ 0 < m
    let r := if modulo then centreQ m (z * 2 ^ 32 - xp) (2 ^ 32) else z * 2 ^ 32 - xp
    let x := rneDiv (xp * 2 ^ 16 + (bits gain 15 0 : Nat) * r) (2 ^ 48)
    let (s, x) := if modulo then (s, s.axReduce n x) else s.fitS 64 x
    let (s, v) :=
      if d = 0 then (let (s, k) := s.drawNat 64; (s, sext 64 k))
      else s.fitS 64 (rneDivI (a.v * (2 ^ 16 * d) + (bits gain 31 16 : Nat) * r) (2 ^ 16 * d))
    s.setAxis n { a with x := x, v := v, tk := t, count := a.count + 1, meas := none }

/-- A measurement reaches the axis: it is the latest until the next update. -/
def State.measure (s : State) (n : Nat) (z t : Int) : State :=
  let a := s.axis n
  s.setAxis n { a with meas := some (z, t), lastT := some t }

/-- Counts an error of AX_ERRORS in its byte, saturating, and sets INPUT_ERR or SAMPLE_STALE. -/
def State.axError (s : State) (n lo cause : Nat) : State :=
  let v := s.rn (pgAx n) 0x158
  let s := if bits v (lo + 7) lo = 255 then s else s.setRn (pgAx n) 0x158 (v + 2 ^ lo)
  s.raise (pgAx n) cause

/-- A remote or software sample: discarded when not later than the last measurement (R331). -/
def State.axSample (s : State) (n : Nat) (z t : Int) : State :=
  match (s.axis n).lastT with
  | some l => if t ≤ l then s.axError n 16 3 else s.measure n (s.axReduce n z) t
  | none => s.measure n (s.axReduce n z) t

/-! ### Input edges (R331, R332, R344) -/

/-- Counts ±AX_INC and takes the count as the measurement at the edge. -/
def State.axCount (s : State) (n : Nat) (up : Bool) (t : Int) (pinId : Nat) : State :=
  let a := s.axis n
  let inc := if up == s.axInvert n then -(s.axInc n) else s.axInc n
  let (s, p) := s.fitS 64 (a.pos + inc)
  let p := s.axReduce n p
  let s := s.measure n p (t - s.axDelay n)
  s.setAxis n { s.axis n with pos := p, undo := some (pinId, t, inc, a.meas) }

/-- An A or B edge of a quadrature source: illegal when both change together. -/
def State.quadEdge (s : State) (n pinId : Nat) (t : Int) : State :=
  let a := s.axis n
  match a.undo with
  | some (p, t0, inc, m) =>
    if p ≠ pinId ∧ t0 = t then
      (s.setAxis n { a with pos := s.axReduce n (a.pos - inc), meas := m, undo := none }).axError n 0 1
    else s.axCount n ((a.levelA != a.levelB) == (pinId == 0)) t pinId
  | none => s.axCount n ((a.levelA != a.levelB) == (pinId == 0)) t pinId

/-- An index edge by Z_MODE (R332). -/
def State.indexEdge (s : State) (n : Nat) : State :=
  let a := s.axis n
  let zm := s.axZMode n
  if zm = 0 then s
  else
    let s := s.setAxis n { a with zSeen := true }
    if zm = 1 then s.raise (pgAx n) 2
    else if zm = 2 ∧ a.homed then s
    else
      let off := s.axZpos n - a.pos
      s.setAxis n { a with zSeen := true, homed := a.homed || zm == 2, undo := none, pos := s.axReduce n (s.axZpos n),
                           x := s.axReduce n (a.x + off),
                           meas := a.meas.map (fun q => (s.axReduce n (q.1 + off), q.2)) }

/-- An edge the glitch filter lets through. -/
def State.axEdge (s : State) (n pinId : Nat) (rising : Bool) (t : Int) : State :=
  let a := s.axis n
  let s := s.setAxis n (if pinId = 0 then { a with levelA := rising } else if pinId = 1 then { a with levelB := rising } else a)
  let src := s.axSource n
  if pinId = 2 then (if (src = 1 ∨ src = 2) ∧ rising then s.indexEdge n else s)
  else if src = 1 then s.quadEdge n pinId t
  else if src = 2 then (if pinId = 0 ∧ rising then s.axCount n (s.axis n).levelB t 0 else s)
  else if src = 3 ∨ src = 5 then (if pinId = 0 ∧ rising then s.axCount n true t 0 else s)
  else s

/-- Lets through the held edges that are at least GLITCH × 10 ns old at a moment. -/
def State.flushHeld (s : State) (n : Nat) (t : Int) : State :=
  let old := (s.axis n).held.filter (fun e => s.axGlitch n ≤ t - e.2.2)
  let young := (s.axis n).held.filter (fun e => t - e.2.2 < s.axGlitch n)
  old.foldl (fun s e => s.axEdge n e.1 e.2.1 e.2.2) (s.setAxis n { s.axis n with held := young })

/-- An edge on an axis pin: a pulse shorter than GLITCH × 10 ns is discarded with both its edges (R331). -/
def State.axRawEdge (s : State) (n pinId : Nat) (rising : Bool) (t : Int) : State :=
  if s.axGlitch n = 0 then s.axEdge n pinId rising t
  else
    let s := s.flushHeld n t
    let a := s.axis n
    if a.held.any (fun e => e.1 = pinId) then s.setAxis n { a with held := a.held.filter (fun e => e.1 ≠ pinId) }
    else s.setAxis n { a with held := a.held ++ [(pinId, rising, t)] }

/-- A qualifying edge of an armed reactive slot schedules a firing 40 ns + LEAD later; one inside the hold-off is
ignored and counted (R344). -/
def State.reactEdge (s : State) (rin grp : Nat) (rising : Bool) (t : Int) (slot : Nat) : State :=
  let ctl := s.cueReg slot 0
  let redge := bits ctl 19 18
  if s.cueArmed slot ∧ s.cueKind slot = 2 ∧ bits ctl 17 16 = rin ∧ (rin = 3 ∨ s.cueAxis slot = grp)
      ∧ (redge = 2 ∨ (redge = 0 ∧ rising) ∨ (redge = 1 ∧ !rising)) then
    let c := s.cue slot
    let near := match c.lastEdge with
      | some l => decide (t - l < 256 * (s.cueReg slot 0x14 : Nat))
      | none => false
    if near then s.incReg pgCue 0x114
    else
      let f := roundUpDiv t 32 + 320 + s.cueLead slot
      let c := { c with lastEdge := some t }
      match c.fireAt with
      | none => s.setCue slot { c with fireAt := some f, late := false, handed := true }
      | some _ => s.setCue slot { c with more := c.more ++ [f] }
  else s

/-- The number of an input pin in event entries (R329), its reactive input and pin group (R350). -/
def pinSource : InPin → Nat
  | .phaA n => 0x40 + n.val | .phaB n => 0x48 + n.val | .phaZ n => 0x50 + n.val | .ppsIn => 0x58
def pinRin : InPin → Nat
  | .phaA _ => 0 | .phaB _ => 1 | .phaZ _ => 2 | .ppsIn => 3
def pinGrp : InPin → Nat
  | .phaA n => n.val | .phaB n => n.val | .phaZ n => n.val | .ppsIn => 0
/-- Its bit of EVT_MASK (R330). -/
def pinMaskBit : InPin → Nat
  | .phaZ n => n.val | .phaA n => 8 + n.val | .phaB n => 16 + n.val | .ppsIn => 24

/-- An event FIFO entry for a source at a time, with an axis phase. -/
def State.mkEvt (s : State) (src : Nat) (t : Int) (axis : Nat) (valid falling late : Bool) (ph : Int) : Evt :=
  let _ := s
  let t40 := wrapTo 40 t
  ⟨w32 (src + (t40 % 256) * 2 ^ 8 + axis * 2 ^ 16 + b2n valid * 2 ^ 19 + b2n falling * 2 ^ 20 + b2n late * 2 ^ 21),
    w32 (t40 / 256), w32 (wrapTo 32 ph), w32 (wrapTo 64 ph / 2 ^ 32)⟩

/-- The entry of an input edge that EVT_MASK selects (R329). -/
def State.edgeEvt (s : State) (p : InPin) (rising : Bool) (t : Int) : State :=
  let m := s.rn pgTk 0x110
  let e := bits m 26 25
  if bit m (pinMaskBit p) ∧ (e = 2 ∨ (e = 0 ∧ rising) ∨ (e = 1 ∧ !rising)) then
    let (ax, valid, ph) := match p with
      | .ppsIn => (0, false, (0 : Int))
      | p => ((pinGrp p), (s.axis (pinGrp p)).velValid, s.interp (pinGrp p) t)
    s.pushEvt (s.mkEvt (pinSource p) t ax valid (!rising) false ph)
  else s

/-! ### Steps of time (R326, R358) -/

/-- PTP time wraps with its 48 bits of seconds. -/
def ptpSpan : Int := 2 ^ 48 * 1000000000 * 256

/-- Moves an option by an amount. -/
def shiftOpt (d : Int) (o : Option Int) : Option Int := o.map (· + d)

/-- An axis keeps its phase and velocity over a step. -/
def Axis.stepped (d : Int) (a : Axis) : Axis :=
  { a with tk := a.tk + d, meas := a.meas.map (fun p => (p.1, p.2 + d)), lastT := shiftOpt d a.lastT,
           held := a.held.map (fun e => (e.1, e.2.1, e.2.2 + d)),
           undo := a.undo.map (fun u => (u.1, u.2.1 + d, u.2.2.1, u.2.2.2)) }

/-- A pin keeps the moments of its pulse and edges over a step. -/
def Pin.stepped (d : Int) (p : Pin) : Pin :=
  { p with
    pulse := shiftOpt (roundUpDiv d 32) p.pulse
    lastEdge := shiftOpt (roundUpDiv d 32) p.lastEdge
    lastAt := shiftOpt (roundUpDiv d 32) p.lastAt
    before := (p.before.1, shiftOpt (roundUpDiv d 32) p.before.2.1, shiftOpt (roundUpDiv d 32) p.before.2.2) }

/-- A slot after a step. A phase firing handed off keeps its moment, as do a late one and those of a reactive slot
(DESIGN CHOICE, log 54: the manual names phase and time cues alone); the others are computed in the new timescale. -/
def State.recueStep (s : State) (d : Int) (slot : Nat) : State :=
  let c := s.cue slot
  let c := { c with lastEdge := shiftOpt d c.lastEdge }
  if c.handed ∧ (s.cueKind slot ≠ 1 ∨ c.late) then
    s.setCue slot { c with fireAt := c.fireAt.map (· + roundUpDiv d 32), more := c.more.map (· + roundUpDiv d 32) }
  else if c.handed then s.setCue slot { s.timeCompute slot c with handed := true }
  else if !s.cueArmed slot then s.setCue slot c
  else if s.cueKind slot = 0 then s.setCue slot (s.phaseCompute slot c)
  else if s.cueKind slot = 1 then s.setCue slot (s.timeCompute slot c)
  else s.setCue slot c

/-- The servo after a step: the next measurement has no interval (R357). -/
def Servo.stepped (d : Int) (v : Servo) : Servo := { v with tPrev := none, lastT := shiftOpt d v.lastT }

/-- A step by `d`/256 ns: timekeeper and PTP time together, a STEP entry, axes, cues and servo follow. A change of
timekeeper bits [39:38] sets WRAP (R327). -/
def State.stepTime (s : State) (d : Int) : State :=
  let ns := Int.tdiv d 256
  let old := s.tk / 2 ^ 38
  let s := { s with
    time := (((s.time : Int) + d) % ptpSpan).toNat
    axes := s.axes.map (Axis.stepped d)
    pins := s.pins.map (Pin.stepped d)
    ppsAt := shiftOpt d s.ppsAt
    servo := s.servo.stepped d }
  let s := if s.tk / 2 ^ 38 ≠ old then s.raise pgTk 0 else s
  let s := iterate (fun i s => s.recueStep d i) 64 0 s
  let s := (s.setRn pgTk 0x108 (wrapTo 32 ns)).setRn pgTk 0x10C (wrapTo 64 ns / 2 ^ 32)
  let s := s.raise pgTk 1
  s.pushEvt (s.mkEvt 0x59 s.time 0 false false false ns)

/-! ### Servo (R356, R357) -/

def State.ntState (s : State) : Nat := bits (s.rn pgNte 0x10C) 2 0
def State.ntSource (s : State) : Nat := bits (s.rn pgNte 0x100) 1 0
def State.ntBit (s : State) (b : Nat) : Bool := bit (s.rn pgNte 0x10C) b

/-- Writes NT_STATE; a change into or out of LOCKED sets LOCK_CHANGE, entering HOLDOVER sets HOLDOVER. -/
def State.setNt (s : State) (st : Nat) (jump stepped restep : Bool) : State :=
  let old := s.ntState
  let oldJump := s.ntBit 8
  let s := s.setRn pgNte 0x10C (st + 256 * b2n jump + 512 * b2n stepped + 1024 * b2n restep)
  let s := if (old = 2) ≠ (st = 2) then s.raise pgNte 0 else s
  let s := if jump && !oldJump then s.raise pgNte 1 else s
  if st = 3 ∧ old ≠ 3 then s.raise pgNte 2 else s

def rMax : Int := 549755813

/-- One measurement: offset `o` in 1/256 ns, taken at moment `t`. -/
def State.ntMeasure (s : State) (o t : Int) : State :=
  let s := s.setRn pgNte 0x110 (wrapTo 32 (clampI (-2147483648) 2147483647 o))
  let v := s.servo
  let thr : Int := 256 * (s.rn pgNte 0x104 : Nat)
  let stepped := s.ntBit 9
  let keep (v : Servo) : Servo := { v with n := v.n + 1, ofsPrev := o, tPrev := some (t.toNat), lastT := some t }
  let stepBy (s : State) (v : Servo) (jump restep : Bool) : State :=
    let s := { s with servo := { v with n := v.n + 1, ofsPrev := o, tPrev := none, lastT := some t, setOnce := true } }
    (s.setNt 2 jump true restep).stepTime (-o)
  if !stepped then
    let good := if 0 < v.n ∧ (o - v.ofsPrev).natAbs ≤ thr.toNat then v.good + 1 else 1
    if good = 4 then stepBy s { v with good := good } (s.ntBit 8) (s.ntBit 10)
    else ({ s with servo := { keep v with good := good } }).setNt 1 (s.ntBit 8) false (s.ntBit 10)
  else if s.ntState = 4 then
    if s.ntBit 10 then stepBy s v false false else s
  else
    match v.tPrev with
    | none => { s with servo := keep v }
    | some tp =>
      if thr.toNat < o.natAbs then
        let s := s.setRn pgNte 0x118 (wrapTo 32 (clampI (-2147483648) 2147483647 (Int.tdiv o 256)))
        ({ s with servo := { keep v with rate := v.integ } }).setNt 4 true true (s.ntBit 10)
      else
        let dt : Int := Int.tdiv (t - tp) 256
        if dt = 0 then
          let (s, a) := s.drawNat 40
          let (s, b) := s.drawNat 40
          ({ s with servo := { keep v with integ := clampI (-rMax) rMax (sext 40 a), rate := clampI (-rMax) rMax (sext 40 b) } }).setNt
            2 false true (s.ntBit 10)
        else
          let integ := clampI (-rMax) rMax (v.integ - Int.tdiv ((s.rn pgNte 0x404 : Nat) * o * 2 ^ 16) dt)
          let rate := clampI (-rMax) rMax (integ - Int.tdiv ((s.rn pgNte 0x400 : Nat) * o * 2 ^ 16) dt)
          ({ s with servo := { keep v with integ := integ, rate := rate } }).setNt 2 false true (s.ntBit 10)

/-- PPS_IN as the source of measurements (R358): the offset from the nearest local second boundary. -/
def State.ppsEdge (s : State) (rising : Bool) (t : Int) : State :=
  let cfg := s.rn pgPin 0x14C
  if s.ntSource = 2 ∧ bit cfg 0 ∧ (rising != bit cfg 1) then
    let t := t - psTo256 (sext 32 (s.rn pgPin 0x150))
    s.ntMeasure (centreQ 256000000000 t 1) t
  else s

/-! ### Cue pins (R339, R340, R346) -/

def State.pinConflict (s : State) : State := (s.incReg pgCue 0x118).raise pgCue 2

/-- The level an event gives a pin (R339). -/
def pinLevelOf (mode : Nat) (active : Bool) : Bool :=
  if mode = 0 ∨ mode = 2 then true else if mode = 1 then false else !active

/-- Puts an event of a step among the others, in slot order. -/
def insEvt (e : Nat × Nat × Int) : List (Nat × Nat × Int) → List (Nat × Nat × Int)
  | [] => [e]
  | x :: l => if x.1 ≤ e.1 then x :: insEvt e l else e :: x :: l

/-- An edge at a step that follows another by less than 2.0 ns. -/
def tooSoon (f : Int) (last : Option Int) : Bool := last.any (fun l => decide (f < l + 16))
/-- Where the edge stands then. -/
def edgeAt (f : Int) (last : Option Int) : Int := if tooSoon f last then last.getD f + 16 else f

/-- A pin after the events of a step: they apply in slot order, so the highest-numbered slot decides the level. -/
def Pin.apply (p : Pin) (f : Int) : Pin :=
  let level := p.evs.foldl (fun a e => pinLevelOf e.2.1 a) p.before.1
  let edge := level != p.before.1
  let e := if edge then edgeAt f p.before.2.2 else f
  { p with
    active := level
    pulse := p.evs.foldl (fun q x => if x.2.1 = 2 then some (e + x.2.2) else q) p.before.2.1
    lastEdge := if edge then some e else p.before.2.2
    lastAt := some f }

/-- The edge of a step has been moved. -/
def Pin.moved (p : Pin) (f : Int) : Bool := p.active != p.before.1 && tooSoon f p.before.2.2

/-- A pin event at a 125 ps step. -/
def State.pinEvent (s : State) (slot p mode : Nat) (f : Int) (width : Int) : State :=
  if !bit (s.rn pgPin (0x100 + 4 * p)) 0 then s
  else
    let pin := s.pin p
    let same := pin.lastAt == some f
    let pin := if same then { pin with evs := insEvt (slot, mode, width) pin.evs }
      else { pin with evs := [(slot, mode, width)], before := (pin.active, pin.pulse, pin.lastEdge) }
    let was := same && pin.moved f
    let pin := pin.apply f
    let s := if same then s.pinConflict else s
    let s := if pin.moved f && !was then s.pinConflict else s
    s.setPin p pin

/-! ### Meanings -/

/-- TK_WRAP (R327): the timekeeper reaches the next multiple of 2^30 ns. -/
def execTkWrap (s : State) : Host.Outcome State Fault Refusal := .next (advance (2 ^ 38 - s.time % 2 ^ 38) s)

/-- The timestamp of an edge: 125 ps steps of the timekeeper. Within ±0.3 ns any step near the edge may be taken; the model
takes the one at or before it (DESIGN CHOICE, log 54). -/
def edgeStamp (t : Tk) : Nat := t.toNat / 32 * 32

/-- INPUT_EDGE (R328 to R332, R344, R358). A step that PPS_IN makes follows what the edge itself does. -/
def inputEdge (p : InPin) (rising : Bool) (t : Tk) (s : State) : State :=
  let t := s.extendTk (edgeStamp t)
  let s := advanceTo t s
  let s := match p with
    | .ppsIn => s
    | .phaA n => s.axRawEdge n.val 0 rising t
    | .phaB n => s.axRawEdge n.val 1 rising t
    | .phaZ n => s.axRawEdge n.val 2 rising t
  let s := s.edgeEvt p rising t
  let s := iterate (fun i s => s.reactEdge (pinRin p) (pinGrp p) rising t i) 64 0 s
  match p with
  | .ppsIn => s.ppsEdge rising t
  | _ => s

def execInputEdge (p : InPin) (rising : Bool) (t : Tk) (s : State) : Host.Outcome State Fault Refusal :=
  .next (inputEdge p rising t s)

/-- Gray to binary, `w` bits. -/
def grayDecode (w g : Nat) : Nat := (List.range w).foldl (fun a i => a ^^^ (g / 2 ^ i)) 0 % 2 ^ w

/-- SSI_READ (R331). -/
def ssiRead (n : Fin 8) (t : Tk) (lineLow : Bool) (raw : Word) (s : State) : State :=
  let t := s.extendTk t.toNat
  let s := advanceTo t s
  if s.axSource n.val ≠ 4 then s
  else if lineLow then s.axError n.val 8 1
  else
    let cfg := s.rn (pgAx n.val) 0x100
    let w := bits cfg 17 12
    let r := raw.toNat % 2 ^ w
    let r := if bit cfg 21 then grayDecode w r else r
    let z : Int := (r : Int) * s.axInc n.val
    let z := if s.axInvert n.val then -z else z
    let (s, z) := s.fitS 64 z
    s.measure n.val (s.axReduce n.val z) t

def execSsiRead (axis : Fin 8) (t : Tk) (lineLow : Bool) (raw : Word) (s : State) : Host.Outcome State Fault Refusal :=
  .next (ssiRead axis t lineLow raw s)

/-- AXIS_FILTER_UPDATE (R333, R334, R341, R342). -/
def axisFilterUpdate (n : Fin 8) (s : State) : State :=
  if s.axSource n.val = 0 then s
  else
    let s := s.flushHeld n.val s.time
    match (s.axis n.val).meas with
    | none => s
    | some (z, t) =>
      let before := (s.axis n.val).x
      (s.filterStep n.val z t).recueAll n.val (some (before, z))

def execAxisFilterUpdate (axis : Fin 8) (s : State) : Host.Outcome State Fault Refusal := .next (axisFilterUpdate axis s)

/-- AXIS_STALL (R334): AX_STALL_US without a measurement. -/
def axisStall (n : Fin 8) (s : State) : State :=
  let a := s.axis n.val
  if s.axSource n.val = 0 ∨ a.count = 0 ∨ a.meas.isSome then s
  else
    let s := advanceTo (a.lastT.getD 0 + 256000 * (s.rn (pgAx n.val) 0x118 : Nat)) s
    let s := s.setAxis n.val a.restart
    (s.raise (pgAx n.val) 0).recueAll n.val none

def execAxisStall (axis : Fin 8) (s : State) : Host.Outcome State Fault Refusal := .next (axisStall axis s)

/-- CUE_HANDOFF (R341): 250 ns before the firing time it is fixed. -/
def cueHandoff (slot : Fin 64) (s : State) : State :=
  let c := s.cue slot.val
  match c.fireAt with
  | none => s
  | some f => if c.handed then s else (advanceTo (32 * f - 64000) s).setCue slot.val { c with handed := true }

def execCueHandoff (slot : Fin 64) (s : State) : Host.Outcome State Fault Refusal := .next (cueHandoff slot s)

/-- PULSE_END (R340): the pin goes idle WIDTH after the start, or 2.0 ns after the edge before where that is later (R346). -/
def pulseEnd (p : Fin 16) (s : State) : State :=
  let pin := s.pin p.val
  match pin.pulse with
  | none => s
  | some e =>
    let moved := pin.active && tooSoon e pin.lastEdge
    let e' := if pin.active then edgeAt e pin.lastEdge else e
    let s := advanceTo (32 * e') s
    let s := if moved then s.pinConflict else s
    s.setPin p.val { pin with active := false, pulse := none, lastEdge := if pin.active then some e' else pin.lastEdge }

def execPulseEnd (pin : Fin 16) (s : State) : Host.Outcome State Fault Refusal := .next (pulseEnd pin s)

/-- The next moment at which a pulse on PPS_OUT begins: a PTP second boundary plus PPS_OUT_OFS, now or ahead, and no boundary
that has had its pulse. -/
def State.ppsNext (s : State) : Int :=
  let ofs := 256 * sext 32 (s.rn pgPin 0x148)
  let from' : Int := match s.ppsAt with
    | some l => max s.time (l + 1)
    | none => s.time
  (from' - ofs + 255999999999) / 256000000000 * 256000000000 + ofs

/-- The level of PPS_OUT while it is enabled: active high, or low under bit 1 of PPS_OUT_CFG. -/
def State.ppsLevel (s : State) : Bool := s.ppsHigh != bit (s.rn pgPin 0x144) 1

/-- PPS_OUT_PULSE (R351): a pulse begins at the next boundary, and ends WIDTH after it began. -/
def ppsOutPulse (start : Bool) (s : State) : State :=
  let cfg := s.rn pgPin 0x144
  if start then
    if bit cfg 0 then { advanceTo s.ppsNext s with ppsHigh := true, ppsAt := some s.ppsNext } else s
  else if s.ppsHigh then { advanceTo (s.ppsAt.getD s.time + (bits cfg 17 2 * 2560000 : Nat)) s with ppsHigh := false }
  else s

def execPpsOutPulse (start : Bool) (s : State) : Host.Outcome State Fault Refusal := .next (ppsOutPulse start s)

/-- SERVO_RATE_UPDATE (R356, R357): the servo's rate takes effect. FREERUN uses FREQ_TRIM, which the servo starts from, and
ACQUIRING sets no rate. -/
def servoRateUpdate (s : State) : State :=
  let st := s.ntState
  if st = 0 then
    { s.setReg pgNte 0x114 (s.reg pgNte 0x414) with servo := { s.servo with rate := sext 32 (s.rn pgNte 0x414) } }
  else if st = 1 then s
  else s.setRn pgNte 0x114 (wrapTo 32 s.servo.rate)

def execServoRateUpdate (s : State) : Host.Outcome State Fault Refusal := .next (servoRateUpdate s)

/-- NT_HOLDOVER (R356): no measurement for LOSS_MS. -/
def ntHoldover (s : State) : State :=
  if s.ntState = 2 then
    let s := advanceTo (s.servo.lastT.getD s.time + (s.rn pgNte 0x108 * 256000000 : Nat)) s
    s.setNt 3 (s.ntBit 8) (s.ntBit 9) (s.ntBit 10)
  else s

def execNtHoldover (s : State) : Host.Outcome State Fault Refusal := .next (ntHoldover s)

end Sys2Proof.Machine
end

