-- ==== Sys2Proof/Machine/Bind.lean ====
section
/-! DEFINITION. BIND and REBIND (chapter "Jobs, Reels and Scheduling": R289, R291, R295 to R301; R171, R173, R177, R182,
R192, R199, R218, R251, R259 to R261, R514), and unbinding (R318). -/

namespace Sys2Proof.Machine

/-! ### Health of cores and clusters (R488 to R491) -/

/-- RETIRED or OBSERVED, of a core or of its cluster. -/
def State.coreRetired (s : State) (n : Nat) : Bool := (s.healthOf n).st == 3 || (s.healthOf (128 + clusterOf n)).st == 3
def State.coreObserved (s : State) (n : Nat) : Bool := (s.healthOf n).st == 2 || (s.healthOf (128 + clusterOf n)).st == 2

/-- A core meets R297 for a job that needs `tiles` accumulator tiles. -/
def State.coreMeets (s : State) (n tiles cls : Nat) : Bool :=
  corePresent s.fuse.grade n && !s.coreRetired n && decide (tiles ≤ s.accTiles n) && !(cls == 0 && s.coreObserved n)

/-! ### What an image needs of each cluster (R188, R251, R259, R260) -/

structure Need where
  clusters : Nat
  cores : Nat
  tiles : Nat
  clmem : Nat
  cnts : List Nat
  bars : List Nat
  jobBars : List Nat
  groups : Nat
  rd : Nat
  wr : Nat
  deriving DecidableEq, Repr

/-- Distinct CNT values of the image's WCNT instructions. -/
def State.imgCnts (s : State) (slot : Nat) : List Nat :=
  (((s.stream slot .fe).filter (isOp 0x18)).map (fun w => bits w 47 44)).foldl insN []

/-- Entries of the barrier table with a SCOPE. -/
def State.barsOf (s : State) (slot sc : Nat) : List Nat :=
  (List.range (s.secLen slot 7 / 48)).filter (fun b => s.barScope slot b == sc)

def State.need (s : State) (slot : Nat) : Need where
  clusters := s.shClusters slot
  cores := s.shCores slot
  tiles := s.sheet slot 8 1
  clmem := s.shClmem slot
  cnts := s.imgCnts slot
  bars := s.barsOf slot 0
  jobBars := s.barsOf slot 1
  groups := s.secLen slot 10 / 16
  rd := s.sheet slot 16 4 * s.shCores slot
  wr := s.sheet slot 20 4 * s.shCores slot

/-! ### Free resources of a cluster -/

def clmemBytes : Nat := 4194304

def Cluster.clFree (c : Cluster) : Nat := clmemBytes - c.allocs.foldl (fun a x => a + x.2.2) 0

/-- First place of `n` bytes of cluster memory, in units of 65,536 (R251). -/
def Cluster.clFit (c : Cluster) (n : Nat) : Option Nat :=
  ((List.range 64).find? (fun u => 65536 * u + n ≤ clmemBytes &&
    !c.allocs.any (fun x => meets (65536 * u) n x.2.1 x.2.2))).map (65536 * ·)

/-- Positions of free counters; numbers of free physical barriers and groups. -/
def Cluster.freeCnts (c : Cluster) : List Nat := (List.range 16).filter (fun i => (c.counters.getD i WorkCnt.reset).job == 0)
def Cluster.freeBars (c : Cluster) : List Nat := (List.range 16).filter (fun i => !c.barriers.any (·.phys == i))
def Cluster.freeGroups (c : Cluster) : List Nat := (List.range 16).filter (fun i => !c.groups.any (·.phys == i))

/-- Guaranteed shares of a cluster (R378), and what bound jobs hold of them. -/
def State.tshare (s : State) (wr : Bool) (c : Nat) : Nat := s.rn (pgMc 0) ((if wr then 0x130 else 0x110) + 4 * c)
def Job.inCluster (j : Job) (c : Nat) : Bool := j.placed.any (·.1 == c)
def State.jobRate (s : State) (wr : Bool) (j : Job) : Nat :=
  s.sheet j.slot.val (if wr then 20 else 16) 4 * s.shCores j.slot.val
def State.shareHeld (s : State) (wr : Bool) (c : Nat) (not : BitVec 16) : Nat :=
  (s.jobs.filter (fun j => j.inCluster c && j.id != not)).foldl (fun a j => a + s.jobRate wr j) 0

/-- Reserved capacity in MB/s: TSLOTS of 64 slots of the peak rate (R378, R380). -/
def State.reservedCap (s : State) (tslots : Nat) : Nat := 25600 * s.fuse.grade.channels * tslots / 64

/-- A running or armed take: its cores run or wait for their cue, and none is stopped, spilling or restoring. -/
def State.holdsShares (s : State) (j : Job) : Bool :=
  j.cores != [] && j.st != .cancelling && j.cores.all (fun n => (s.core n).mode == .running || (s.core n).mode == .reserved)

/-- Shares of running and armed takes in a cluster, MB/s (R304, R380). -/
def State.sharesUsed (s : State) (wr : Bool) (c : Nat) : Nat :=
  (s.jobs.filter (fun j => j.inCluster c && s.holdsShares j)).foldl (fun a j => a + s.jobRate wr j) 0

/-- SLATE_CAP (R380). -/
def State.slateCap (s : State) : Nat :=
  let used := ((List.range 8).map (fun c => s.sharesUsed false c + s.sharesUsed true c)).foldl (· + ·) 0
  (s.reservedCap (s.rn (pgMc 0) 0x108) * 15 / 16 - used) / 12800

/-- The cluster's unallocated shares cover the rates. -/
def State.shareFits (s : State) (nd : Need) (c : Nat) (not : BitVec 16) : Bool :=
  s.shareHeld false c not + nd.rd ≤ s.tshare false c && s.shareHeld true c not + nd.wr ≤ s.tshare true c

/-- The shape fits a cluster, shares apart (R297). -/
def State.clusterFits (s : State) (nd : Need) (cls c : Nat) : Bool :=
  let k := s.cluster c
  nd.cores ≤ ((List.range 16).filter (fun l => s.coreMeets (16 * c + l) nd.tiles cls)).length &&
    (nd.clmem == 0 || (k.clFit nd.clmem).isSome) && nd.cnts.length ≤ k.freeCnts.length &&
    nd.bars.length ≤ k.freeBars.length && nd.groups ≤ k.freeGroups.length

/-! ### Placement (R301) -/

/-- Cores of a cluster that hold the image in a valid instruction cache. -/
def State.warmCores (s : State) (id : BitVec 64) (c : Nat) : Nat :=
  ((List.range 16).filter (fun l =>
    let k := s.core (16 * c + l)
    k.icacheValid && k.lastSlot.isSome && k.lastImage == id)).length

def State.placeRank (s : State) (id : BitVec 64) (c : Nat) : Nat :=
  (s.warmCores id c * 2 ^ 23 + (s.cluster c).clFree) * 8 + (7 - c)

/-- Logical clusters in order, each at the best cluster not yet taken. -/
def placeFrom (ok : Nat → Bool) (rank : Nat → Nat) : Nat → List Nat → Option (List Nat)
  | 0, done => some done
  | k + 1, done =>
    match (List.range 8).filter (fun c => ok c && !done.contains c) with
    | [] => none
    | c :: cs => placeFrom ok rank k (done ++ [cs.foldl (fun b x => if rank b < rank x then x else b) c])

/-! ### Admission (R298, R299, R303), in 1/133,056 ns -/

/-- The lower of ADM_OP and MAX_OP, in MHz. -/
def State.admMhz (s : State) (slot : Nat) : Nat := opMhz (min (s.rn pgAdm 0x100 % 8) (s.imgMaxOp slot))

/-- T_OP in ns. -/
def State.tOp (s : State) (slot mask : Nat) : Nat :=
  let top := (bitList 8 mask).foldl (fun m c => max m (min (s.opMax c) (if s.boostEn then 7 else 5))) 0
  if s.imgMaxOp slot < top then 34200 else 0

def State.jobD (s : State) (slot mask : Nat) : Nat :=
  s.shWcet slot * 133056000 / s.admMhz slot + (s.shWaitNs slot + s.rn pgAdm 0x11C + s.tOp slot mask) * 133056

/-- MAX_YIELD_INTERVAL / f + LIVE_MAX / (12.8 GB/s). -/
def State.jobP (s : State) (slot : Nat) : Nat :=
  s.sheet slot 36 4 * 133056000 / s.admMhz slot + s.shLiveMax slot * 10395

/-- 1 µs. -/
def usUnits : Nat := 133056000

/-- DEADLINE and PREEMPT_DEADLINE of a placed job. -/
def State.chkDeadline (s : State) (id : BitVec 16) (slot cls mask dl : Nat) (cls' : List Nat) : Ref :=
  let rival (j : Job) : Bool := j.id != id && j.placed.any (fun p => cls'.contains p.1)
  let d := s.jobD slot mask
  let p := (s.jobs.filter (fun j => rival j && decide (cls < j.cls))).foldl (fun m j => max m (s.jobP j.slot.val)) 0
  let mine := s.jobP slot
  firstRef
    [refIf (dl != 0 && dl * usUnits < d) 0x3E id.toNat, refIf (dl != 0 && dl * usUnits < d + p) 0x3F id.toNat,
     (s.jobs.find? (fun h => rival h && decide (h.cls < cls) && h.deadlineUs != 0 &&
       decide (h.deadlineUs * usUnits < h.dUnits + mine))).map (fun h => (0x3F, h.id.toNat))]

/-! ### Checks of the image at bind -/

/-- IMAGE_CHANGED (R295). -/
def State.imageChanged (s : State) (slot : Nat) : Bool :=
  Config.sha3 (s.rawBytes (s.slotAddr slot) ((s.slot slot).length - trailerLen)) != (s.slot slot).digest

/-- ABSENT_UNIT (R1). -/
def State.absentUnit (s : State) (slot : Nat) : Bool :=
  let u := s.sheet slot 128 4
  (List.range 4).any (fun i => bit u i && decide (s.fuse.grade.isps ≤ i)) ||
    (List.range 2).any (fun i => bit u (4 + i) && decide (s.fuse.grade.codecs ≤ i))

/-- Fields of a scale descriptor (R177). -/
def scBeMode (d : List Byte) : Nat := bits (fld d 4 4) 1 0
def scZp (d : List Byte) : Bool := bit (fld d 4 4) 3
def scRetry (d : List Byte) : Bool := bit (fld d 4 4) 5
def scBe (d : List Byte) : Nat := bits (fld d 4 4) 15 8
def scThr (d : List Byte) : Nat := bits (fld d 4 4) 23 19

/-- Descriptors of a type, and a scale descriptor by handle. -/
def State.descsOf (s : State) (slot ty : Nat) : List (List Byte) :=
  ((s.descs slot).map (·.2)).filter (fun d => bits (fld d 0 4) 2 0 == ty)

/-- The descriptor an instruction's queue entry comes from, among the FE instructions of the stream that fill queue `q`: the
image does not order them, and which one it is where several are there is open (log 56). -/
def State.sourceOf (s : State) (slot q i : Nat) (fill : Nat → Bool) : Option Nat :=
  let tds := (((s.stream slot .fe).filter (fun w => fill w && bits w 52 51 == q)).map (fun w => bits w 45 34)).eraseDups
  tds[Config.operandOf (s.slot slot).imageId i % tds.length]?

/-- LD, RCV and GATHER fill a queue with tiles. -/
def isTileFill (w : Nat) : Bool := isOp 0x10 w || isOp 0x11 w || isOp 0x12 w

/-- The scale descriptor of a tensor, when it has one. -/
def State.scaleImg (s : State) (slot td : Nat) : Option (List Byte) :=
  let h := fld (s.descImg slot td) 16 2 % 4096
  if h ≠ 0 ∧ s.dType slot h = 2 then some (s.descImg slot h) else none
def State.hasZp (s : State) (slot td : Nat) : Bool := (s.scaleImg slot td).any scZp

/-- The least grain of a tensor (R148, R153): known from the image where its exponent is uniform and its format has a fixed
offset. -/
def State.grainOf (s : State) (slot td : Nat) : Int :=
  let fmt := bits (fld (s.descImg slot td) 4 4) 5 2
  if 4 < fmt ∨ (s.scaleImg slot td).any (fun d => scBeMode d != 0) then Config.leastGrain (s.slot slot).imageId td
  else (match s.scaleImg slot td with | some d => (scBe d : Int) - 127 | none => 0) + (if fmt = 4 then -9 else 0)

/-- An operand that may not carry the zero point it carries: its format or its exponents (R171). -/
def State.zpShape (s : State) (slot td : Nat) : Bool :=
  s.hasZp slot td && (decide (3 < bits (fld (s.descImg slot td) 4 4) 5 2) || (s.scaleImg slot td).any (fun d => scBeMode d != 0))

/-- ZERO_POINT (R171): an MM or CV with an operand that breaks a condition, or whose grains lie below its anchor. -/
def State.badZeroPoint (s : State) (slot : Nat) : Bool :=
  (s.stream slot .xe).zipIdx.any (fun p =>
    let w := p.1
    (isOp 0x20 w || isOp 0x21 w) &&
      (match s.sourceOf slot (bits w 52 51) (2 * p.2) isTileFill, s.sourceOf slot (bits w 48 47) (2 * p.2 + 1) isTileFill with
        | some a, some b =>
          s.zpShape slot a || s.zpShape slot b ||
            ((s.hasZp slot a || s.hasZp slot b) && decide (s.grainOf slot a + s.grainOf slot b < sext 11 (bits w 36 26)))
        | _, _ => false))

/-- A byte of job memory under a segment table that is not bound yet. -/
def State.segByte (s : State) (segs : List VaSeg) (a : Nat) : Byte :=
  match segs.find? (fun g => g.vbase ≤ a && a < g.vbase + g.bytes) with
  | some g => (s.rawBytes (g.pbase + (a - g.vbase)) 1).getD 0 0
  | none => 0

/-- The output of a parameter descriptor applies a weight zero point that is not 0 (R172, R177): its zW array, as memory holds
it when JSC binds, has one. -/
def State.zwNonzero (s : State) (slot : Nat) (segs : List VaSeg) (td : Nat) : Bool :=
  let pd := s.descImg slot td
  let h := fld pd 6 2 % 4096
  let sw := s.descImg slot h
  let wt := fld pd 20 2 % 4096
  let nch := if wt ≠ 0 then (tensorOf [0, 0, 0, 0] (s.descImg slot wt)).dims.getD 1 1 else 32
  s.dType slot h == 2 && scZp sw &&
    (List.range (2 * nch)).any (fun i => s.segByte segs (fld sw 24 5 + 4 * nch + i) != 0)

/-- The next OS of a tile after instruction `i` of the execute stream, or else the first one, with its index: the tile's pending
output there. -/
def pendingOs (xe : List Nat) (i t : Nat) : Option (Nat × Nat) :=
  let os := xe.zipIdx.filter (fun p => isOp 0x22 p.1 && bits p.1 52 49 == t)
  match os.find? (fun p => i < p.2) with
  | some p => some p
  | none => os.head?

/-- LIVE_ZP (R173): a tile live at a slate or yield whose pending output applies a correction with zW ≠ 0. -/
def State.badLiveZp (s : State) (slot : Nat) (segs : List VaSeg) : Bool :=
  let xe := s.stream slot .xe
  xe.zipIdx.any (fun p =>
    (isOp 5 p.1 || isOp 6 p.1) &&
      (bitList 16 (leNat (s.secBytes slot 6 (128 * bits p.1 40 33 + 80) 2))).any (fun t =>
        match pendingOs xe p.2 t with
        | some (w, i) => (s.sourceOf slot (bits w 48 47) (2 * i) (isOp 0x17)).any (s.zwNonzero slot segs)
        | none => false))

/-- ZERO_POINT to OP_CONFLICT. -/
def State.chkScales (s : State) (slot : Nat) (retry : Bool) (segs : List VaSeg) : Ref :=
  let sc := s.descsOf slot 2
  firstRef
    [refIf (s.badZeroPoint slot) 0x37 8, refIf (s.badLiveZp slot segs) 0x38 8,
     refIf (sc.any (fun d => scRetry d && (scBeMode d != 1 || !retry))) 0x39 10,
     refIf (sc.any (fun d => decide (scThr d < 4) || decide (16 < scThr d) || decide (1 < scBeMode d))) 0x3A 8,
     refIf (s.fixed && decide (s.imgMaxOp slot < 5)) 0x3B 8]

/-! ### The job area and the VA table -/

/-- Sum of the parts (R291). -/
def sumParts (ps : List Nat) : Nat := ps.foldl (· + ·) 0

/-- JOB_AREA: alignment, length, RECORD_ENTRIES, DRAM, reels, program area with its tag tables, other jobs. -/
def State.badArea (s : State) (slot area bytes rec_ : Nat) : Bool :=
  area % 65536 != 0 || decide (rec_ < 16) || decide (65536 < rec_) || popCount 32 rec_ != 1 ||
    decide (bytes < sumParts (s.areaParts slot rec_)) || !s.inDram area bytes ||
    meets area bytes s.progBase (64 * s.slotBytes + 64 * (s.slotBytes / 16)) ||
    (List.range 32).any (fun n => s.reelLive n && meets area bytes (s.reelBase n) (128 * 2 ^ s.reelLog n)) ||
    s.jobs.any (fun j => meets area bytes j.area j.areaBytes)

def segOfBytes (b : List Byte) : VaSeg := ⟨fld b 0 5, fld b 5 5, 2097152 * fld b 10 4, bit (fld b 14 2) 0⟩

/-- Segments of a table of `n` entries. -/
def segsOf (bs : List Byte) (n : Nat) : List VaSeg := (List.range n).map (fun i => segOfBytes ((bs.drop (16 * i)).take 16))

/-- VA_TABLE: misaligned, empty, outside DRAM, overlapping another segment or the scratch mapping. -/
def State.badSegs (s : State) (slot : Nat) (gs : List VaSeg) : Bool :=
  gs.zipIdx.any (fun p =>
    let g := p.1
    g.vbase % 2097152 != 0 || g.pbase % 2097152 != 0 || g.bytes == 0 || !s.inDram g.pbase g.bytes ||
      meets g.vbase g.bytes 0xC000000000 (s.shScratch slot) ||
      gs.zipIdx.any (fun q => decide (q.2 < p.2) && meets g.vbase g.bytes q.1.vbase q.1.bytes))

/-! ### Cues (R345) and descriptors -/

/-- A slot in TRK_POOL. -/
def State.inPool (s : State) (n : Nat) : Bool := bit (s.rn pgCue 0x108 + 2 ^ 32 * s.rn pgCue 0x10C) n

/-- Descriptors allocated to bound jobs. -/
def State.descUsed (s : State) : Nat := s.jobs.foldl (fun a j => a + s.sheet j.slot.val 10 2) 0

/-! ### Phase table (R514) -/

/-- Phase tags of the image, up to the highest one its PHASE instructions name. -/
def State.imgTags (s : State) (slot : Nat) : List Nat :=
  match (s.stream slot .xe).filter (isOp 7) with
  | [] => []
  | ws => List.range (ws.foldl (fun m w => max m (bits w 52 48)) 0 + 1)

/-- Gives each tag an entry; entry 255 is shared when 0 to 254 are taken. -/
def State.givePhases (s : State) (job slot : Nat) (tags : List Nat) : State × List (Nat × Nat) :=
  tags.foldl (fun (a : State × List (Nat × Nat)) tag =>
    let s := a.1
    let comp := leNat (s.secBytes slot 8 (4 * tag) 1)
    match (List.range 255).find? (fun e => s.winNat pgGaffer 32 e 0 2 == 0) with
    | some e =>
      (s.setWin pgGaffer 32 e [(0, 2, job), (2, 1, tag), (3, 1, 0xFF), (4, 1, comp), (5, 1, 1), (6, 2, 0), (8, 16, 0),
        (24, 8, 0)], a.2 ++ [(tag, e)])
    | none =>
      (if s.winNat pgGaffer 32 255 0 2 = 0 then
          s.setWin pgGaffer 32 255 [(0, 2, job), (2, 1, tag), (3, 1, 0xFF), (4, 1, comp), (5, 1, 3), (6, 2, 0), (8, 16, 0),
            (24, 8, 0)]
        else s, a.2 ++ [(tag, 255)])) (s, [])

/-- Entries are freed at unbind; the shared one with its last job. -/
def State.freePhases (s : State) (j : Job) : State :=
  j.phases.foldl (fun s p =>
    if p.2 = 255 ∧ s.jobs.any (fun k => k.id ≠ j.id ∧ k.phases.any (fun q => q.2 = 255)) then s
    else s.setWin pgGaffer 32 p.2 [(0, 32, 0)]) s

/-! ### Allocation in a cluster -/

/-- Cluster memory filled with zeros and their tags, counters at 0, barriers and groups. -/
def Cluster.take (c : Cluster) (job : BitVec 16) (nd : Need) : Cluster :=
  let c := match c.clFit nd.clmem with
    | some st => if nd.clmem = 0 then c else
        { c.write st (List.replicate nd.clmem 0) with allocs := c.allocs ++ [(job, st, nd.clmem)] }
    | none => c
  let cnts := (List.zip nd.cnts c.freeCnts).foldl (fun l p => l.set p.2 { WorkCnt.reset with job := job, cnt := p.1 }) c.counters
  let bars := c.barriers ++ (List.zip nd.bars c.freeBars).map (fun p => ⟨p.2, job, p.1, []⟩)
  let grps := c.groups ++ (List.zip (List.range nd.groups) c.freeGroups).map (fun p => ⟨p.2, job, p.1, []⟩)
  { c with counters := cnts, barriers := bars, groups := grps }

/-- Unbinding gives all of it back. -/
def Cluster.give (c : Cluster) (job : BitVec 16) : Cluster :=
  { c with allocs := c.allocs.filter (fun x => x.1 != job)
           counters := c.counters.map (fun k => if k.job = job then WorkCnt.reset else k)
           barriers := c.barriers.filter (fun b => b.job != job)
           groups := c.groups.filter (fun g => g.job != job) }

/-- Work counters of a job, with their clusters (R267). -/
def State.cntsOf (s : State) (j : Job) : List (Nat × WorkCnt) :=
  (List.range 8).flatMap (fun c => ((s.cluster c).counters.filter (fun k => k.job == j.id)).map (fun k => (c, k)))

/-- Both copies of the mutable descriptors take the image's (R199). -/
def State.initMutables (s : State) (j : Job) : State :=
  let bs := (s.mutables j.slot.val).flatMap (s.descImg j.slot.val)
  if bs = [] then s else (s.writeVia 19 (j.areaPart 6) bs).writeVia 19 (j.areaPart 7) bs

/-! ### BIND -/

/-- What BIND names. -/
structure BindArgs where
  slot : Nat
  cls : Nat
  retry : Bool
  mask : Nat
  cue : Nat
  area : Nat
  bytes : Nat
  recs : Nat
  va : Nat
  vaN : Nat
  dl : Nat
  deriving DecidableEq, Repr

def bindArgs (b : List Byte) : BindArgs where
  slot := fld b 8 1
  cls := fld b 9 1
  retry := bit (fld b 10 1) 0
  mask := if fld b 11 1 = 0 then 255 else fld b 11 1
  cue := fld b 12 1
  area := fld b 16 5
  bytes := fld b 24 4
  recs := fld b 28 4
  va := fld b 32 5
  vaN := fld b 40 2
  dl := fld b 44 4

/-- DEADLINE_US in force. -/
def State.deadline (s : State) (a : BindArgs) : Nat := if a.dl ≠ 0 then a.dl else s.sheet a.slot 56 4

/-- The placement of a new job. -/
def State.placement (s : State) (a : BindArgs) (shares : Bool) : Option (List Nat) :=
  let nd := s.need a.slot
  placeFrom (fun c => bit a.mask c && s.clusterFits nd a.cls c && (!shares || s.shareFits nd c 0))
    (s.placeRank (s.slot a.slot).imageId) nd.clusters []

/-- Job barriers that JSC carries (R259). -/
def State.jobBarCount (s : State) : Nat := s.jobs.foldl (fun n j => n + j.jobBars.length) 0

/-- The checks of BIND in the order of R300, given the segments read. -/
def State.bindRef (s : State) (job : BitVec 16) (a : BindArgs) (segs : Option (List VaSeg)) : Ref :=
  let nd := s.need a.slot
  let cues := s.sheet a.slot 24 2
  (firstRef
    [refIf (job == 0 || (s.job? job).isSome) 0x05 4, refIf (decide (63 < a.slot)) 0x06 8,
     refIf (!(s.slot a.slot).loaded) 0x08 8]).or
  (firstRef
    [refIf (s.imageChanged a.slot) 0x30 8, refIf (s.absentUnit a.slot) 0x31 8,
     refIf (decide (256 ≤ s.jobs.length)) 0x32 4, refIf (s.badArea a.slot a.area a.bytes a.recs) 0x33 16,
     (match segs with
      | none => some (0x34, 32)
      | some gs => refIf (s.badSegs a.slot gs) 0x34 32),
     refIf (decide (64 < a.cue + cues) ||
       (List.range cues).any (fun i => (s.cue (a.cue + i)).owner.isSome || s.inPool (a.cue + i))) 0x35 12,
     refIf (decide (0x20000 < s.descUsed + s.sheet a.slot 10 2)) 0x36 8,
     s.chkScales a.slot a.retry (segs.getD []),
     refIf ((s.placement a false).isNone || decide (1024 < s.jobBarCount + nd.jobBars.length)) 0x3C 8,
     (match s.placement a true with
      | none => some (0x3D, 8)
      | some p => s.chkDeadline job a.slot a.cls a.mask (s.deadline a) p)])

/-- Everything a BIND that passes does, in one step (R296). -/
def State.bindJob (s : State) (c : Cmd) (a : BindArgs) (place : List Nat) (segs : List VaSeg) : State :=
  let job := c.job
  let nd := s.need a.slot
  let parts := s.areaParts a.slot a.recs
  let placed := place.map (fun k => (k, ((s.cluster k).clFit nd.clmem).getD 0))
  let s := place.foldl (fun s k => s.modCluster k (·.take job nd)) s
  let cues := s.sheet a.slot 24 2
  let s := (List.range cues).foldl (fun s i => s.setCue (a.cue + i) { s.cue (a.cue + i) with owner := some job }) s
  let d := s.jobD a.slot a.mask
  let dl := s.deadline a
  let (s, phases) := s.givePhases job.toNat a.slot (s.imgTags a.slot)
  let j : Job :=
    { id := job, owner := c.session, ownerGen := c.gen, slot := Fin.ofNat 64 a.slot, cls := a.cls, retry := a.retry,
      dUnits := d, placed := placed, cueFirst := a.cue, cueCount := cues, area := a.area, areaBytes := a.bytes,
      recEntries := a.recs, parts := parts, segs := segs, deadlineUs := dl, st := .idle, runs := [], cur := none,
      cores := [], claimed := [], ready := false, released := false, takeNo := 1, failures := 0, lost := false, resuming := false, committed := false,
      slateId := 0, slateSeq := 0, slateB := false, half := 0, saves := [], saveCnt := [],
      spillSaves := [], sums := [0, 0, 0, 0, 0], records := [], fired := [], yieldTarget := none,
      jobBars := nd.jobBars.map (fun b => ⟨0, job, b, []⟩), rebind := none, nextD := 0, nextDeadline := 0, nextRetry := false, cancel := none, rearm := none,
      phases := phases }
  -- the area is written before the region is locked; neither touches the other (R291)
  let s := { s with jobs := s.jobs ++ [j] }
  let s := s.initMutables j
  let s := s.writeVia 19 a.area (List.replicate 4096 0)
  s.modJob job (fun j => { j with saveCnt := s.cntsOf j })

/-- BIND. JSC takes none before BOOT_DONE (R579, State.headWaits). -/
def bind (n : Nat) (s : State) : State :=
  s.takeCmd n (fun b => opIs 0x02 b && !bit (fld b 10 1) 1) (fun c s =>
    let a := bindArgs c.bytes
    let (t, bs, r) := if a.vaN = 0 ∨ 64 < a.vaN then (s, [], .error) else s.readVia 19 a.va (16 * a.vaN)
    let segs := if r = .ok then some (segsOf bs a.vaN) else none
    match s.bindRef c.job a segs with
    | some (code, o) =>
      (if code < 0x34 then s else if r = .poisoned then t.dramUe pgJsc (s.badLine 19 a.va (16 * a.vaN)) else t).refuse c code o
    | none =>
      match s.placement a true, segs with
      | some p, some gs =>
        (t.bindJob c a p gs).done c 0 0 (leBytes 8 (s.slot a.slot).imageId.toNat)
      | _, _ => t.refuse c 0x3C 8)

def execBind (reel : Fin 32) (s : State) : Host.Outcome State Fault Refusal := .next (bind reel.val s)

/-! ### REBIND (R192) -/

/-- The live-set entry that a slate ID of a stream names. -/
def State.slateLive (s : State) (slot id : Nat) : Option (List Byte) :=
  ((s.stream slot .xe).find? (fun w => isOp 5 w && bits w 52 41 == id)).map
    (fun w => s.secBytes slot 6 (128 * bits w 40 33) 128)

/-- The image of `new` can go on for a job bound to `old`: the same shape, and each slate of the old image, any of which
may be the next to commit, with the same ID and live-set entry. -/
def State.rebindMatches (s : State) (old new : Nat) : Bool :=
  s.shClusters old == s.shClusters new && s.shCores old == s.shCores new &&
    (s.ids old .xe 5).all (fun id => s.slateLive old id == s.slateLive new id)

/-- What the new image needs lies within what the job holds. -/
def State.withinHeld (s : State) (j : Job) (a : BindArgs) : Ref :=
  let nd := s.need a.slot
  let old := s.need j.slot.val
  let sub (x y : List Nat) : Bool := x.all y.contains
  firstRef
    [refIf (!((List.zip (s.areaParts a.slot j.recEntries) j.parts).all (fun p => decide (p.1 ≤ p.2)))) 0x33 16,
     refIf (decide (j.cueCount < s.sheet a.slot 24 2)) 0x35 12,
     refIf (decide (0x20000 < s.descUsed + s.sheet a.slot 10 2 - s.sheet j.slot.val 10 2)) 0x36 8,
     s.chkScales a.slot a.retry j.segs,
     refIf (decide (old.clmem < nd.clmem) || !sub nd.cnts old.cnts || !sub nd.bars old.bars ||
       !sub nd.jobBars old.jobBars || decide (old.groups < nd.groups) ||
       j.placed.any (fun p => decide (((List.range 16).filter (fun l =>
         s.coreMeets (16 * p.1 + l) nd.tiles j.cls)).length < nd.cores))) 0x3C 8,
     refIf (!j.placed.all (fun p => s.shareFits nd p.1 j.id)) 0x3D 8,
     s.chkDeadline j.id a.slot j.cls a.mask (s.deadline a) j.physClusters]

/-- The checks of REBIND in the order of R300. -/
def State.rebindRef (s : State) (c : Cmd) (j : Job) (a : BindArgs) : Ref :=
  (firstRef
    [refIf (decide (63 < a.slot)) 0x06 8, refIf (!(s.slot a.slot).loaded) 0x08 8, refIf (!c.owns j) 0x09 4]).or
  (firstRef
    [refIf (s.imageChanged a.slot) 0x30 8, refIf (s.absentUnit a.slot) 0x31 8, s.withinHeld j a,
     refIf (!s.rebindMatches j.slot.val a.slot) 0x40 8])

/-- BIND with REBIND: the switch waits for the job's next commit. -/
def rebind (n : Nat) (s : State) : State :=
  s.takeCmd n (fun b => opIs 0x02 b && bit (fld b 10 1) 1) (fun c s =>
    match s.job? c.job with
    | none => s.refuse c 0x04 4
    | some j =>
      let a := bindArgs c.bytes
      match s.rebindRef c j a with
      | some (code, o) => s.refuse c code o
      | none =>
        let (s, ph) := s.givePhases j.id.toNat a.slot
          ((s.imgTags a.slot).filter (fun t => !j.phases.any (fun p => p.1 == t)))
        (s.setJob { j with rebind := some (Fin.ofNat 64 a.slot), nextD := s.jobD a.slot a.mask, nextDeadline := s.deadline a,
                           nextRetry := a.retry, phases := j.phases ++ ph }).done
          c 0 0 (leBytes 8 (s.slot a.slot).imageId.toNat))

def execRebind (reel : Fin 32) (s : State) : Host.Outcome State Fault Refusal := .next (rebind reel.val s)

/-! ### Unbinding (R318) -/

/-- Releases everything the job holds. -/
def State.unbind (s : State) (j : Job) : State :=
  let s := (List.range 8).foldl (fun s c => (s.modCluster c (·.give j.id)).phaseDrop c j.id) s
  let s := (List.range 64).foldl (fun s n =>
    if (s.cue n).owner = some j.id then s.setCue n { s.cue n with owner := none } else s) s
  let s := s.freePhases j
  { s with jobs := s.jobs.filter (fun k => k.id != j.id) }

end Sys2Proof.Machine
end

