-- ==== Sys2Proof/Machine/Au.lean ====
section
/-! DEFINITION. Tag-checked reads outside the tensor complex (R469, R471, R484) and access-unit rings (R414, R415). -/

namespace Sys2Proof.Machine

/-! ### Tag-checked reads -/

/-- How a tag-checked read comes back: clean, with poison or refused, or with a block that fails its tag. -/
inductive TagRd where
  | ok | poisoned (line : Nat) | tag
  deriving DecidableEq, Repr

/-- A read of bytes with the tags of their blocks checked; of a poisoned one the first poisoned line is named (R18). -/
def State.tagRead (s : State) (port a n : Nat) : State × List Byte × TagRd :=
  let (s, bs, r) := s.readVia port a n
  if r ≠ .ok then (s, bs, .poisoned (s.badLine port a n)) else if s.tagsOk a n then (s, bs, .ok) else (s, bs, .tag)

/-- The absorbed record of a failed tag-checked read by the unit of a page (R484). -/
def State.tagFault (s : State) (page a : Nat) (r : TagRd) : State :=
  match r with
  | .ok => s
  | .poisoned l => s.dramUe page l
  | .tag => s.absorbed 0x01 6 page 0 a

/-! ### Access-unit rings -/

/-- Address of the block that holds block count `b` of a ring of 2^n blocks. -/
def auBlock (base n b : Nat) : Nat := base + 1024 * (1 + b % (2 ^ n - 1))

/-- Blocks of an access unit with `len` payload bytes. -/
def auBlocks (len : Nat) : Nat := (64 + len + 1023) / 1024

/-- WR_BLK and RD_BLK, read from the control block. -/
def State.auCounts (s : State) (port base : Nat) : State × Nat × Nat :=
  let (s, bs, _) := s.readVia port base 68
  (s, fld bs 0 4, fld bs 64 4)

/-- Blocks the consumer has not released. -/
def auUsed (wr rd : Nat) : Nat := (wr + 2 ^ 32 - rd) % 2 ^ 32

/-- The 64-byte header. -/
def auHeader (len seq arrival flags first media : Nat) (fmt : List Byte) : List Byte :=
  leBytes 4 len ++ leBytes 4 seq ++ leBytes 5 arrival ++ leBytes 1 flags ++ leBytes 2 first ++ leBytes 4 media ++
    fitBytes 12 fmt ++ List.replicate 32 0

/-- Writes blocks from a block count on, each with its tag. -/
def State.putBlocks (s : State) (port base n : Nat) : Nat → Nat → List Byte → State
  | _, 0, _ => s
  | b, k + 1, bs => (s.writeVia port (auBlock base n b) (fitBytes 1024 (bs.take 1024))).putBlocks port base n (b + 1) k (bs.drop 1024)

/-- Writes an access unit after `wr` and then the new WR_BLK, when the ring has room beside `rd`; false when it has not. -/
def State.putAu (s : State) (port base n wr rd : Nat) (hdr data : List Byte) : State × Bool :=
  let k := auBlocks data.length
  if 2 ^ n - 1 - auUsed wr rd < k then (s, false)
  else
    let s := s.putBlocks port base n wr k (hdr ++ data)
    (s.writeVia port base (leBytes 4 (wr + k)), true)

/-- The bytes of `k` blocks of a ring, and the first block that fails. -/
def State.getBlocks (s : State) (port base n : Nat) : Nat → Nat → State × List Byte × Option (Nat × TagRd)
  | _, 0 => (s, [], none)
  | b, k + 1 =>
    let a := auBlock base n b
    let (s, bs, r) := s.tagRead port a 1024
    let (s, rest, f) := s.getBlocks port base n (b + 1) k
    (s, bs ++ rest, if r = .ok then f else some (a, r))

end Sys2Proof.Machine
end

