-- ==== Sys2Proof/Machine/Track.lean ====
section
/-! DEFINITION. The track store (R452 to R464): one association frame from a job's detection list, and the cues it arms.
Coordinates are exact: phases in 2^−16 counts, slip in 2^−30, and sums scaled to a common denominator. -/

namespace Sys2Proof.Machine

/-- A detection (R452). -/
structure Det where
  a : Int
  lenA : Nat
  x : Int
  w : Nat
  phase : Int
  cls : Nat
  score : Nat
  emb : List Int
  deriving DecidableEq, Repr

/-- A track context by field (R454); `gone` marks bytes 43, 46 to 47, 57 and 62 to 63, kept as they stand. -/
structure Trk where
  gen : Nat
  st : Nat
  feed : Nat
  cls : Nat
  posA : Int
  lenA : Nat
  x : Int
  w : Nat
  slip : Int
  velX : Int
  score : Nat
  phaseLast : Int
  hits : Nat
  misses : Nat
  cueDone : Nat
  frameSeq : Nat
  timeLast : Nat
  birthSeq : Nat
  emb : List Int
  gone : List Byte
  deriving DecidableEq, Repr

/-- The header of a list (R452). -/
structure DetHead where
  count : Nat
  seq : Nat
  lo : Int
  hi : Int
  time : Nat
  deriving DecidableEq, Repr

/-- 64 signed bytes. -/
def embOf (bs : List Byte) : List Int := bs.map (fun b => b.toInt)
def embBytes (e : List Int) : List Byte := e.map (fun x => BitVec.ofInt 8 x)

def detOf (b : List Byte) : Det :=
  ⟨fldS b 0 8, fld b 8 4, (fld b 12 2 : Nat), fld b 14 2, fldS b 16 8, fld b 24 2, fld b 26 2, embOf ((b.drop 32).take 64)⟩

def trkOf (b : List Byte) : Trk where
  gen := bits (fld b 0 4) 31 20
  st := fld b 4 1
  feed := fld b 5 1
  cls := fld b 6 2
  posA := fldS b 8 8
  lenA := fld b 16 4
  x := (fld b 20 2 : Nat)
  w := fld b 22 2
  slip := fldS b 24 4
  velX := fldS b 28 2
  score := fld b 30 2
  phaseLast := fldS b 32 8
  hits := fld b 40 2
  misses := fld b 42 1
  cueDone := fld b 44 2
  frameSeq := fld b 48 4
  timeLast := fld b 52 5
  birthSeq := fld b 58 4
  emb := embOf ((b.drop 64).take 64)
  gone := (b.drop 43).take 1 ++ (b.drop 46).take 2 ++ (b.drop 57).take 1 ++ (b.drop 62).take 2

/-- The first 44 bytes of an entry: identity, position and motion. -/
def Trk.bytesA (t : Trk) (i : Nat) : List Byte :=
  leBytes 4 (i % 2 ^ 20 + t.gen % 4096 * 2 ^ 20) ++ leBytes 1 t.st ++ leBytes 1 t.feed ++ leBytes 2 t.cls ++
    leBytes 8 (wrapTo 64 t.posA) ++ leBytes 4 t.lenA ++ leBytes 2 (wrapTo 16 t.x) ++ leBytes 2 t.w ++
    leBytes 4 (wrapTo 32 t.slip) ++ leBytes 2 (wrapTo 16 t.velX) ++ leBytes 2 t.score ++ leBytes 8 (wrapTo 64 t.phaseLast)

/-- The rest of an entry: history and appearance. -/
def Trk.bytesB (t : Trk) : List Byte :=
  leBytes 2 t.hits ++ leBytes 1 t.misses ++ t.gone.take 1 ++ leBytes 2 t.cueDone ++ (t.gone.drop 1).take 2 ++
    leBytes 4 t.frameSeq ++ leBytes 5 t.timeLast ++ (t.gone.drop 3).take 1 ++ leBytes 4 t.birthSeq ++ t.gone.drop 4 ++
    embBytes t.emb

/-- The 128 bytes of the context at an index. -/
def Trk.bytes (t : Trk) (i : Nat) : List Byte := t.bytesA i ++ t.bytesB

/-! ### Registers (R463) -/

def feedOff (f w : Nat) : Nat := 0x800 + 64 * f + 4 * w
def ruleOff (r w : Nat) : Nat := 0xC00 + 64 * r + 4 * w
def State.feedW (s : State) (f w : Nat) : Nat := s.rn pgTrk (feedOff f w)
def State.ruleW (s : State) (r w : Nat) : Nat := s.rn pgTrk (ruleOff r w)
def State.trkBase (s : State) : Nat := s.rn pgTrk 0x100 % 2 ^ 28 * 4096
def State.trkAddr (s : State) (i : Nat) : Nat := s.trkBase + 128 * i
def State.partBase (s : State) (f : Nat) : Nat := s.feedW f 3 % 2 ^ 20
def State.partCount (s : State) (f : Nat) : Nat := s.feedW f 4 % 2 ^ 21

/-- A partition holds a context. -/
def State.inPart (s : State) (f i : Nat) : Bool :=
  bit (s.feedW f 0) 0 && s.partBase f ≤ i && i < s.partBase f + s.partCount f

/-- The words of 16-bit halves. -/
def loH (n : Nat) : Nat := n % 65536
def hiH (n : Nat) : Nat := n / 65536 % 65536

/-! ### Contexts in DRAM (R459) -/

/-- LIVE: contexts whose STATE, byte 4, is not FREE. -/
def State.trkLive (s : State) : Nat :=
  (s.dram.filter (fun p => s.trkBase ≤ p.1 && p.1 < s.trkBase + 2 ^ 27 && (p.1 - s.trkBase) % 128 == 4)).length

/-- The generation of a window entry advances (R70). -/
def State.bumpGen (s : State) (page e : Nat) : State :=
  let k := winKey page 1 e 0
  { s with winGen := mapSet s.winGen k 0 (mapGet s.winGen k 0 + 1) }

/-- Writes a context as one step. -/
def State.putTrk (s : State) (i : Nat) (t : Trk) : State := (s.writeVia 18 (s.trkAddr i) (t.bytes i)).bumpGen pgTracks i

/-- Reads a context; one that fails its tag or is poisoned becomes FREE, which counts and leaves a record (R459, R471). -/
def State.getTrk (s : State) (i : Nat) : State × Trk :=
  let a := s.trkAddr i
  let (s, bs, r) := s.tagRead 18 a 128
  let t := trkOf bs
  if r = .ok then (s, t)
  else
    let t := { t with st := 0 }
    (((s.tagFault pgTrk a r).satReg pgTrk 0x11C).putTrk i t, t)

/-- The contexts of a partition, ascending. -/
def State.getPart (s : State) : Nat → Nat → State × List (Nat × Trk)
  | _, 0 => (s, [])
  | i, n + 1 =>
    let (s, t) := s.getTrk i
    let (s, r) := s.getPart (i + 1) n
    (s, (i, t) :: r)

/-! ### Prediction and gating (R455, R456) -/

/-- A_p(φ) in 2^−46 counts, and X_p(φ) in 2^−29 pixels. -/
def Trk.ap (t : Trk) (φ : Int) : Int := t.posA * 2 ^ 30 + t.slip * (φ - t.phaseLast)
def Trk.xp (t : Trk) (φ : Int) : Int := t.x * 2 ^ 26 + t.velX * (φ - t.phaseLast)

/-- In view at the frame's mid phase. -/
def Trk.inView (t : Trk) (h : DetHead) : Bool :=
  let mid := t.posA * 2 ^ 31 + t.slip * (h.lo + h.hi - 2 * t.phaseLast)
  decide ((h.lo - t.lenA) * 2 ^ 31 ≤ mid) && decide (mid ≤ (h.hi + t.lenA) * 2 ^ 31)

/-- Overlap of two intervals of lengths l and m whose centres lie c and d, all in one unit and doubled. -/
def overlap2 (c d l m : Int) : Int := max 0 (min (2 * c + l) (2 * d + m) - max (2 * c - l) (2 * d - m))

/-- IoU as intersection and union in one unit. -/
def iouParts (t : Trk) (d : Det) : Int × Int :=
  let i := overlap2 (t.ap d.phase) (d.a * 2 ^ 30) ((t.lenA : Int) * 2 ^ 30) ((d.lenA : Int) * 2 ^ 30) *
    overlap2 (t.xp d.phase) (d.x * 2 ^ 26) ((t.w : Int) * 2 ^ 26) ((d.w : Int) * 2 ^ 26)
  (i, 4 * 2 ^ 56 * ((t.lenA : Int) * t.w + (d.lenA : Int) * d.w) - i)

/-- Σ of the absolute embedding differences. -/
def embSum (a b : List Int) : Nat := (List.zipWith (fun (x y : Int) => (x - y).natAbs) a b).foldl (· + ·) 0
/-- D as a 0.16 fraction. -/
def embDist (a b : List Int) : Nat := embSum a b * 65536 / 16320

/-- What gating and cost take from a feed: IOU_GATE, EMB_GATE, CLASS_MATCH, W_IOU, W_EMB. -/
structure Gate where
  iou : Nat
  emb : Nat
  cls : Bool
  wIou : Nat
  wEmb : Nat
  deriving DecidableEq, Repr

def State.gate (s : State) (f : Nat) : Gate :=
  ⟨loH (s.feedW f 5), hiH (s.feedW f 5), bit (s.feedW f 0) 27, loH (s.feedW f 6), hiH (s.feedW f 6)⟩

/-- A pair's cost, none where it is not gated; `free` stands for the IoU of two empty rectangles. -/
def Gate.cost (g : Gate) (free : Nat) (t : Trk) (d : Det) : Option Nat :=
  let (i, u) := iouParts t d
  let iou := if u = 0 then free else (i * 65536 / u).toNat
  let e := embDist t.emb d.emb
  if g.iou ≤ iou && e ≤ g.emb && (!g.cls || t.cls == d.cls) then some (g.wIou * (65536 - iou) + g.wEmb * e) else none

/-- A gated pair: cost, detection index, context index. -/
structure Pair where
  cost : Nat
  d : Nat
  i : Nat
  deriving DecidableEq, Repr

/-- The order of R457. -/
def Pair.le (p q : Pair) : Bool :=
  p.cost < q.cost || (p.cost == q.cost && (p.d < q.d || (p.d == q.d && p.i ≤ q.i)))

def insPair (p : Pair) : List Pair → List Pair
  | [] => [p]
  | q :: l => if p.le q then p :: q :: l else q :: insPair p l

/-- Takes pairs in order when neither side is taken. -/
def greedy : List Pair → List (Nat × Nat) → List (Nat × Nat)
  | [], acc => acc
  | p :: l, acc => greedy l (if acc.any (fun q => q.1 == p.d || q.2 == p.i) then acc else acc ++ [(p.d, p.i)])

/-- The matches of R457: detection and context. -/
def matches_ (g : Gate) (free : Nat) (ts : List (Nat × Trk)) (ds : List (Nat × Det)) : List (Nat × Nat) :=
  let ps := ds.flatMap (fun d => ts.filterMap (fun t => (g.cost free t.2 d.2).map (fun c => (⟨c, d.1, t.1⟩ : Pair))))
  greedy (ps.foldr insPair []) []

/-! ### Updates (R458) -/

/-- The update of a matched track. SLIP_GAIN and VELX_GAIN are 0.16 fractions (DEDUCED). -/
def State.trkMatch (s : State) (f : Nat) (h : DetHead) (t : Trk) (d : Det) : State × Trk :=
  let dφ := d.phase - t.phaseLast
  let g := s.feedW f 8
  let (s, slip, vx) :=
    if dφ = 0 ∨ t.hits = 0 then (s, t.slip, t.velX)
    else
      let (s, sl) := s.fitS 32 (rneDivI (t.slip * 2 ^ 16 * dφ + (loH g : Nat) * ((d.a - t.posA) * 2 ^ 30 - t.slip * dφ)) (2 ^ 16 * dφ))
      let (s, vx) := s.fitS 16 (rneDivI (t.velX * 2 ^ 16 * dφ + (hiH g : Nat) * ((d.x - t.x) * 2 ^ 26 - t.velX * dφ)) (2 ^ 16 * dφ))
      (s, sl, vx)
  let sh := bits (s.feedW f 0) 26 24
  let hits := min 65535 (t.hits + 1)
  let st := if t.st = 3 ∨ (t.st = 1 ∧ bits (s.feedW f 0) 15 8 ≤ hits) then 2 else t.st
  (s, { t with
        slip := slip, velX := vx, posA := d.a, lenA := d.lenA, x := d.x, w := d.w, cls := d.cls, score := d.score,
        phaseLast := d.phase, frameSeq := h.seq, timeLast := h.time, hits := hits, misses := 0, st := st,
        emb := List.zipWith (fun (e x : Int) => e + (x - e) / 2 ^ sh) t.emb d.emb })

/-- An unmatched track in view. -/
def Trk.age (t : Trk) (maxMisses : Nat) : Trk :=
  let m := min 255 (t.misses + 1)
  if t.st = 1 then { t with st := 0, misses := m }
  else if maxMisses < t.misses + 1 then { t with st := 0, misses := m }
  else { t with st := if t.st = 2 then 3 else t.st, misses := m }

/-- A track past the end. -/
def Trk.past (t : Trk) (h : DetHead) (endOfs : Int) : Bool :=
  t.st != 0 && decide ((t.posA + endOfs) * 2 ^ 30 < t.ap h.hi)

/-- A track born of a detection in a context. -/
def Trk.born (old : Trk) (f nConfirm : Nat) (h : DetHead) (d : Det) : Trk where
  gen := (old.gen + 1) % 4096
  st := if nConfirm = 1 then 2 else 1
  feed := f
  cls := d.cls
  posA := d.a
  lenA := d.lenA
  x := d.x
  w := d.w
  slip := 0
  velX := 0
  score := d.score
  phaseLast := d.phase
  hits := 1
  misses := 0
  cueDone := 0
  frameSeq := h.seq
  timeLast := h.time
  birthSeq := h.seq
  emb := d.emb
  gone := List.replicate 6 0

/-- The contexts of a frame while it is worked on: index, context as read, context now, and whether it was updated. -/
structure Work where
  i : Nat
  old : Trk
  t : Trk
  upd : Bool
  deriving DecidableEq, Repr

/-- Applies a function to one context. -/
def modWork (ws : List Work) (i : Nat) (f : Work → Work) : List Work := ws.map (fun w => if w.i = i then f w else w)

/-- The matched tracks, in ascending detection index. -/
def applyMatches (f : Nat) (h : DetHead) (ms : List (Nat × Nat)) :
    List (Nat × Det) → State → List Work → State × List Work
  | [], s, ws => (s, ws)
  | (k, d) :: ds, s, ws =>
    match ms.find? (fun m => m.1 = k) with
    | none => applyMatches f h ms ds s ws
    | some m =>
      match ws.find? (fun w => w.i = m.2) with
      | none => applyMatches f h ms ds s ws
      | some w =>
        let (s, t) := s.trkMatch f h w.t d
        applyMatches f h ms ds s (modWork ws m.2 (fun w => { w with t := t, upd := true }))

/-- FRAME_SEQs counted back from the present frame. -/
def seqAge (now q : Nat) : Nat := (now + 2 ^ 32 - q) % 2 ^ 32

/-- The context an eviction takes: the oldest FRAME_SEQ, then the lowest index, not updated in this frame. -/
def victim (now : Nat) : List Work → Option Work
  | [] => none
  | w :: ws =>
    match victim now ws with
    | none => if w.upd then none else some w
    | some v => if w.upd || seqAge now w.t.frameSeq < seqAge now v.t.frameSeq then some v else some w

/-- A birth: a FREE context, else an eviction, else the detection is dropped. -/
def birth (f : Nat) (h : DetHead) (d : Det) (s : State) (ws : List Work) : State × List Work :=
  let put (w : Work) : List Work :=
    modWork ws w.i (fun w => { w with t := w.t.born f (bits (s.feedW f 0) 15 8) h d, upd := true })
  match ws.find? (fun w => w.t.st = 0) with
  | some w => (s, put w)
  | none =>
    match victim h.seq ws with
    | some w => ((s.satReg pgTrk 0x110).raise pgTrk 3, put w)
    | none => (s.satReg pgTrk 0x10C, ws)

/-- The unmatched detections, ascending. -/
def births (f : Nat) (h : DetHead) (ms : List (Nat × Nat)) : List (Nat × Det) → State → List Work → State × List Work
  | [], s, ws => (s, ws)
  | (k, d) :: ds, s, ws =>
    if ms.any (fun m => m.1 = k) || d.score < loH (s.feedW f 7) then births f h ms ds s ws
    else let (s, ws) := birth f h d s ws; births f h ms ds s ws

/-! ### Cues from tracks (R461, R462) -/

/-- A rule applies to a track. -/
def State.ruleApplies (s : State) (r f : Nat) (t : Trk) : Bool :=
  let w0 := s.ruleW r 0
  let w1 := s.ruleW r 1
  let ax := bits (s.feedW f 0) 3 1
  bit w0 0 && bits w0 4 1 == f && (hiH w0 == 0xFFFF || hiH w0 == t.cls) && loH w1 ≤ t.score &&
    (t.st == 2 || (t.st == 1 && !bit w1 16)) && !bit t.cueDone r && (s.axis ax).velValid && decide (t.slip.natAbs < 2 ^ 29)

/-- The width before its encoding, in ns as a fraction. -/
def State.ruleWidth (s : State) (r : Nat) (t : Trk) (v : Int) : Nat × Nat :=
  let lo := s.ruleW r 7
  let hi := s.ruleW r 8
  if !bit (s.ruleW r 0) 6 then (s.ruleW r 5, 1)
  else if v = 0 then (hi, 1)
  else
    let n := t.lenA * 2 ^ 24
    let d := v.natAbs
    if n < lo * d then (lo, 1) else if hi * d < n then (hi, 1) else (n, d)

/-- Its encoding: the WIDTH field with its unit bit, and the encoded width in ns. -/
def encWidth (n d : Nat) : Nat × Nat :=
  if n ≤ 16383 * d then let w := (rneDiv n d).toNat; (w, w)
  else let w := min 16383 (rneDiv n (1000 * d)).toNat; (w + 2 ^ 14, 1000 * w)

/-- The lowest pool slot whose ARM is 0. -/
def State.poolSlot (s : State) : Option Nat :=
  (List.range 64).find? (fun n => bit (s.rn pgCue (if n < 32 then 0x108 else 0x10C)) (n % 32) && !s.cueArmed n)

/-- Arms a pool slot for a track by a rule. -/
def State.armRule (s : State) (r f n : Nat) (t : Trk) : State :=
  let w0 := s.ruleW r 0
  let ax := bits (s.feedW f 0) 3 1
  let v := (s.axis ax).v
  let ofs := s.reg64 pgTrk (ruleOff r 2)
  let one : Int := 0x40000000
  let at_ := s.fitS 64 (s.axReduce ax (rneDivI ((t.posA + ofs) * one - t.slip * t.phaseLast) (one - t.slip)))
  let width := s.ruleWidth r t v
  let enc := encWidth width.1 width.2
  let s := at_.1
  let tgt := at_.2
  let ahead := s.fitS 32 (8 * (s.ruleW r 4 : Nat) + (if bit w0 7 then 4 * enc.2 else 0 : Nat))
  let s := ahead.1
  let ctl := 1 + 8 * ax + (if 0 < v then 0x40 else 0x80) + (if bit w0 5 then 0x400 else 0x200)
  let act := if bit w0 5 then (s.ruleW r 6 % 2048) * 64 else bits w0 11 8 + 16 * bits w0 13 12 + enc.1 * 2 ^ 17
  let s := s.setRn pgCue (cueOff n 0) ctl
  let s := (s.setRn pgCue (cueOff n 4) (wrapTo 32 tgt)).setRn pgCue (cueOff n 8) (wrapTo 64 tgt / 2 ^ 32)
  let s := (s.setRn pgCue (cueOff n 0xC) (wrapTo 32 ahead.2)).setRn pgCue (cueOff n 0x10) act
  s.armCue n

/-- One rule over the updated tracks, ascending. -/
def ruleCues (f r : Nat) : List Work → State → State × List Work
  | [], s => (s, [])
  | w :: ws, s =>
    let (s, w) :=
      if w.upd && s.ruleApplies r f w.t then
        match s.poolSlot with
        | some n => (s.armRule r f n w.t, { w with t := { w.t with cueDone := w.t.cueDone ||| 2 ^ r } })
        | none => ((s.satReg pgTrk 0x114).raise pgTrk 2, w)
      else (s, w)
    let (s, ws) := ruleCues f r ws s
    (s, w :: ws)

/-- Every rule, ascending. -/
def allCues (f : Nat) : Nat → Nat → State → List Work → State × List Work
  | _, 0, s, ws => (s, ws)
  | r, n + 1, s, ws => let (s, ws) := ruleCues f r ws s; allCues f (r + 1) n s ws

/-! ### TRK_FRAME -/

/-- The frame is discarded (R453). -/
def State.detDrop (s : State) : State := (s.satReg pgTrk 0x10C).raise pgTrk 1

/-- Association, updates, cues and writes of one read frame (R455 to R462). -/
def State.trkRun (s : State) (f : Nat) (h : DetHead) (ds : List (Nat × Det)) : State :=
  let (s, part) := s.getPart (s.partBase f) (s.partCount f)
  let live := part.filter (fun p => p.2.st ≠ 0)
  let seen := live.filter (fun p => p.2.inView h)
  let view := seen.take 8192
  let s := if seen.length ≤ 8192 then s else s.satReg pgTrk 0x10C (seen.length - 8192)
  let (s, free) := s.drawNat 16
  let ms := matches_ (s.gate f) free view ds
  let (s, ws) := applyMatches f h ms ds s (part.map (fun p => (⟨p.1, p.2, p.2, false⟩ : Work)))
  let mm := bits (s.feedW f 0) 23 16
  let ws := ws.map (fun w =>
    if !w.upd && view.any (fun p => p.1 = w.i) && !w.t.past h (s.reg64 pgTrk (feedOff f 9)) then { w with t := w.t.age mm } else w)
  let eo := s.reg64 pgTrk (feedOff f 9)
  let ws := ws.map (fun w => if w.t.past h eo && !(seen.drop 8192).any (fun p => p.1 = w.i) then { w with t := { w.t with st := 0 } } else w)
  let (s, ws) := births f h ms ds s ws
  let live := ws.map (fun w => if w.t.st = 0 then { w with upd := false } else w)
  let (s, ws) := allCues f 0 16 s live
  let s := ws.foldl (fun s w => if w.t = w.old then s else s.putTrk w.i w.t) s
  let (s, ns) := s.drawNat 32
  let (s, miss) := s.drawNat 32
  (((s.setRn pgTrk 0x120 ns).incReg pgTrk 0x124 miss).incReg pgTrk 0x108).raise pgTrk 0

/-- TRK reads the list of a committed half and works on it; a list that fails is discarded whole. -/
def State.trkTake (s : State) (f : Nat) (j : Job) : State :=
  let off := s.feedW f 2
  let a := j.areaPart (4 + j.half) + off
  let top := s.shTakeBuf j.slot.val
  if top < off + 64 then s.detDrop
  else
    let (s, hb, r) := s.tagRead 18 a 64
    if r ≠ .ok then (s.tagFault pgTrk a r).detDrop
    else
      let h : DetHead := ⟨fld hb 0 4, fld hb 4 4, fldS hb 8 8, fldS hb 16 8, fld hb 24 5⟩
      if 1024 < h.count ∨ top < off + 64 + 96 * h.count then s.detDrop
      else
        let (s, bs, r) := s.tagRead 18 (a + 64) (96 * h.count)
        if r ≠ .ok then (s.tagFault pgTrk a r).detDrop
        else s.trkRun f h ((List.range h.count).map (fun k => (k, detOf ((bs.drop (96 * k)).take 96))))

/-- TRK_FRAME: a feed whose job has committed a slate. -/
def trkFrame (feed : Nat) (s : State) : State :=
  if !s.trkDue.contains feed then s
  else
    let s := { s with trkDue := delN s.trkDue feed }
    match s.job? (BitVec.ofNat 16 (s.feedW feed 1)) with
    | some j => if s.enabled pgTrk && bit (s.feedW feed 0) 0 then s.trkTake feed j else s
    | none => s

def execTrkFrame (feed : Fin 16) (s : State) : Host.Outcome State Fault Refusal := .next (trkFrame feed.val s)

/-- The feeds of a job. -/
def State.feedsOf (s : State) (job : BitVec 16) : List Nat :=
  (List.range 16).filter (fun f => bit (s.feedW f 0) 0 && s.feedW f 1 % 65536 == job.toNat)

/-- A job's commit waits until TRK has read the list of the commit before (R453). -/
def State.trkFlush (s : State) (job : BitVec 16) : State :=
  (s.trkDue.filter (fun f => s.feedW f 1 % 65536 == job.toNat)).foldl (fun s f => trkFrame f s) s

/-- JSC notifies TRK of a commit (R453). -/
def State.trkNotify (s : State) (job : BitVec 16) : State :=
  if s.enabled pgTrk then { s with trkDue := (s.feedsOf job).foldl insN s.trkDue } else s

end Sys2Proof.Machine
end

