-- ==== Sys2Proof/Machine/Take.lean ====
section
/-! DEFINITION. Takes (R301 to R314, R319, R320) and what the streams do at slates, yields and END (R224 to R232): cores
given and taken back, claims, releases, spills, restores, commits, and how a run ends. -/

namespace Sys2Proof.Machine

/-! ### Ends of runs (R290, R322) -/

/-- RUN_DONE in the entry its command reserved. -/
def State.runDone (s : State) (j : Job) (r : Run) (status : Nat) : State :=
  let start := match r.start with | some t => t.toNat | none => 0
  let result := leBytes 8 r.tag ++ leBytes 5 start ++ leBytes 1 r.maxTake ++ leBytes 2 (min r.restarts 0xFFFF) ++
    leBytes 2 (min r.preempts 0xFFFF) ++ leBytes 2 r.lastSlate ++ j.sums.flatMap (leBytes 4)
  let s := (s.unreserve r.reel).complete r.reel 2 status r.seq j.id r.opcode 0 result
  if status = 0 then s.acct r.session r.gen 8 else if status = 0x70 then s.acct r.session r.gen 20 else s

/-- Pending runs are removed, each with a RUN_DONE of status CANCELLED (R315). -/
def State.cancelRuns (s : State) (j : Job) : State :=
  let s := j.runs.foldl (fun s r => s.runDone j r 0x70) s
  s.modJob j.id (fun j =>
    { j with runs := [], claimed := if j.cur.isNone then [] else j.claimed
             st := if j.st = .queued ∧ j.cur.isNone then .idle else j.st })

/-! ### Cores given back -/

/-- A core that holds no take. Scratchpad, instruction cache, tiles and registers stay. -/
def Core.release (c : Core) : Core :=
  { c with
    mode := .idle, job := 0, lcore := 0, wq3 := false, maxOp := 0, fe := Eng.reset, xe := Eng.reset,
    tq0 := [], tq1 := [], tq2 := [], tq3 := [], busy := [], curSlot := none, xfers := [], sets := [], osq := [], tickets := [],
    sb := List.replicate 32 SBEntry.reset, dcache := [], vaccSeq := none }

/-- Multicast counts of a job start again at 0 (R255). -/
def Cluster.zeroGroups (c : Cluster) (job : BitVec 16) : Cluster :=
  { c with groups := c.groups.map (fun g => if g.job = job then { g with counts := [] } else g) }
/-- Nothing has arrived at the job's barriers. -/
def Cluster.zeroBars (c : Cluster) (job : BitVec 16) : Cluster :=
  { c with barriers := c.barriers.map (fun b => if b.job = job then { b with arrived := [] } else b) }

/-- The job's take leaves its cores. -/
def State.freeTake (s : State) (id : BitVec 16) : State :=
  match s.job? id with
  | none => s
  | some j =>
    let s := j.cores.foldl (fun s n => s.modCore n (fun c => if c.job = id then c.release else c)) s
    let s := j.physClusters.foldl (fun s c => (s.modCluster c (fun k => (k.zeroGroups id).zeroBars id)).phaseDrop c id) s
    s.setJob { j with cores := [], claimed := [], ready := false, released := false, yieldTarget := none,
                      jobBars := j.jobBars.map (fun b => { b with arrived := [] }) }

/-- A lost take's outputs (R229): mutable descriptors return to the committed copy, its records are discarded. -/
def State.revert (s : State) (id : BitVec 16) : State :=
  match s.job? id with
  | none => s
  | some j =>
    let n := 64 * (s.mutables j.slot.val).length
    let s := if n = 0 then s else s.writeVia 19 (j.areaPart 6) (s.rawBytes (j.areaPart 7) n)
    s.modJob id (fun j => { j with records := [] })

/-- Work counters return to their saved state (R267). -/
def State.restoreCnts (s : State) (j : Job) : State :=
  j.saveCnt.foldl (fun s p =>
    s.modCluster p.1 (fun c =>
      match c.counterAt j.id p.2.cnt with
      | some i => c.setCounter i p.2
      | none => c)) s

/-- FAILED (R320): the current run ends with a status, pending runs end CANCELLED. -/
def State.failJob (s : State) (id : BitVec 16) (status : Nat) : State :=
  match s.job? id with
  | none => s
  | some j =>
    let s := match j.cur with | some r => s.runDone j r status | none => s
    let s := (s.freeTake id).revert id
    let s := s.modJob id (fun j => { j with cur := none, st := .failed, rearm := none, spillSaves := [], committed := false,
                                            saves := [], resuming := false })
    match s.job? id with
    | some j => ((s.cancelRuns j).raise pgJsc 0).recoveryDrops
    | none => s

/-- The job's shape fits the clusters it is placed in, cores retired apart (R320). -/
def State.shapeFits (s : State) (j : Job) : Bool :=
  let nd := s.need j.slot.val
  j.placed.all (fun p => nd.cores ≤ ((List.range 16).filter (fun l => s.coreMeets (16 * p.1 + l) nd.tiles 1)).length)

/-- SHAPE_LOST of a job that holds no cores. -/
def State.shapeCheck (s : State) (id : BitVec 16) : State :=
  match s.job? id with
  | none => s
  | some j => if j.cores = [] ∧ j.st ≠ .failed ∧ j.st ≠ .cancelling ∧ !s.shapeFits j then s.failJob id 0x72 else s

/-- SHAPE_LOST after a retirement in a cluster. -/
def State.shapeChecks (s : State) (c : Nat) : State :=
  (s.jobs.filter (·.inCluster c)).foldl (fun s j => s.shapeCheck j.id) s

/-! ### Cores for a take (R302, R305, R306) -/

/-- The job's next take, and its place in the order: class, kind (restart, spilled, pending), and ID or acceptance. -/
def Job.candidate (j : Job) : Option (Nat × Nat × Nat) :=
  if j.cores ≠ [] ∨ j.cancelling then none
  else
    match j.st, j.cur with
    | .restarting, some _ => some (j.cls, 0, j.id.toNat)
    | .spilled, some r => some (j.cls, 1, r.acc)
    | .queued, none => (j.runs.head?).map (fun r => (j.cls, 2, r.acc))
    | _, _ => none

/-- A place in the order is before another. -/
def before (a b : Nat × Nat × Nat) : Bool :=
  a.1 < b.1 || a.1 == b.1 && (a.2.1 < b.2.1 || a.2.1 == b.2.1 && a.2.2 < b.2.2)

/-- A core that a take of the job may get: free or running a daily, enabled, not withheld, claimed by no other job. -/
def State.coreFree (s : State) (j : Job) (n : Nat) : Bool :=
  let c := s.core n
  s.coreMeets n (s.sheet j.slot.val 8 1) j.cls && (c.mode == .idle || c.daily) && s.enabled (pgTc n) &&
    !(s.healthOf n).withheld && !s.jobs.any (fun k => k.id != j.id && k.claimed.contains n)

/-- Preference of R302 for a logical core. -/
def State.pickRank (s : State) (id : BitVec 64) (lc n : Nat) : Nat :=
  let c := s.core n
  let same := c.lastSlot.isSome && c.lastImage == id
  (if same && c.icacheValid && c.lastLcore == lc then 2 else if same then 1 else 0) * 128 + (127 - n)

/-- The physical core of each logical core, from cores that `ok` admits; `bonus` ranks before the preference. -/
def State.pickCores (s : State) (j : Job) (ok : Nat → Bool) (bonus : Nat → Nat) : Option (List Nat) :=
  let k := s.shCores j.slot.val
  let id := (s.slot j.slot.val).imageId
  let rank (lc n : Nat) : Nat := bonus n * 1024 + s.pickRank id lc n
  (List.range (s.shClusters j.slot.val * k)).foldl (fun acc lc =>
    acc.bind (fun got =>
      match j.placed[lc / k]? with
      | none => none
      | some p =>
        match ((List.range 16).map (16 * p.1 + ·)).filter (fun n => ok n && !got.contains n) with
        | [] => none
        | c :: cs => some (got ++ [cs.foldl (fun b x => if rank lc b < rank lc x then x else b) c]))) (some [])

/-- The clusters' shares not held by takes cover the job's rates (R302). -/
def State.takeShares (s : State) (j : Job) : Bool :=
  j.physClusters.all (fun c =>
    let on := s.jobs.filter (fun k => k.id != j.id && k.cores.any (fun n => clusterOf n == c))
    on.foldl (fun a k => a + s.jobRate false k) 0 + s.jobRate false j ≤ s.tshare false c &&
      on.foldl (fun a k => a + s.jobRate true k) 0 + s.jobRate true j ≤ s.tshare true c)

/-- Cores with which the job's take can start now. -/
def State.canStart (s : State) (j : Job) : Option (List Nat) :=
  if s.takeShares j then s.pickCores j (s.coreFree j) (fun _ => 0) else none

/-- A take that a run of class `cls` may pre-empt (R313). -/
def Job.mayPreempt (v : Job) (cls : Nat) : Bool :=
  cls < v.cls && v.cls != 0 && v.st == .running && v.released && !v.cancelling

/-- Cores a run claims: free ones first, then those of takes of strictly lower classes (R306). -/
def State.claimCores (s : State) (j : Job) : Option (List Nat) :=
  let victim (n : Nat) : Bool :=
    s.coreMeets n (s.sheet j.slot.val 8 1) j.cls && s.enabled (pgTc n) && !(s.healthOf n).withheld &&
      (match s.coreJob n with | some v => v.mayPreempt j.cls | none => false) &&
      !s.jobs.any (fun k => k.id != j.id && k.claimed.contains n)
  s.pickCores j (fun n => s.coreFree j n || victim n) (fun n => b2n (s.coreFree j n))

/-- JSC claims cores: their takes get a yield target above every count reached (R231, R303). -/
def State.claim (s : State) (j : Job) (cores : List Nat) : State :=
  let s := s.modJob j.id (fun j => { j with claimed := cores })
  let s := s.jobs.foldl (fun s v =>
    if v.id ≠ j.id ∧ v.yieldTarget = none ∧ v.cores.any cores.contains then
      let m := v.cores.foldl (fun m n => max m (max (s.core n).fe.yields (s.core n).xe.yields)) 0
      s.modJob v.id (fun v => { v with yieldTarget := some (m + 1) })
    else s) s
  j.physClusters.foldl (fun s c => s.claimCeiling c) s

/-! ### A take on its cores (R140, R198, R302) -/

/-- Handles that fill the descriptor cache; a poisoned descriptor is not cached. -/
def State.preload (s : State) (slot : Nat) : List Nat :=
  ((List.range (s.secLen slot 14 / 2)).map (fun i => leNat (s.secBytes slot 14 (2 * i) 2))).filter
    (fun h => !s.isPoison (s.slotAddr slot + s.secOff slot 4 + 64 * h) 64)

/-- What a core is when a take is placed on it; `fresh` when a take starts. -/
def Core.seat (c : Core) (job : BitVec 16) (l slot : Nat) (id : BitVec 64) (wq3 : Bool) (maxOp : Nat) (pre : List Nat)
    (m : CoreMode) (fresh : Bool) : Core :=
  let same := c.lastSlot.isSome && c.lastImage == id && !c.daily
  { c.release with
    mode := m, job := job, lcore := l, wq3 := wq3, maxOp := maxOp, dcache := pre, daily := false
    icache := if same then c.icache else [], icacheValid := same && c.icacheValid
    lastSlot := some slot, lastImage := id, lastJob := job, lastLcore := l, takes := if fresh then c.takes + 1 else c.takes
    nextSlot := [0, 0, 0, 0], nextSet := false, argmax := List.replicate 32 none, status := TakeStatus.reset }

def State.seatTake (s : State) (j : Job) (cores : List Nat) (m : CoreMode) (fresh : Bool) : State :=
  let slot := j.slot.val
  let id := (s.slot slot).imageId
  let pre := s.preload slot
  cores.zipIdx.foldl (fun s p =>
    let daily := (s.core p.1).daily
    let s := s.modCore p.1 (fun c => c.seat j.id p.2 slot id (bit (s.sheet slot 128 4) 6) (s.imgMaxOp slot) pre m fresh)
    if daily then { s with health := s.health.setIfInBounds p.1 { s.healthOf p.1 with running := false } } else s) s

/-- The lines that hold the next 64 instructions of a stream go into the instruction cache (R140, R229). -/
def State.warm (s : State) (n slot : Nat) (e : Engine) : State :=
  let pc := ((s.core n).eng e).pc
  (List.range 9).foldl (fun s k =>
    let i := pc / 8 + k
    if 8 * i < pc + 64 ∧ i < s.streamLines slot e ∧ (s.core n).mode ≠ .stopped ∧
        !(s.core n).icache.any (fun l => l.fe == (e == .fe) && l.index == i) then
      s.icFetch n slot (e == .fe) i .ok
    else s) s

def State.warmTake (s : State) (j : Job) : State :=
  j.cores.foldl (fun s n => (s.warm n j.slot.val .fe).warm n j.slot.val .xe) s

/-! ### TAKE_START -/

/-- The run in its take number `k` (R290). -/
def Run.inTake (r : Run) (k : Nat) : Run := { r with maxTake := max r.maxTake k }

/-- The first pending run of an idle job takes its cores; an armed one is warmed. A run armed again after a lost take is in its
next take (R319, R477). -/
def State.startRun (s : State) (j : Job) (r : Run) (cores : List Nat) : State :=
  let j' := { j with
    runs := j.runs.tail, cur := some (r.inTake (min 255 (r.maxTake + 1))), cores := cores, claimed := [], ready := true
    released := false, takeNo := min 255 (r.maxTake + 1), failures := if r.maxTake = 0 then 0 else j.failures, lost := false
    committed := false, fired := [], yieldTarget := none, saves := [], st := if r.armed then .queued else .running }
  let s := (s.setJob j').seatTake j' cores (if r.armed then .reserved else .running) true
  let s := j.physClusters.foldl (fun s c => s.claimCeiling c) s
  if r.armed then s.warmTake j' else s

/-- A lost take starts again from its slate, or from the start of its streams (R229, R477). -/
def State.startAgain (s : State) (j : Job) (cores : List Nat) : State :=
  let j' := { j with
    cores := cores, claimed := [], ready := !j.committed, released := false, takeNo := min 255 (j.takeNo + 1), fired := []
    cur := j.cur.map (·.inTake (min 255 (j.takeNo + 1))), yieldTarget := none, lost := false, resuming := true }
  let s := (s.setJob j').seatTake j' cores (if j.committed then .restoring else .running) true
  let s := j.physClusters.foldl (fun s c => s.claimCeiling c) s
  if j.committed then s else s.warmTake j'

/-- A spilled take resumes (R231, R314). -/
def State.resume (s : State) (j : Job) (cores : List Nat) : State :=
  let j' := { j with cores := cores, claimed := [], ready := false, released := false, yieldTarget := none }
  let s := (s.setJob j').seatTake j' cores .restoring false
  j.physClusters.foldl (fun s c => s.claimCeiling c) s

/-- TAKE_START: the job's next take starts when no take before it in the order can start; the first pending run of its
class claims cores where they are not free. -/
def takeStart (id : BitVec 16) (s : State) : State :=
  match s.job? id with
  | none => s
  | some j =>
    match j.candidate with
    | none => s
    | some key =>
      let earlier (k : Job) : Bool := match k.candidate with | some q => before q key | none => false
      if s.c2Active || s.jobs.any (fun k => k.id != id && earlier k && (s.canStart k).isSome) then s
      else match s.canStart j with
        | some cores =>
          match key.2.1, j.runs with
          | 0, _ => s.startAgain j cores
          | 1, _ => s.resume j cores
          | _, r :: _ => s.startRun j r cores
          | _, [] => s
        | none =>
          let first := !s.jobs.any (fun k => k.cls == j.cls && (match k.candidate with
            | some q => q.2.1 == 2 && before q key | none => false))
          if key.2.1 = 2 ∧ first ∧ (j.claimed = [] ∨ !j.claimed.all (fun n => s.coreMeets n (s.sheet j.slot.val 8 1) j.cls)) then
            match s.claimCores j with
            | some cores => s.claim j cores
            | none => s
          else s

def execTakeStart (job : BitVec 16) (s : State) : Host.Outcome State Fault Refusal := .next (takeStart job s)

/-! ### FE_RELEASE (R221, R303, R309, R310) -/

/-- The FE of every core goes; the XE follows after XE_DELAY (XE_START) or its HOLD cycles. A resumption and a slate start no
take here. -/
def State.releaseTake (s : State) (j : Job) : State :=
  let s := j.cores.foldl (fun s n => s.modCore n (fun c => { c with mode := .running, fe := { c.fe with wait := .none } })) s
  let s := s.modJob j.id (fun j =>
    { j with st := .running, released := true, spillSaves := [], cur := j.cur.map (fun r => { r with armed := false }) })
  if j.st == .spilled || j.st == .slating then s else s.incReg pgJsc 0x110

/-- FE_RELEASE: releases the take, or reports an armed one ARMED, once every cluster's point allows it. -/
def feRelease (id : BitVec 16) (s : State) : State :=
  match s.job? id with
  | none => s
  | some j =>
    if j.cores ≠ [] && j.ready && !j.released && !j.cancelling && j.cores.all (fun n => (s.core n).mode ≠ .stopped) &&
        j.physClusters.all (fun c => s.opAllows c (s.imgMaxOp j.slot.val)) then
      if j.isArmed then s.modJob id (fun j => { j with st := .armed }) else s.releaseTake j
    else s

def execFeRelease (job : BitVec 16) (s : State) : Host.Outcome State Fault Refusal := .next (feRelease job s)

/-- A dispatch cue fires (R310, R311): the armed take of its slot starts, or nothing does. -/
def State.dispatch (s : State) (slot : Nat) : State :=
  match s.jobs.find? (fun j => j.st == .armed && !j.cancelling && j.cur.any (fun r => r.cue == slot)) with
  | some j => s.releaseTake j
  | none => (s.incReg pgJsc 0x10C).raise pgJsc 1

/-! ### Live sets (R225 to R227, R231) -/

/-- A live-set entry, and the ranges it names. -/
def State.liveEntry (s : State) (slot ls : Nat) : List Byte := s.secBytes slot 6 (128 * ls) 128
def liveRanges (e : List Byte) (first n : Nat) : List (Nat × Nat) :=
  ((List.range n).map (fun i => (fld e (8 * (first + i)) 4, fld e (8 * (first + i) + 4) 4))).filter (fun p => p.2 ≠ 0)

/-- The live set of a core, its cluster's ranges with local core 0. -/
def State.saveCore (s : State) (j : Job) (n : Nat) (e : List Byte) : CoreSave :=
  let c := s.core n
  let regs := fld e 82 1
  let cl := clusterOf n
  let st := ((s.clAlloc j cl).map (·.1)).getD 0
  { lcore := c.lcore, fe := c.fe, xe := c.xe
    spad := (liveRanges e 0 8).map (fun p => (p.1, c.spadBytes p.1 p.2))
    clmem := if c.lcore % s.shCores j.slot.val = 0 then
        (liveRanges e 8 2).map (fun p => (p.1, (s.cluster cl).rawBytes (st + p.1) p.2)) else []
    tiles := (bitList 16 (fld e 80 2)).map (fun t => (t, { c.tile t with rowSums := none }))
    vr := if bit regs 0 then some c.vr else none
    sr := if bit regs 1 then some c.sr else none
    sb := if bit regs 2 then some c.sb else none
    argmax := if bit regs 3 then some c.argmax else none
    curSlot := c.curSlot, nextSlot := c.nextSlot, busy := c.busy, combineSat := c.combineSat, status := c.status }

/-- Lines of a core's live scratchpad ranges. -/
def liveLines (e : List Byte) : List Nat := (liveRanges e 0 8).flatMap (fun p => linesOf p.1 p.2)

/-- JSC reads the live scratchpad lines of every core of the take; a failing line check stops its core (R468). -/
def State.liveBad (s : State) (j : Job) (e : List Byte) : Option Nat :=
  j.cores.find? (fun n => (liveLines e).any (s.core n).spadBad.contains)

/-- The live sets go to an area: content the manual does not lay out, and poison that the scratchpad held. -/
def State.writeLive (s : State) (j : Job) (part : Nat) (e : List Byte) : State :=
  let max := s.shLiveMax j.slot.val
  let n := j.parts.getD part 0
  let s := { s.writeVia 19 (j.areaPart part) (fitBytes n (Config.freeBytes s.free n)) with free := s.free + 1 }
  j.cores.zipIdx.foldl (fun s p =>
    if (liveLines e).any (fun l => (mapGet? (s.core p.1).spadPoison l).isSome) then
      s.poisonLines (j.areaPart part + p.2 * max) 1
    else s) s

/-- Puts a saved live set back (R229, R592). -/
def Core.restore (c : Core) (v : CoreSave) : Core :=
  let c := v.spad.foldl (fun c p => c.spadWrite p.1 p.2) c
  { c with
    fe := { v.fe with wait := .start }, xe := v.xe.release .xe
    tiles := v.tiles.foldl (fun ts t => ts.set t.1 t.2) c.tiles
    vr := v.vr.getD c.vr, sr := v.sr.getD c.sr, sb := v.sb.getD c.sb, argmax := v.argmax.getD (List.replicate 32 none)
    curSlot := v.curSlot, nextSlot := v.nextSlot, busy := v.busy, combineSat := v.combineSat, status := v.status }

/-- The area a restore reads, and the take's live sets. -/
def Job.restoreFrom (j : Job) : Nat × List CoreSave :=
  if j.st = .spilled then (3, j.spillSaves) else (if j.slateB then 2 else 1, j.saves)

/-- A fault that JSC detects for a job: its take is lost (R232, R471). -/
def State.jscFault (s : State) (j : Job) (code level sub addr : Nat) : State :=
  let s := j.cores.foldl (fun s n => s.modCore n (fun c => { c with mode := .stopped })) s
  s.detect code 1 level sub pgJsc none j.id j.takeNo none addr

/-- RESTORE_DONE: the live sets are back, or the restore found poison, an error or a failing tag. -/
def restoreDone (id : BitVec 16) (resp : Resp) (s : State) : State :=
  match s.job? id with
  | none => s
  | some j =>
    if j.cores = [] ∨ j.ready ∨ !j.cores.all (fun n => (s.core n).mode = .restoring) ∨ s.slateCap = 0 then s
    else
      let (part, saves) := j.restoreFrom
      let a := j.areaPart part
      let n := j.cores.length * s.shLiveMax j.slot.val
      let s := s.areaFinds a n resp
      let (t, _, m) := s.readVia 19 a n
      if m = .poisoned then
        let l := s.badLine 19 a n
        t.jscFault j 0x0A 7 (dieOf (chanOf s.fuse.grade l)) l
      else if m = .error ∨ resp = .error then t.jscFault j 0x0A 6 0 a
      else if !t.tagsOk a n ∨ resp = .corrupt then t.jscFault j 1 6 0 a
      else
        let s := j.cores.zipIdx.foldl (fun s p =>
          match saves.find? (fun v => v.lcore == p.2) with
          | none => s
          | some v =>
            let s := s.modCore p.1 (·.restore v)
            v.clmem.foldl (fun s r =>
              match s.clAlloc j (clusterOf p.1) with
              | some (st, _) => s.modCluster (clusterOf p.1) (·.write (st + r.1) r.2)
              | none => s) s) t
        let s := j.physClusters.foldl (fun s c => s.modCluster c (·.zeroGroups id)) s
        let s := s.warmTake j
        s.modJob id (fun j => { j with ready := true })

def execRestoreDone (job : BitVec 16) (resp : Resp) (s : State) : Host.Outcome State Fault Refusal :=
  .next (restoreDone job resp s)

/-! ### Queue condition (R226) -/

/-- An entry in a token queue, or an FE read outstanding. -/
def Core.queuesBusy (c : Core) : Bool :=
  !c.tq0.isEmpty || !c.tq1.isEmpty || !c.tq2.isEmpty || !c.tq3.isEmpty || !c.xfers.isEmpty || c.sb.any (fun e => e.pend != .none)

/-- Every engine of the job's take waits as `p` says. -/
def State.allWait (s : State) (j : Job) (p : Wait → Bool) : Bool :=
  !j.cores.isEmpty && j.cores.all (fun n => p (s.core n).fe.wait && p (s.core n).xe.wait)

/-- When an engine arrives, its core's queues must be empty. -/
def State.arriveCheck (s : State) (n : Nat) (k : State → State) : State :=
  if (s.core n).queuesBusy then s.overrun n else k s

/-! ### Commit (R226, R230, R292, R293) -/

/-- One record goes into the ring at its head, or is dropped when the ring is full: state, head, records dropped. -/
def publishOne (ring tail n : Nat) (a : State × Nat × Nat) (r : List Byte) : State × Nat × Nat :=
  if (a.2.1 + 0x100000000 - tail) % 0x100000000 < n then
    (a.1.writeVia 19 (ring + 32 * (a.2.1 % n)) (fitBytes 32 r), (a.2.1 + 1) % 0x100000000, a.2.2)
  else (a.1, a.2.1, a.2.2 + 1)

/-- Publishes the records written since the last slate. -/
def State.publish (s : State) (j : Job) : State :=
  let h := j.areaPart 0 + 0x40
  let ring := j.areaPart 9
  let tail := leNat (s.rawBytes (h + 4) 4)
  let put := j.records.foldl (publishOne ring tail j.recEntries) (s, leNat (s.rawBytes h 4), 0)
  let s := put.1
  let s := if j.records = [] then s else s.writeVia 19 h (leBytes 4 put.2.1)
  let s := if put.2.2 = 0 then s else
    (s.writeVia 19 (h + 8) (leBytes 4 (leNat (s.rawBytes (h + 8) 4) + put.2.2))).raise pgJsc 2
  s.modJob j.id (fun j => { j with records := [] })

/-- The five take-status sums of a take (R234). -/
def State.statusSums (s : State) (j : Job) : List Nat :=
  j.cores.foldl (fun a n =>
    let t := (s.core n).status
    List.zipWith sat32 a [t.nonfinite, t.fpInvalid, t.fpOverflow, t.outOfRange, t.missedCues]) [0, 0, 0, 0, 0]

/-- Step 3 of R226: records, take-buffer halves, descriptors, counters and the commit record, which is written last. -/
def State.commitJob (s : State) (id : BitVec 16) (slate : Nat) (areaB : Bool) : State :=
  match s.job? id with
  | none => s
  | some j =>
    let s := (s.trkFlush id).publish j
    let n := 64 * (s.mutables j.slot.val).length
    let s := if n = 0 then s else s.writeVia 19 (j.areaPart 7) (s.rawBytes (j.areaPart 6) n)
    let sums := s.statusSums j
    let half := j.working
    let seq := (j.slateSeq + 1) % 2 ^ 32
    let tag := match j.cur with | some r => r.tag | none => 0
    let rec_ := leBytes 2 slate ++ leBytes 1 (b2n areaB) ++ leBytes 1 half ++ leBytes 4 seq ++ leBytes 8 tag ++
      sums.flatMap (leBytes 4)
    let s := s.writeVia 19 (j.areaPart 0) (fitBytes 64 rec_)
    let s := j.physClusters.foldl (fun s c => s.modCluster c (·.zeroGroups id)) s
    let cnts := s.cntsOf j
    let s := s.modJob id (fun j =>
      { j with half := half, slateSeq := seq, slateId := slate, sums := sums, takeNo := 1, failures := 0, saveCnt := cnts })
    s.trkNotify id

/-- The loops open before word `i` of a stream, outermost first, by the index their body starts at. -/
def loopStartsAt (ws : List Nat) (i : Nat) : List Nat :=
  ((ws.take i).zipIdx.foldl (fun (st : List Nat) p =>
    if isOp 1 p.1 then st ++ [p.2 + 1] else if isOp 2 p.1 then st.dropLast else st) [])

/-- Where a slate stands in a stream. -/
def slateAt (ws : List Nat) (id : Nat) : Option Nat := ws.findIdx? (fun w => isOp 5 w && bits w 52 41 == id)

/-- The engine goes on in the new image after its slate (R192). -/
def Eng.moveTo (g : Eng) (ws : List Nat) (id : Nat) : Eng :=
  match slateAt ws id with
  | none => g
  | some i =>
    { g with pc := i + 1, missed := false
             loops := List.zipWith (fun (l : LoopLvl) st => { l with start := st }) g.loops (loopStartsAt ws i) }

/-- The switch of a REBIND, at a slate or at END. Where MAX_OP of the new image is lower, the take is held as a take that starts
is (R303): the ceiling falls at once, and the engines wait for it (DESIGN CHOICE, log 55; R192 names no point). -/
def State.switchImage (s : State) (id : BitVec 16) (slate : Option Nat) : State :=
  match s.job? id with
  | none => s
  | some j =>
    match j.rebind with
    | none => s
    | some sl =>
      let s := s.setJob { j with slot := sl, rebind := none, dUnits := j.nextD, deadlineUs := j.nextDeadline, retry := j.nextRetry }
      let img := (s.slot sl.val).imageId
      let pre := s.preload sl.val
      let s := j.cores.foldl (fun s n => s.modCore n (fun c =>
        let c := { c with icache := [], icacheValid := false, lastSlot := some sl.val, lastImage := img, dcache := pre,
                          maxOp := s.imgMaxOp sl.val }
        match slate with
        | some k => { c with fe := c.fe.moveTo (s.stream sl.val .fe) k, xe := c.xe.moveTo (s.stream sl.val .xe) k }
        | none => c)) s
      match s.job? id with
      | some j => s.initMutables j
      | none => s

/-! ### SLATE and SLATE_COMMIT -/

/-- The slate a waiting engine stands at. -/
def Wait.slateId? : Wait → Option Nat
  | .slate id _ => some id
  | _ => Option.none

/-- SLATE: the engine arrives; the slate is being written once every engine has. -/
def slate (n : Nat) (e : Engine) (s : State) : State :=
  s.issue n e (isOp 0x05) (fun w s =>
    match s.coreJob n with
    | none => s
    | some j =>
      let id := bits w 52 41
      if s.quiet n e then
        let s := (s.modCore n (fun c => c.setEng e { c.eng e with wait := .slate id (bits w 40 33), hold := bits w 32 17 })).adv n e
        s.arriveCheck n (fun s =>
          if s.allWait j (fun x => x.slateId? == some id) then s.modJob j.id (fun j => { j with st := .slating }) else s)
      else s)

def execSlate (core : Fin 128) (eng : Engine) (s : State) : Host.Outcome State Fault Refusal := .next (slate core.val eng s)

/-- A core at its slate after the commit: a new take, whose yields count from 0 (R231, R477). -/
def Core.newTake (c : Core) (slate : Nat) : Core :=
  { c with status := { c.status with slateId := slate }, fe := { c.fe with yields := 0 }, xe := { c.xe with yields := 0 } }

/-- A core that waits after its slate for FE_RELEASE. -/
def Core.rewait (c : Core) : Core := { c with mode := .reserved, fe := { c.fe with wait := .start }, xe := c.xe.release .xe }

/-- JSC releases both engines of every core (R226), once the points allow a new image's MAX_OP. -/
def State.slateRelease (s : State) (id : BitVec 16) : State :=
  match s.job? id with
  | none => s
  | some j =>
    let s := j.physClusters.foldl (fun s c => s.claimCeiling c) s
    if j.cores.all (fun n => s.opAllows (clusterOf n) (s.core n).maxOp) then
      j.cores.foldl (fun s n => (s.releaseEng n .fe).releaseEng n .xe) (s.modJob id (fun j => { j with st := .running }))
    else
      j.cores.foldl (fun s n => s.modCore n Core.rewait) (s.modJob id (fun j => { j with ready := true, released := false }))

/-- SLATE_COMMIT. -/
def slateCommit (job : BitVec 16) (s : State) : State :=
  match s.job? job with
  | none => s
  | some j =>
    match (j.cores.head?).bind (fun n => (s.core n).fe.wait.slateId?) with
    | none => s
    | some id =>
      if j.st ≠ .slating ∨ !s.allWait j (fun x => x.slateId? == some id) ∨
          j.cores.any (fun n => (s.core n).mode ≠ .running) ∨ s.slateCap = 0 then s
      else
        let ls := match slateAt (s.stream j.slot.val .xe) id with
          | some i => bits (s.streamWord j.slot.val .xe i) 40 33
          | none => 0
        let e := s.liveEntry j.slot.val ls
        match s.liveBad j e with
        | some n => s.lineCheckFault n
        | none =>
          let areaB := j.committed && !j.slateB
          let s := ((s.writeLive j (if areaB then 2 else 1) e).commitJob job id areaB).switchImage job (some id)
          let s := j.cores.foldl (fun s n => s.modCore n (·.newTake id)) s
          let saves := j.cores.map (fun n => s.saveCore j n e)
          let s := s.modJob job (fun j =>
            { j with committed := true, slateB := areaB, saves := saves, yieldTarget := j.yieldTarget.map (fun _ => 1)
                     cur := j.cur.map (fun r => { r with lastSlate := id }) })
          s.slateRelease job

def execSlateCommit (job : BitVec 16) (s : State) : Host.Outcome State Fault Refusal := .next (slateCommit job s)

/-! ### YIELD, SPILL and SPILL_DONE -/

def Wait.isYield : Wait → Bool
  | .yield _ _ => true
  | _ => false

/-- YIELD: the engine counts it, and stops when its count reaches the target. -/
def yieldOp (n : Nat) (e : Engine) (s : State) : State :=
  s.issue n e (isOp 0x06) (fun w s =>
    match s.coreJob n with
    | none => s
    | some j =>
      let k := ((s.core n).eng e).yields + 1
      let stop := match j.yieldTarget with | some t => decide (t ≤ k) | none => false
      (s.modCore n (fun c =>
        let g := { c.eng e with yields := k }
        c.setEng e (if stop then { g with wait := .yield (bits w 52 41) (bits w 40 33), hold := bits w 32 17 } else g))).adv n e)

def execYield (core : Fin 128) (eng : Engine) (s : State) : Host.Outcome State Fault Refusal := .next (yieldOp core.val eng s)

/-- SPILL: every engine of the take has stopped and finished its work. -/
def spill (job : BitVec 16) (s : State) : State :=
  match s.job? job with
  | none => s
  | some j =>
    if s.allWait j Wait.isYield && j.cores.all (fun n => (s.core n).mode == .running && s.quiet n .fe && s.quiet n .xe) then
      match j.cores.find? (fun n => (s.core n).queuesBusy) with
      | some n => s.overrun n
      | none => j.cores.foldl (fun s n => s.modCore n (fun c => { c with mode := .spilling })) s
    else s

def execSpill (job : BitVec 16) (s : State) : Host.Outcome State Fault Refusal := .next (spill job s)

/-- SPILL_DONE: the live sets stand in the spill area and the cores pass on. -/
def spillDone (job : BitVec 16) (s : State) : State :=
  match s.job? job with
  | none => s
  | some j =>
    if j.cores ≠ [] && j.cores.all (fun n => (s.core n).mode == .spilling) && s.slateCap != 0 then
      let ls := match (j.cores.head?).map (fun n => (s.core n).xe.wait) with
        | some (.yield _ ls) => ls
        | _ => 0
      let e := s.liveEntry j.slot.val ls
      match s.liveBad j e with
      | some n => s.lineCheckFault n
      | none =>
        let s := s.writeLive j 3 e
        let saves := j.cores.map (fun n => s.saveCore j n e)
        let s := s.freeTake job
        let s := s.modJob job (fun j =>
          { j with st := .spilled, spillSaves := saves, cur := j.cur.map (fun r => { r with preempts := r.preempts + 1 }) })
        (s.incReg pgJsc 0x118).shapeCheck job
    else s

def execSpillDone (job : BitVec 16) (s : State) : Host.Outcome State Fault Refusal := .next (spillDone job s)

/-! ### END -/

/-- The run ends: a commit with an empty live set, the cores released, RUN_DONE (R230). -/
def State.endRun (s : State) (id : BitVec 16) : State :=
  match s.job? id with
  | none => s
  | some j =>
    match j.cur with
    | none => s
    | some r =>
      let s := s.commitJob id r.lastSlate j.slateB
      let s := s.switchImage id none
      let s := s.freeTake id
      let s := s.modJob id (fun j =>
        { j with cur := none, committed := false, saves := [], st := if j.runs = [] then .idle else .queued,
                 rearm := if r.autoRearm then some r else none })
      match s.job? id with
      | some j => (s.runDone j r 0).shapeCheck id
      | none => s

/-- END: the engine arrives; the last one of the take ends the run. -/
def endOp (n : Nat) (e : Engine) (s : State) : State :=
  s.issue n e (isOp 0x08) (fun _ s =>
    match s.coreJob n with
    | none => s
    | some j =>
      if s.quiet n e then
        let s := (s.modCore n (fun c => c.setEng e { c.eng e with wait := .ended })).adv n e
        let s := if e = .xe ∧ (s.core n).lcore % s.shCores j.slot.val = 0 then
            (s.phaseEnds (clusterOf n) j.id).phaseDrop (clusterOf n) j.id else s
        s.arriveCheck n (fun s => if s.allWait j (· == .ended) then s.endRun j.id else s)
      else s)

def execEndRun (core : Fin 128) (eng : Engine) (s : State) : Host.Outcome State Fault Refusal := .next (endOp core.val eng s)

/-! ### AUTO_REARM (R311) and JOB_RESTART (R229, R319, R477, R478) -/

/-- A run as it was accepted. -/
def Run.again (r : Run) (acc : Nat) (armed : Bool) : Run :=
  { r with acc := acc, armed := armed, start := none, lastSlate := 0, restarts := 0, preempts := 0, maxTake := 0, risk := false }

/-- AUTO_REARM: a completion entry first, then the next run. -/
def autoRearm (id : BitVec 16) (s : State) : State :=
  match s.job? id with
  | none => s
  | some j =>
    match j.rearm with
    | none => s
    | some r =>
      if 1 ≤ s.cmplFree r.reel && j.runs.length < 16 && j.st ≠ .failed && !j.cancelling then
        let s := s.modReel r.reel (fun x => { x with reserved := x.reserved + 1 })
        { s.setJob { j with rearm := none, runs := j.runs ++ [r.again s.runCount true],
                            st := if j.st = .idle then .queued else j.st } with runCount := s.runCount + 1 }
      else s

def execAutoRearm (job : BitVec 16) (s : State) : Host.Outcome State Fault Refusal := .next (autoRearm job s)

/-- JOB_RESTART: the stopped cores of a lost take are free and its outputs discarded; TAKE_START starts it again. A take
that was armed goes back to the front of its queue. The third attributed failure ends in FAILED. -/
def jobRestart (id : BitVec 16) (s : State) : State :=
  match s.job? id with
  | none => s
  | some j =>
    if j.st ≠ .restarting || s.c2Active || j.cores == [] || !j.cores.all (fun n => (s.core n).mode == .stopped) then s
    else if 3 ≤ j.failures then s.failJob id 0x71
    else
      let s := ((s.revert id).restoreCnts j).freeTake id
      match j.cur with
      | none => s
      | some r =>
        if r.armed then
          (s.modJob id (fun j => { j with cur := none, runs := r :: j.runs, st := .queued })).shapeCheck id
        else
          let s := s.modJob id (fun j => { j with cur := some { r with restarts := r.restarts + 1 }, spillSaves := [] })
          let s := (s.incReg pgJsc 0x114).acct j.owner j.ownerGen 12
          s.shapeCheck id

def execJobRestart (job : BitVec 16) (s : State) : Host.Outcome State Fault Refusal := .next (jobRestart job s)

end Sys2Proof.Machine
end

