-- ==== Sys2Proof/Machine/Runs.lean ====
section
/-! DEFINITION. The run commands of the reels: RUN and ARM (R242, R289, R308, R309, R345), CANCEL and its completion (R312,
R315 to R318), and QUERY (R290). -/

namespace Sys2Proof.Machine

/-! ### RUN and ARM -/

/-- The loop counts of a run: supplied where RFLAGS says so, else the call sheet's. -/
def State.runCounts (s : State) (slot : Nat) (b : List Byte) : List Nat :=
  (List.range 4).map (fun m => if bit (fld b 8 1) m then fld b (16 + 4 * m) 3 else s.sheet slot (96 + 4 * m) 4)

/-- A slot holds an armed take. -/
def State.holdsArmed (s : State) (cue : Nat) : Bool :=
  s.jobs.any (fun j => j.isArmed && j.cur.any (fun r => r.cue == cue))

/-- Refusals of a RUN or ARM in the order of R300. -/
def State.runRef (s : State) (j : Job) (arm : Bool) (b : List Byte) : Ref :=
  let slot := j.slot.val
  let cnt := s.runCounts slot b
  let cue := fld b 9 1
  firstRef
    [((List.range 4).find? (fun m => decide (s.sheet slot (112 + 4 * m) 4 < cnt.getD m 0))).map (fun m => (0x50, 16 + 4 * m)),
     refIf (decide (16 ≤ j.runs.length)) 0x51 0, refIf (arm && j.cls != 0) 0x52 0,
     refIf (arm && (decide (63 < cue) || (s.cue cue).owner.any (· != j.id) || s.inPool cue || s.holdsArmed cue)) 0x53 9,
     refIf (j.st == .failed) 0x54 4]

/-- Queues an accepted run: it reserves a completion entry, and the job owns its dispatch cue. -/
def State.acceptRun (s : State) (c : Cmd) (j : Job) (arm : Bool) : State :=
  let cue := fld c.bytes 9 1
  let r : Run :=
    { reel := c.reel, seq := c.seq, opcode := c.op, session := c.session, gen := c.gen, acc := s.runCount,
      lcnt := s.runCounts j.slot.val c.bytes, tag := fld c.bytes 32 8, armed := arm, cue := cue,
      autoRearm := arm && bit (fld c.bytes 8 1) 4, start := none, lastSlate := 0, restarts := 0, preempts := 0, maxTake := 0,
      risk := false }
  let s := s.modReel c.reel (fun x => { x with reserved := x.reserved + 1 })
  let s := if arm then s.setCue cue { s.cue cue with owner := some j.id } else s
  { s.setJob { j with runs := j.runs ++ [r], st := if j.st = .idle then .queued else j.st } with runCount := s.runCount + 1 }

def State.takeRun (s : State) (n op : Nat) : State :=
  s.takeCmd n (opIs op) (fun c s =>
    s.withJob c (fun j =>
      match s.runRef j (op == 0x04) c.bytes with
      | some (code, o) => s.refuse c code o
      | none => s.acceptRun c j (op == 0x04)))

/-- RUN. -/
def run (n : Nat) (s : State) : State := s.takeRun n 0x03

def execRun (reel : Fin 32) (s : State) : Host.Outcome State Fault Refusal := .next (run reel.val s)

/-- ARM. -/
def arm (n : Nat) (s : State) : State := s.takeRun n 0x04

def execArm (reel : Fin 32) (s : State) : Host.Outcome State Fault Refusal := .next (arm reel.val s)

/-! ### CANCEL -/

/-- The run of a lost take that holds no cores any more ends CANCELLED. -/
def State.endCancelled (s : State) (id : BitVec 16) : State :=
  match s.job? id with
  | none => s
  | some j =>
    let s := match j.cur with | some r => s.runDone j r 0x70 | none => s
    (s.modJob id (fun j =>
      { j with cur := none, committed := false, saves := [], spillSaves := [], resuming := false
               st := if j.runs = [] then .idle else .queued })).recoveryDrops

/-- The current take is lost: an armed one frees its cores at once, a spilled one loses its spill, and both end there; the cores
of a running one stop with the effects of R141. -/
def State.cancelTake (s : State) (id : BitVec 16) : State :=
  match s.job? id with
  | none => s
  | some j =>
    if j.cur.isNone then s
    else
      let s := s.revert id
      if j.cores = [] ∨ j.isArmed then ((s.restoreCnts j).freeTake id).endCancelled id
      else
        (j.cores.foldl (fun s n => s.modCore n Core.halt) s).modJob id (fun j =>
          { j with spillSaves := [], claimed := [], st := .cancelling })

/-- CANCEL of a scope; its completion waits for CANCEL_DONE and holds the reel. -/
def State.cancelJob (s : State) (c : Cmd) (j : Job) (scope : Nat) : State :=
  let s := s.cancelRuns j
  let s := s.modJob j.id (fun j => { j with
    st := if j.st = .failed then .idle else j.st
    cancel := some (c.reel, c.seq, scope)
    rearm := if scope = 1 then j.rearm else none })
  let s := if scope = 1 then s else s.cancelTake j.id
  s.modReel c.reel (fun r => { r with busy := true })

/-- Takes a CANCEL with one scope. A second CANCEL of a job waits until the first has completed. -/
def State.takeCancel (s : State) (n scope : Nat) : State :=
  s.takeCmd n (fun b => opIs 0x05 b && (fld b 8 1 == scope || (decide (2 < fld b 8 1) && scope == 0)))
    (fun c s => s.withJob c (fun j => s.cancelJob c j scope))

/-- CANCEL with SCOPE 0. -/
def cancel (n : Nat) (s : State) : State := s.takeCancel n 0

def execCancel (reel : Fin 32) (s : State) : Host.Outcome State Fault Refusal := .next (cancel reel.val s)

/-- CANCEL with SCOPE 1. -/
def cancelPending (n : Nat) (s : State) : State := s.takeCancel n 1

def execCancelPending (reel : Fin 32) (s : State) : Host.Outcome State Fault Refusal := .next (cancelPending reel.val s)

/-- CANCEL with SCOPE 2. -/
def cancelUnbind (n : Nat) (s : State) : State := s.takeCancel n 2

def execCancelUnbind (reel : Fin 32) (s : State) : Host.Outcome State Fault Refusal := .next (cancelUnbind reel.val s)

/-- CANCEL_DONE: the credits of every core are back. The run of a stopped take ends CANCELLED; SCOPE 2 unbinds. A shape that a
retirement broke while the take held its cores is lost now (R320). -/
def cancelDone (id : BitVec 16) (s : State) : State :=
  match s.job? id with
  | none => s
  | some j =>
    match j.cancel with
    | none => s
    | some (reel, seq, scope) =>
      let s := s.modJob id (fun j => { j with cancel := none })
      let stopped := j.st == .cancelling
      let s := if stopped then ((s.restoreCnts j).freeTake id).endCancelled id else s
      let s := match scope, s.job? id with
        | 2, some j => (s.cancelRuns j).unbind j
        | _, _ => s
      let s := (s.complete reel 3 0 seq id 0x05 0 []).modReel reel (fun r => { r with busy := false })
      if stopped then s.shapeCheck id else s

def execCancelDone (job : BitVec 16) (s : State) : Host.Outcome State Fault Refusal := .next (cancelDone job s)

/-! ### QUERY -/

/-- Numbers of the job states (R307). -/
def jobStNum : JobSt → Nat
  | .idle => 0 | .queued => 1 | .armed => 2 | .running => 3 | .slating => 4 | .spilled => 5 | .restarting => 6
  | .cancelling => 7 | .failed => 8

/-- The RESULT of QUERY. -/
def State.queryResult (s : State) (j : Job) : List Byte :=
  let lg (f : Nat × Nat → Nat) : List Byte :=
    (List.range 8).flatMap (fun l => leBytes 1 (match j.placed[l]? with | some p => f p | none => 0xFF))
  leBytes 1 (jobStNum j.st) ++ leBytes 1 j.cls ++ leBytes 1 j.slot.val ++ leBytes 1 j.takeNo ++ lg (·.1) ++
    leBytes 2 j.runs.length ++ leBytes 2 j.slateId ++ j.sums.flatMap (leBytes 4) ++ s.rawBytes (j.areaPart 0 + 0x40) 4 ++
    lg (fun p => if s.shClmem j.slot.val = 0 then 0xFF else p.2 / 65536)

def query (n : Nat) (s : State) : State :=
  s.takeCmd n (opIs 0x06) (fun c s => s.withJob c (fun j => s.done c 0 0 (s.queryResult j)))

def execQuery (reel : Fin 32) (s : State) : Host.Outcome State Fault Refusal := .next (query reel.val s)

end Sys2Proof.Machine
end

