-- ==== Sys2Proof/Machine/Vision.lean ====
section
/-! DEFINITION. CSI-2 ports, image pipelines and their tensor-ready outputs (R437 to R445). The arithmetic of stages 2 to
8 has no exact statement, so what passes an active stage is a free value; without one, a 1:1 monochrome output is exact
(DEDUCED). -/

namespace Sys2Proof.Machine

def State.isp (s : State) (m : Nat) : Isp := s.isps[m]?.getD Isp.reset
def State.setIsp (s : State) (m : Nat) (i : Isp) : State := { s with isps := s.isps.setIfInBounds m i }
/-- A disabled ISP drops the frame it holds. -/
def State.ispOff (s : State) (m : Nat) : State :=
  s.setIsp m { s.isp m with lines := [], lineErr := false, active := false, complete := false, lastLine := none }

/-! ### Registers (R445) -/

def outOff (k o : Nat) : Nat := 0x140 + 0x20 * k + o
def State.outW (s : State) (m k o : Nat) : Nat := s.rn (pgIsp m) (outOff k o)
def State.ispSrc (s : State) (m : Nat) : Nat := s.rn (pgIsp m) 0x100
def State.ispWidth (s : State) (m : Nat) : Nat := s.rn (pgIsp m) 0x104 % 65536
def State.ispHeight (s : State) (m : Nat) : Nat := s.rn (pgIsp m) 0x104 / 65536
def State.lineScan (s : State) (m : Nat) : Bool := bit (s.ispSrc m) 17
def State.lineTbl (s : State) (m : Nat) : Bool := bit (s.rn (pgIsp m) 0x118) 3
def State.ispAxis (s : State) (m : Nat) : Nat := s.rn (pgIsp m) 0x118 % 8

/-! ### Outputs (R442 to R444) -/

/-- An output as OUT_CFG, OUT_SIZE, OUT_BASE, OUT_STRIDE and the quantisation words describe it. -/
structure OutDesc where
  port : Nat
  format : Nat
  mono : Bool
  cpad : Nat
  nbuf : Nat
  clmem : Option Nat
  width : Nat
  height : Nat
  base : Nat
  stride : Nat
  /-- OFFSET[4] then GAIN[4] -/
  quant : List Byte
  deriving DecidableEq, Repr

/-- OUT_CFG spelled out; `baseWord` holds address bits [39:12]. -/
def outDesc (port cfg size baseAddr stride : Nat) (quant : List Byte) : OutDesc where
  port := port
  format := bits cfg 2 1
  mono := bit cfg 3
  cpad := bits cfg 5 4
  nbuf := bits cfg 10 7 + 1
  clmem := if bit cfg 11 then some (bits cfg 14 12) else none
  width := size % 65536
  height := size / 65536
  base := if bit cfg 11 then baseAddr % 2 ^ 22 else baseAddr
  stride := stride
  quant := quant

def State.ispOut (s : State) (m k : Nat) : OutDesc :=
  outDesc (8 + m) (s.outW m k 0) (s.outW m k 4) (s.outW m k 8 % 2 ^ 28 * 4096) (s.outW m k 0xC)
    (fitBytes 32 ((s.isp m).params.drop (0x4C80 + 32 * k)))

/-- A write of an output, in DRAM or in cluster memory. -/
def State.outWrite (s : State) (o : OutDesc) (a : Nat) (bs : List Byte) : State :=
  match o.clmem with
  | none => s.writeVia o.port a bs
  | some c => s.modCluster c (fun x => x.write a bs)

def OutDesc.channels (o : OutDesc) : Nat := if o.mono then 1 else 3
/-- Bytes of a pixel with CPAD. -/
def OutDesc.pixel (o : OutDesc) : Nat := match o.cpad with | 0 => o.channels | 1 => 4 | 2 => 32 | _ => 64
/-- Bytes of a frame before padding to 1 KiB. -/
def OutDesc.frameBytes (o : OutDesc) : Nat :=
  if o.format = 3 then o.width * o.height + 2 * ((o.width + 1) / 2) * ((o.height + 1) / 2)
  else o.width * o.height * o.pixel
def pad1K (n : Nat) : Nat := (n + 1023) / 1024 * 1024
/-- FORMAT as an element format of R148. -/
def outFmt (f : Nat) : Nat := if f = 0 then 3 else if f = 1 then 2 else 4

/-- u of R442 for a 16-bit sample of channel `c`. -/
def outU (q : List Byte) (c v : Nat) : Word :=
  let ofs := w32 (fld q (4 * c) 4)
  let gain := w32 (fld q (16 + 4 * c) 4)
  let d : Word := match fdecode ofs with
    | .nan => fNan
    | .inf neg => fInf (!neg)
    | .fin neg m e =>
      -- v/65535 - m 2^e over 65535, in units of 2^(min e 0)
      let lo := min e 0
      let n : Int := (v : Int) * 2 ^ (-lo).toNat - flInt neg m * 65535 * 2 ^ (e - lo).toNat
      (froundQ (n < 0) n.natAbs 65535 lo).val
  (fmul d gain).val

/-- The bytes of one sample and whether it saturated. -/
def outSample (o : OutDesc) (c v : Nat) : Byte × Bool :=
  let u := outU o.quant c v
  let r := quantise (outFmt o.format) 0 u u
  (BitVec.ofNat 8 r.bits, r.sat)

/-- A frame from its samples, channel fastest: bytes and saturations. -/
def outPixels (o : OutDesc) : Nat → List Nat → List Byte × Nat
  | 0, _ => ([], 0)
  | n + 1, vs =>
    let px := ((vs.take o.channels).zipIdx).map (fun p => outSample o p.2 p.1)
    let (bs, k) := outPixels o n (vs.drop o.channels)
    (fitBytes o.pixel (px.map (·.1)) ++ bs, k + (px.filter (·.2)).length)

/-- The record of a buffer (R443). -/
def outRecord (seq time flags lines first last : Nat) : List Byte :=
  leBytes 4 seq ++ leBytes 5 time ++ leBytes 1 flags ++ leBytes 2 lines ++ leBytes 4 0 ++ leBytes 8 first ++ leBytes 8 last ++
    List.replicate 32 0

/-- Writes the blocks of a frame with its line table, the record, and then WR_SEQ, for the frame after `done` others. -/
def State.putFrame (s : State) (o : OutDesc) (count : Nat) (frame table : List Byte) (rec_ : List Byte) : State :=
  let n := count % o.nbuf
  let body := fitBytes (pad1K frame.length) frame ++ fitBytes (pad1K table.length) table
  let s := s.outWrite o (o.base + 2048 + n * o.stride) body
  let s := s.outWrite o (o.base + 64 + 64 * n) rec_
  s.outWrite o o.base (leBytes 4 (count + 1))

/-! ### ISP_PARAM_LOAD (R441) -/

def ispParamLoad (m : Nat) (resp : Resp) (s : State) : State :=
  let i := s.isp m
  if !i.wantParams then s
  else
    let a := s.rn (pgIsp m) 0x11C % 2 ^ 28 * 4096
    let (s, bs, r) := (s.areaFinds a 29192 resp).readVia (8 + m) a 29192
    let s := s.setIsp m { i with wantParams := false }
    if r = .poisoned then
      let l := s.badLine (8 + m) a 29192
      (s.setErr (pgIsp m) 0x0A 0 (8 + m) false true l).dramUe (pgIsp m) l
    else if r = .error ∨ resp = .error then s
    else s.setIsp m { s.isp m with params := bs }

def execIspParamLoad (isp : Fin 4) (resp : Resp) (s : State) : Host.Outcome State Fault Refusal :=
  .next (ispParamLoad isp.val resp s)

/-! ### ISP_FRAME_DONE -/

/-- No active stage changes a monochrome sample, and the output has the input's size. -/
def State.ispExact (s : State) (m : Nat) (o : OutDesc) : Bool :=
  bit (s.ispSrc m) 16 && s.rn (pgIsp m) 0x10C &&& 0x6B == 0 && o.width == s.ispWidth m && o.height == s.ispHeight m

/-- The 16-bit samples an output quantises. -/
def State.outSamples (s : State) (m : Nat) (o : OutDesc) : State × List Nat :=
  let n := o.width * o.height * o.channels
  let (s, f) := s.drawBytes (2 * n)
  let free := (List.range n).map (fun i => fld f (2 * i) 2)
  if s.ispExact m o then
    let blc := s.rn (pgIsp m) 0x108 % 65536
    let got := (s.isp m).lines.flatMap (fun l => l.samples.map (fun v => v.toNat - blc))
    (s, got ++ free.drop got.length)
  else (s, free)

/-- The line table: the phase of each output line, which is that of its input line where the sizes agree. -/
def State.lineTable (s : State) (m : Nat) (o : OutDesc) : State × List Byte :=
  if !s.lineTbl m then (s, [])
  else
    let (s, f) := s.drawBytes (8 * o.height)
    if o.height = s.ispHeight m then
      let got := (s.isp m).lines.flatMap (fun l => leBytes 8 (wrapTo 64 l.phase))
      (s, got ++ f.drop got.length)
    else (s, f)

/-- One output of a finished frame. -/
def State.ispOutput (s : State) (m k : Nat) : State :=
  let i := s.isp m
  if !bit (s.outW m k 0) 0 || i.skips.getD k false then s
  else
    let o := s.ispOut m k
    let count := i.wr.getD k 0
    let (s, frame, sat) :=
      if o.format = 3 then (let (s, f) := s.drawBytes o.frameBytes; (s, f, 0))
      else
        let (s, vs) := s.outSamples m o
        let (bs, n) := outPixels o (o.width * o.height) vs
        (s, bs, n)
    let (s, table) := s.lineTable m o
    let valid := i.lines.all (·.valid)
    let t := match i.lines.head? with | some l => l.t.toNat | none => 0
    let ph (l : Option IspLine) : Nat := match l with | some l => wrapTo 64 l.phase | none => 0
    let rec_ := outRecord (count + 1) t (b2n i.lineErr + 2 * b2n valid + 4 * b2n (sat != 0)) i.lines.length
      (ph i.lines.head?) (ph i.lines.getLast?)
    let s := s.putFrame o count frame table rec_
    let s := s.setIsp m { s.isp m with wr := (s.isp m).wr.set k (count + 1) }
    (s.setRn (pgIsp m) (outOff k 0x14) ((count + 1) % 65536)).satReg (pgIsp m) (outOff k 0x1C) sat

/-- ISP_FRAME_DONE. -/
def ispFrameDone (m : Nat) (s : State) : State :=
  if !(s.isp m).complete then s
  else
    let s := iterate (fun k s => s.ispOutput m k) 3 0 s
    let s := s.setIsp m { s.isp m with lines := [], complete := false, lineErr := false }
    (s.incReg (pgIsp m) 0x1A0).raise (pgIsp m) 0

def execIspFrameDone (isp : Fin 4) (s : State) : Host.Outcome State Fault Refusal := .next (ispFrameDone isp.val s)

/-! ### CSI_PACKET (R437 to R440) -/

/-- Whether a frame can start on an output (R444). -/
def State.outStart (s : State) (m k : Nat) : State :=
  let c := s.outW m k 0
  let i := s.isp m
  if !bit c 0 then s.setIsp m { i with skips := i.skips.set k true }
  else
    let used := (i.wr.getD k 0 % 65536 + 65536 - s.outW m k 0x10 % 65536) % 65536
    if used < bits c 10 7 + 1 then s.setIsp m { i with skips := i.skips.set k false }
    else if bit c 6 then
      (s.setIsp m { i with skips := i.skips.set k false }).setRn (pgIsp m) (outOff k 0x10) ((s.outW m k 0x10 + 1) % 65536)
    else ((s.setIsp m { i with skips := i.skips.set k true }).satReg (pgIsp m) (outOff k 0x18)).raise (pgIsp m) 1

/-- A frame or block starts; one that still waits to be finished is finished first. -/
def State.frameBegin (s : State) (m : Nat) : State :=
  let i := s.isp m
  let s := if i.complete then ispFrameDone m s
    else if i.active && !i.lines.isEmpty then ispFrameDone m (s.setIsp m { i with complete := true, active := false })
    else s
  let s := s.setIsp m { s.isp m with lines := [], lineErr := false, active := true, complete := false }
  iterate (fun k s => s.outStart m k) 3 0 s

/-- The frame's last line has come. -/
def State.frameEnd (s : State) (m : Nat) : State :=
  let i := s.isp m
  if i.active then s.setIsp m { i with active := false, complete := !i.lines.isEmpty } else s

/-- A line error (R440, R445). -/
def State.lineError (s : State) (m : Nat) : State :=
  ((s.setIsp m { s.isp m with lineErr := true }).satReg (pgIsp m) 0x1A4).raise (pgIsp m) 2

/-- The places a data type's samples move to the left; none where it is not supported (R437). -/
def dtShift (dt : Nat) : Option Nat :=
  match dt with
  | 0x2A => some 8 | 0x2B => some 6 | 0x2C => some 4 | 0x2D => some 2 | 0x2E => some 0 | 0x1E => some 8 | _ => none

/-- A line of the right length: padded with its last sample, or cut. -/
def fitLine (n free : Nat) (vs : List (BitVec 16)) : List (BitVec 16) :=
  (vs ++ List.replicate (n - vs.length) (vs.getLast?.getD (BitVec.ofNat 16 free))).take n

/-- A line comes while the ISP still takes the one before, at 1.2 pixels a ns (R440). DESIGN CHOICE (log 58): an ISP buffers
no input beside the line it takes. -/
def State.lineEarly (s : State) (m : Nat) (t : Tk) : Bool :=
  match (s.isp m).lastLine with
  | none => false
  | some u => decide (3 * (t - u).toNat < 640 * s.ispWidth m)

/-- A line reaches an ISP. -/
def State.ispLine (s : State) (m dt : Nat) (t : Tk) (crcOk : Bool) (sh : Nat) (vs : List (BitVec 16)) : State :=
  let s := if s.lineScan m && !(s.isp m).active then s.frameBegin m else s
  let i := s.isp m
  if !i.active then s
  else if s.ispHeight m ≤ i.lines.length || s.lineEarly m t then s.lineError m
  else
    let n := if dt = 0x1E then 2 * s.ispWidth m else s.ispWidth m
    let (s, free) := s.drawNat 16
    let ax := s.ispAxis m
    let at_ := s.extendTk t.toNat - 256 * (s.rn (pgIsp m) 0x118 / 256 : Nat)
    let l : IspLine := ⟨t, s.interp ax at_, (s.axis ax).velValid, fitLine n free (vs.map (fun (v : BitVec 16) => v <<< sh))⟩
    let s := s.setIsp m { i with lines := i.lines ++ [l], lastLine := some t }
    let s := if vs.length = n ∧ crcOk then s else s.lineError m
    if s.lineScan m && (s.isp m).lines.length == s.ispHeight m then s.frameEnd m else s

/-- The ISP that names a stream (R438). -/
def State.ispOf (s : State) (p vc dt : Nat) : Option Nat :=
  (List.range 4).find? (fun m => s.pagePresent (pgIsp m) && bits (s.ispSrc m) 1 0 == p && bits (s.ispSrc m) 7 4 == vc &&
    bits (s.ispSrc m) 13 8 == dt)

/-- ISPs that take frames of a virtual channel of a port by Frame Start and Frame End. -/
def State.ispsOfVc (s : State) (p vc : Nat) : List Nat :=
  (List.range 4).filter (fun m => s.enabled (pgIsp m) && bits (s.ispSrc m) 1 0 == p && bits (s.ispSrc m) 7 4 == vc && !s.lineScan m)

/-- A corrected packet header counts in ECC_CORR (R439). -/
def State.hdrFixed (s : State) (pg : Nat) (fixed : Bool) : State := if fixed then s.satReg pg 0x110 else s

/-- CSI_PACKET. -/
def csiPacket (p : Nat) (pkt : CsiPacket) (s : State) : State :=
  let pg := pgCsi p
  if !s.pagePresent pg || !s.enabled pg then s
  else
    let s := { s with csiClk := insN s.csiClk p }
    let vcOn (v : Nat) : Bool := bit (s.rn pg 0x100) (16 + v)
    match pkt with
    | .badHeader => (s.satReg pg 0x114).raise pg 0
    | .frameStart vc fixed =>
      let s := s.hdrFixed pg fixed
      if vcOn vc.toNat then (s.ispsOfVc p vc.toNat).foldl (fun s m => s.frameBegin m) s else s
    | .frameEnd vc fixed =>
      let s := s.hdrFixed pg fixed
      if vcOn vc.toNat then (s.ispsOfVc p vc.toNat).foldl (fun s m => s.frameEnd m) s else s
    | .line vc dt t fixed crcOk vs =>
      let s := (s.incReg pg 0x10C).hdrFixed pg fixed
      let s := if crcOk then s else (s.satReg pg 0x118).raise pg 1
      match dtShift dt.toNat, s.ispOf p vc.toNat dt.toNat with
      | some sh, some m =>
        if !vcOn vc.toNat then s.satReg pg 0x11C
        else if s.enabled (pgIsp m) then s.ispLine m dt.toNat t crcOk sh vs
        else s
      | _, _ => s.satReg pg 0x11C

def execCsiPacket (port : Fin 4) (pkt : CsiPacket) (s : State) : Host.Outcome State Fault Refusal :=
  .next (csiPacket port.val pkt s)

/-- CLK_LOSS. -/
def clkLoss (p : Nat) (s : State) : State :=
  if s.csiClk.contains p then { s with csiClk := delN s.csiClk p }.raise (pgCsi p) 2 else s

def execClkLoss (port : Fin 4) (s : State) : Host.Outcome State Fault Refusal := .next (clkLoss port.val s)

end Sys2Proof.Machine
end

