-- ==== Sys2Proof/Machine/Integrity.lean ====
section
/-! DEFINITION. Stops and the tensor-complex reset after faults (R473 to R476, R478, R482), dailies and packs (R493 to
R498). -/

namespace Sys2Proof.Machine

/-! ### C1_STOP and C2_STOP -/

/-- The take of a job is stopped for a recovery, unless a CANCEL acts on the job (R317). A fault attributed to the job
counts once for its take (R478). -/
def State.loseTake (s : State) (id : BitVec 16) (attributed : Bool) : State :=
  match s.job? id with
  | none => s
  | some j =>
    if j.cores = [] ∨ j.cancelling then s
    else
      let s := j.cores.foldl (fun s n => s.modCore n Core.halt) s
      s.setJob { j with st := .restarting, lost := true, ready := false, released := false, claimed := [],
                        failures := if attributed && !j.lost then j.failures + 1 else j.failures }

/-- A recovery begins at the earliest detection not yet recovered from (R482). -/
def State.recoveryFrom (s : State) (t : Nat) : State :=
  { s with recovering := some (match s.recovering with | some u => min u t | none => t) }

/-- C1_STOP: every other core of the consuming job stops. The core named detected the fault, or is one of the job's where
JSC did. -/
def c1Stop (n : Nat) (s : State) : State :=
  let mine (e : FaultEv) : Bool :=
    e.cls == 1 && (e.core == some n || (e.core.isNone && (s.job? e.job).any (fun j => j.cores.contains n)))
  match s.faults.find? mine with
  | none => s
  | some e =>
    let s := { s with faults := s.faults.erase e }
    if (s.job? e.job).any (fun j => !j.cancelling && j.cores != []) then
      ((s.incReg pgFaults 0x114).loseTake e.job true).recoveryFrom e.at_
    else s

def execC1Stop (core : Fin 128) (s : State) : Host.Outcome State Fault Refusal := .next (c1Stop core.val s)

/-- A daily on a core is abandoned (R496). -/
def State.dropDaily (s : State) (n : Nat) : State :=
  let c := s.core n
  if c.daily then
    (s.setCore n { c.release with daily := false, icache := [], icacheValid := false, lastSlot := none }).setHealth n
      { s.healthOf n with running := false }
  else s

/-- C2_STOP: every core of the tensor complex stops; faults detected until now share the recovery. -/
def c2Stop (s : State) : State :=
  let evs := s.faults
  match evs.find? (fun e => e.cls == 2) with
  | none => s
  | some e =>
    let t := evs.foldl (fun m e => min m e.at_) e.at_
    let s := { s with faults := [], c2Active := true }
    let s := (List.range 128).foldl (fun s n => s.dropDaily n) s
    let s := s.jobs.foldl (fun s j => s.loseTake j.id (evs.any (fun e => e.job == j.id))) s
    let s := s.jobs.foldl (fun s j => j.cores.foldl (fun s n => s.modCore n Core.halt) s) s
    (s.incReg pgFaults 0x118).recoveryFrom t

def execC2Stop (s : State) : Host.Outcome State Fault Refusal := .next (c2Stop s)

/-! ### TENSOR_COMPLEX_RESET (R475, R592) -/

/-- What the reset clears in a core; its scratchpad stays. -/
def Core.complexReset (c : Core) : Core :=
  { c with tq0 := [], tq1 := [], tq2 := [], tq3 := [], xfers := [], sets := [], osq := [], nextSet := false,
           sb := List.replicate 32 SBEntry.reset, icache := [], icacheValid := false,
           tiles := List.replicate 16 Tile.reset, vaccSeq := none, argmax := List.replicate 32 none }

/-- What the reset clears in a cluster. -/
def Cluster.complexReset (c : Cluster) : Cluster :=
  { c with barriers := c.barriers.map (fun b => { b with arrived := [] })
           groups := c.groups.map (fun g => { g with counts := [] }) }

def tensorComplexReset (s : State) : State :=
  if s.c2Active then
    let s := (List.range 128).foldl (fun s n => s.modCore n Core.complexReset) s
    let s := (List.range 8).foldl (fun s c => s.modCluster c Cluster.complexReset) s
    let jobs := s.jobs.map (fun (j : Job) =>
      { j with jobBars := j.jobBars.map (fun (b : Barrier) => { b with arrived := [] }) })
    State.recoveryEnds { s with jobs := jobs, c2Active := false }
  else s

def execTensorComplexReset (s : State) : Host.Outcome State Fault Refusal := .next (tensorComplexReset s)

/-! ### Health units and dailies (R488, R490, R495 to R498) -/

/-- The unit is present in the grade; others read ABSENT. -/
def State.unitHere (s : State) (u : Nat) : Bool :=
  if u < 128 then corePresent s.fuse.grade u
  else if u < 136 then true
  else if u < 140 then u - 136 < s.fuse.grade.isps
  else u < 142 && u - 140 < s.fuse.grade.codecs

/-- The register page of an ISP or codec unit. -/
def unitPage (u : Nat) : Option Nat :=
  if 136 ≤ u ∧ u < 140 then some (pgIsp (u - 136)) else if 140 ≤ u ∧ u < 142 then some (pgVc (u - 140)) else none

/-- An armed commit of a unit that is disabled is discarded with RESULT 6 (R62). -/
def State.disarm (s : State) (page : Nat) : State :=
  if s.armed page then (s.setArmed page false).commitRes page 6 0 0 false else s

/-- RETIRED masks a unit: an ISP or codec is disabled as by its CTRL (R62, R490), and jobs that no longer fit end (R320). -/
def State.retired (s : State) (u : Nat) : State :=
  let s := match unitPage u with
    | some p =>
      if bit (s.rn p 8) 0 then
        let s := (s.setRn p 8 (s.rn p 8 / 2 * 2)).disarm p
        if u < 140 then s.ispOff (u - 136) else s
      else s
    | none => s
  if u < 128 then s.shapeChecks (clusterOf u) else if u < 136 then s.shapeChecks (u - 128) else s

/-- TARGET of a unit's tests (R493). -/
def unitTarget (u : Nat) : Nat := if u < 128 then 0 else if u < 136 then 1 else if u < 140 then 2 else 3

def State.dailyEn (s : State) : Bool := bit (s.rn pgHealth 0x100) 0
/-- A unit's interval in 1/256 ns. -/
def State.dailyInt (s : State) (u : Nat) : Nat :=
  256000000000 * s.rn pgHealth (if (s.healthOf u).st = 0 then 0x104 else 0x108)

/-- The uptime from which a unit is due. -/
def State.dueFrom (s : State) (u : Nat) : Nat :=
  match (s.healthOf u).lastDaily with
  | some t => if t < s.dailyFrom then s.dailyFrom + 2560000000000 else t + s.dailyInt u
  | none => s.dailyFrom + 2560000000000

def State.due (s : State) (u : Nat) : Bool := (s.healthOf u).withheld || (s.dailyEn && s.dueFrom u ≤ s.uptime)

/-- Idle as R495 says of each kind of unit. -/
def State.unitIdle (s : State) (u : Nat) : Bool :=
  if u < 128 then
    (s.core u).mode == .idle && s.enabled (pgTc u) && !s.coreRetired u && !s.jobs.any (fun j => j.claimed.contains u)
  else if u < 136 then true
  else if u < 140 then
    let p := pgIsp (u - 136)
    !s.enabled p || (List.range 3).all (fun k => !bit (s.rn p (0x140 + 0x20 * k)) 0)
  else !s.winTab.any (fun p => p.1 / 2 ^ 32 == pgVc (u - 140) && p.1 % 128 == 0)

/-- DAILY_START. -/
def dailyStart (u : Nat) (s : State) : State :=
  let h := s.healthOf u
  if s.unitHere u && h.st != 3 && !h.running && s.sec.pack.isSome && s.due u && s.unitIdle u then
    let s := s.setHealth u { h with running := true }
    if u < 128 then
      s.modCore u (fun c => { c with mode := .running, daily := true, icache := [], icacheValid := false, lastSlot := none })
    else s
  else s

def execDailyStart (unit : Fin 142) (s : State) : Host.Outcome State Fault Refusal := .next (dailyStart unit.val s)

/-- A report goes to its ring, or is lost (R498). -/
def State.putReport (s : State) (bs : List Byte) : State :=
  let cfg := s.rn pgHealth 0x118
  let n := cfg % 16
  let h := s.rn pgHealth 0x11C
  if !bit cfg 31 || ringFull h (s.rn pgHealth 0x120) n then (s.satReg pgHealth 0x124).raise pgHealth 2
  else
    (s.writeVia 22 (s.rn pgHealth 0x114 % 2 ^ 28 * 4096 + 64 * (h % 2 ^ n)) (fitBytes 64 bs)).setRn pgHealth 0x11C
      ((h + 1) % 2 ^ (n + 1))

/-- A finished daily leaves its core idle, as one that has run no image (R496). -/
def State.endDaily (s : State) (u : Nat) : State := if u < 128 then s.dropDaily u else s.setHealth u { s.healthOf u with running := false }

/-- The level of a unit itself: core, cluster or subsystem (R17, R18). -/
def unitLevel (u : Nat) : Nat := if u < 128 then 4 else if u < 136 then 5 else 6

/-- RESULT, LEVEL, FAILED_TEST, SUB and ADDR of a result; a test out of time is located at its unit. -/
def dailyFields (u : Nat) : DailyResult → Nat × Nat × Nat × Nat × Nat
  | .pass => (1, 0, 0xFFFF, 0, 0)
  | .fail t lv sub a => (2, lv.toNat, t.toNat, sub.toNat, a.toNat)
  | .timeLimit t => (3, unitLevel u, t.toNat, 0, 0)

/-- DAILY_COMPLETE. A core that stopped during its daily cannot pass it (R497). -/
def dailyComplete (u : Nat) (r : DailyResult) (tests dur : Nat) (s : State) : State :=
  let h := s.healthOf u
  if !h.running || (u < 128 && r == .pass && (s.core u).mode == .stopped) then s
  else
    let ok := r == .pass
    let passes := if ok then min 255 (h.passes + 1) else 0
    let st := if !ok then 3 else if (h.st = 1 ∨ h.st = 2) ∧ 96 ≤ passes then 0 else h.st
    let (res, level, test, sub, addr) := dailyFields u r
    let pid := match s.sec.pack with | some (_, id, _) => id.toNat | none => 0
    let rep := leBytes 1 res ++ leBytes 1 h.st ++ leBytes 1 st ++ leBytes 1 level ++ leBytes 2 u ++ leBytes 2 test ++
      leBytes 5 s.tk ++ leBytes 3 0 ++ leBytes 8 pid ++ leBytes 2 sub ++ leBytes 2 tests ++ leBytes 4 dur ++ leBytes 5 addr
    let s := s.endDaily u
    let s := s.setHealth u { s.healthOf u with passes := passes, lastDaily := some s.uptime, overdue := false,
                                               withheld := h.withheld && !ok }
    let s := (s.setHealthSt u st).incReg pgHealth 0x128
    let s := if ok then s else (s.satReg pgHealth 0x12C).raise pgHealth 1
    let s := s.putReport rep
    if ok then s else s.retired u

def execDailyComplete (unit : Fin 142) (result : DailyResult) (tests : BitVec 16) (durationUs : Word) (s : State) :
    Host.Outcome State Fault Refusal := .next (dailyComplete unit.val result tests.toNat durationUs.toNat s)

/-- DAILY_OVERDUE: due for more than one interval without being idle. -/
def dailyOverdue (u : Nat) (s : State) : State :=
  let h := s.healthOf u
  if s.unitHere u && h.st != 3 && s.dailyEn && !h.running && !s.unitIdle u && !h.overdue &&
      s.dueFrom u + s.dailyInt u < s.uptime then
    (s.setHealth u { h with overdue := true }).raise pgHealth 3
  else s

def execDailyOverdue (unit : Fin 142) (s : State) : Host.Outcome State Fault Refusal := .next (dailyOverdue unit.val s)

/-! ### PACK_VERIFY (R493, R494) -/

/-- The fields of a pack break its layout. -/
def packBad (b : List Byte) (total : Nat) : Bool :=
  let n := fld b 6 2
  fld b 0 4 != 0x31594C44 || n == 0 || 1024 < n || fld b 16 4 != total || ((b.drop 20).take 44).any (· != 0) ||
    total < 64 + 32 * n + trailerLen ||
    (List.range n).any (fun i =>
      let t := (b.drop (64 + 32 * i)).take 32
      3 < fld t 0 1 || 2 < fld t 1 1 || fld t 3 1 != 0 || (fld t 1 1 == 1 && (6 < fld t 2 1 || ((t.drop 16).any (· != 0)))) ||
        (fld t 1 1 != 1 && total < fld t 8 4 + fld t 12 4))

/-- PACK_VERIFY: SEC reads the pack at PACK_BASE and accepts or refuses it. -/
def packVerify (s : State) : State :=
  if !s.sec.packBusy then s
  else
    let a := s.rn pgHealth 0x10C % 2 ^ 28 * 4096
    let (s, hd, _) := s.readVia 22 a 64
    let len := max 64 (min (fld hd 16 4) (s.fuse.grade.dramEnd - a))
    let (s, bs, r) := s.readVia 22 a len
    let s := if r = .poisoned then s.dramUe pgSec (s.badLine 22 a len) else s
    let body := bs.take (len - trailerLen)
    let trailer := bs.drop (len - trailerLen)
    let old := match s.sec.pack with | some (v, _, _) => v | none => 0
    let ver := fld bs 4 2
    let code := if r ≠ .ok ∨ !(trailerOk "WQ-PACK" body trailer && s.makerKey (trailer.take pubLen)) then 1
      else if packBad bs len then 2 else if ver < old then 3 else 0
    let s := { s with sec := { s.sec with packBusy := false } }
    if code = 0 then
      let m := s.sec.meas
      let s := { s with sec := { s.sec with
        pack := some (ver, BitVec.ofNat 64 (fld bs 8 8), bs.drop 64 |>.take (32 * fld bs 6 2))
        meas := m.set 5 (Config.sha3 (digestBytes (m.getD 5 0) ++ digestBytes (Config.sha3 bs))) } }
      s.setRn pgHealth 0x110 (1 + 65536 * ver)
    else s.setRn pgHealth 0x110 (b2n s.sec.pack.isSome + 256 * code + 65536 * old)

def execPackVerify (s : State) : Host.Outcome State Fault Refusal := .next (packVerify s)

end Sys2Proof.Machine
end

