-- ==== Sys2Proof/Machine/Wire.lean ====
section
/-! DEFINITION. Ports: their configuration, the frames the device generates, and their place in the egress queue (R395,
R398, R406, R420). A frame waits in `egress` until TX_FRAME_DONE. -/

namespace Sys2Proof.Machine

def State.port (s : State) (p : Nat) : Port := s.ports[p]?.getD Port.reset
def State.setPort (s : State) (p : Nat) (x : Port) : State := { s with ports := s.ports.setIfInBounds p x }
def State.modPort (s : State) (p : Nat) (f : Port → Port) : State := s.setPort p (f (s.port p))

/-- Fabric port of Ethernet port p. -/
def netPort (p : Nat) : Nat := 14 + p

/-- CMD_UDP_PORT (R432). -/
def State.cmdUdp (s : State) : Nat := s.rn pgNet 0x100 % 65536

/-- A counter of page 0x030, saturating. -/
def State.netCount (s : State) (off : Nat) : State := s.satReg pgNet off

/-- Bytes most significant first (R419). -/
def beBytes (n x : Nat) : List Byte := (leBytes n x).reverse
def beNat (bs : List Byte) : Nat := leNat bs.reverse
def beFld (bs : List Byte) (o n : Nat) : Nat := beNat ((bs.drop o).take n)

/-- An address is an IPv4 address, written as an IPv4-mapped IPv6 address (R409). -/
def isV4 (ip : BitVec 128) : Bool := ip.toNat / 2 ^ 32 == 0xFFFF

/-- The IP header of a frame the device generates: TTL 64 with DF, or hop limit 64; DSCP CMD_DSCP; a UDP checksum (R398). -/
def State.txIp (s : State) (ip : BitVec 128) : TxIp where
  v6 := !isV4 ip
  hops := 64
  df := isV4 ip
  dscp := s.rn 0x036 0x100 % 64
  summed := true

/-- A frame of the reel protocol enters the egress queue in the command class (R398, R406). -/
def State.sendReel (s : State) (p : Nat) (h : ReelHdr) (body : List Byte) (vid : Option Nat) (mac : BitVec 48)
    (ip : BitVec 128) (udp : BitVec 16) : State :=
  s.modPort p (fun x => { x with egress := x.egress ++
    [{ cls := 7, desc := none, payload := .reel h body, bytes := 24 + body.length, vid := vid, toMac := mac, toIp := ip,
       toUdp := udp, ip := some (s.txIp ip), tag := none }] })

/-! ### What MACsec makes of a received frame (R399, R402) -/

def State.secy (s : State) (p : Nat) : Nat := s.rn pgMacsec (0x100 + 4 * p)

/-- The receive SA that a frame's SecTAG names. -/
def State.rxSaOf (s : State) (p : Nat) (f : Frame) : Option Sa :=
  let x := s.port p
  if bit (s.secy p) 0 && f.secured == some x.rxSc then x.rxSas.find? (fun a => a.an == f.an.toNat) else none

/-- MACsec verifies the frame. -/
def State.verified (s : State) (p : Nat) (f : Frame) : Bool := (s.rxSaOf p f).isSome && !f.secFailed && f.pn != 0

/-- Replay protection refuses the frame: its packet number lies more than REPLAY_WINDOW below the next one. -/
def State.replayed (s : State) (p : Nat) (f : Frame) : Bool :=
  bit (s.secy p) 3 && (s.rxSaOf p f).any (fun a => f.pn.toNat < a.pn - bits (s.secy p) 27 16)

/-- The frame as the port buffers it. -/
def State.received (s : State) (p : Nat) (f : Frame) : Frame :=
  { f with secured := if s.verified p f then f.secured else none }

/-- The next packet number of a receive SA after a verified frame. -/
def State.notePn (s : State) (p : Nat) (f : Frame) : State :=
  if s.verified p f then
    s.modPort p (fun x => { x with rxSas := x.rxSas.map (fun a =>
      if a.an = f.an.toNat then { a with pn := max a.pn (f.pn.toNat + 1) } else a) })
  else s

/-- A header of a frame the device sends. -/
def mkHdr (type session gen reel count seq ack len : Nat) : ReelHdr where
  magic := 0x474B
  version := 1
  type := BitVec.ofNat 8 type
  session := BitVec.ofNat 16 session
  gen := BitVec.ofNat 16 gen
  reel := BitVec.ofNat 16 reel
  count := BitVec.ofNat 16 count
  seq := w32 seq
  ack := w32 ack
  length := BitVec.ofNat 16 len
  flags := 0

/-- A frame to a session's peer about a reel; ACK is e - 1 (R426). -/
def State.sendPeer (s : State) (session reel type count seq : Nat) (body : List Byte) : State :=
  let x := s.session session
  match x.port with
  | some p =>
    s.sendReel p.val (mkHdr type session x.gen.toNat reel count seq ((s.reel reel).cmdSeq.toNat + 2 ^ 32 - 1) body.length)
      body none x.mac x.ip x.udp
  | none => s

/-- A frame whose SEQ the manual gives no value. -/
def State.sendPeerFree (s : State) (session reel type : Nat) (body : List Byte) : State :=
  let (s, q) := s.drawNat 32
  s.sendPeer session reel type 0 q body

/-- The open session that a received frame names and whose binding it matches (R421). -/
def State.boundTo (s : State) (p : Fin 4) (f : Frame) (h : ReelHdr) : Option (Fin 256) :=
  if hi : h.session.toNat < 256 then
    let x := s.session h.session.toNat
    let ip := f.ip.getD ⟨false, false, false, false, false, 0, 0, 0, 0, 0⟩
    if x.isOpen && h.session.toNat != 0 && x.gen == h.gen && x.port == some p && x.mac == f.srcMac && x.ip == ip.srcIp &&
        x.udp == ip.srcUdp && x.sc == f.secured then some ⟨h.session.toNat, hi⟩ else none
  else none

/-! ### The flow table (R409) -/

/-- A field of a flow entry. -/
def State.flowNat (s : State) (e o n : Nat) : Nat := s.winNat pgFlows 128 e o n
def State.flowType (s : State) (e : Nat) : Nat := s.flowNat e 0 1

/-- Entries with a byte listed, so every entry whose TYPE is not 0. -/
def State.flowIds (s : State) : List Nat :=
  ((s.winTab.filter (fun p => p.1 / 2 ^ 32 = pgFlows ∧ p.1 % 128 = 0)).map (fun p => p.1 % 2 ^ 32 / 128))

/-- What NET holds of a flow. -/
def Flow.reset : Flow where
  open_ := false
  data := []
  arrival := 0
  firstSeq := 0
  lastSeq := none
  mediaTs := 0
  fmt := []
  secured := true
  gap := false
  skip := false
  fu := false
  nextOff := 0
  auSeq := 0
  wr := 0
  rd := 0

def State.flow (s : State) (e : Nat) : Flow := mapGet s.flows e Flow.reset
def State.setFlow (s : State) (e : Nat) (f : Flow) : State := { s with flows := mapSet s.flows e Flow.reset f }

/-- A saturating count in a flow entry; the manual gives its counts no wrap, so they hold at their top. -/
def State.flowCount (s : State) (e o : Nat) : State := s.setWin pgFlows 128 e [(o, 4, min (s.flowNat e o 4 + 1) 0xFFFFFFFF)]

end Sys2Proof.Machine
end

