-- ==== Sys2Proof/Machine/Sessions.lean ====
section
/-! DEFINITION. Sessions (R540 to R545): handshakes, their secrets, opening and closing, link sessions and the SAs SEC
installs (R544), and the mailbox. A message travels in HANDSHAKE frames on a port or in a hart's mailbox buffer. -/

namespace Sys2Proof.Machine

def State.modSec (s : State) (f : Sec → Sec) : State := { s with sec := f s.sec }
def State.setSession (s : State) (i : Nat) (x : Session) : State :=
  s.modSec (fun c => { c with sessions := c.sessions.setIfInBounds i x })

/-- The bytes of a name that a digest is taken over. -/
def State.deviceSig (s : State) (ctx : String) (d : Digest) : State × List Byte :=
  if s.sec.deviceKeyOk then
    ({ s with free := s.free + 1 }, fitBytes 4627 (Config.mldsaSign s.fuse.dus (ctxBytes ctx) d s.free))
  else (s, List.replicate 4627 0)

/-! ### Sending a message (R540, R545) -/

/-- The buffer of a hart (R562). -/
def State.mboxAddr (s : State) (h : Nat) : Nat := (mapGet s.sec.mboxAddr h 0).toNat % 2 ^ 28 * 4096

/-- The 8-byte fragment header. -/
def fragHeader (msg hsId frag nfrag len : Nat) : List Byte :=
  beBytes 1 msg ++ beBytes 1 hsId ++ beBytes 1 frag ++ beBytes 1 nfrag ++ beBytes 4 len

/-- A message leaves SEC: in fragments of at most 1,400 bytes on a port, whole in a hart's buffer. -/
def State.sendMsg (s : State) (o : HsOrigin) (mac : BitVec 48) (ip : BitVec 128) (udp : BitVec 16) (msg hsId : Nat)
    (m : List Byte) : State :=
  match o with
  | .port p =>
    let n := (m.length + 1399) / 1400
    (List.range n).foldl (fun s i =>
      let part := (m.drop (1400 * i)).take 1400
      let body := fragHeader msg hsId i n m.length ++ part
      let (s, q) := s.drawNat 32
      s.sendReel p.val (mkHdr 0x01 0xFFFF 0 0xFFFF 0 q 0 body.length) body none mac ip udp) s
  | .hart h =>
    let s := s.writeVia 22 (s.mboxAddr h.val) (fragHeader msg hsId 0 1 m.length ++ m)
    s.modSec (fun c => { c with mboxReply := insN c.mboxReply h.val })

/-! ### Fragments arrive (R540) -/

/-- A fragment joins its message; a whole message waits for SEC. Fragments that break the header are dropped. -/
def State.takeFragment (s : State) (o : HsOrigin) (mac : BitVec 48) (ip : BitVec 128) (udp : BitVec 16)
    (sc : Option (BitVec 64)) (b : List Byte) : State :=
  let msg := beFld b 0 1
  let hsId := beFld b 1 1
  let frag := beFld b 2 1
  let nfrag := beFld b 3 1
  let len := beFld b 4 4
  let part := b.drop 8
  if b.length < 8 || nfrag ≤ frag || (1400 < part.length && nfrag != 1) then s
  else
    let mine (f : HsFrag) : Bool :=
      f.origin == o && f.msg.toNat == msg && f.hsId.toNat == hsId && f.mac == mac && f.ip == ip && f.udp == udp
    let old := match s.sec.frags.find? mine with
      | some f => if f.nfrag = nfrag ∧ f.len = len then f.got else []
      | none => []
    let got := if old.any (·.1 == frag) then old else mapPut old frag part
    let rest := s.sec.frags.filter (fun f => !mine f)
    if got.length < nfrag then
      s.modSec (fun c => { c with frags := rest ++
        [⟨o, BitVec.ofNat 8 msg, BitVec.ofNat 8 hsId, nfrag, len, got, mac, ip, udp⟩] })
    else
      let m := got.flatMap (·.2)
      let s := s.modSec (fun c => { c with frags := rest })
      if m.length ≠ len then s
      else
        s.modSec (fun c => { c with inbox := c.inbox ++
          [⟨o, BitVec.ofNat 8 msg, BitVec.ofNat 8 hsId, m, mac, ip, udp, sc⟩] })

/-- The oldest waiting message of a kind from an origin, and the others. -/
def State.takeMsg (s : State) (o : HsOrigin) (msg : Nat) : Option (HsMsg × State) :=
  match s.sec.inbox.find? (fun m => m.origin == o && m.msg.toNat == msg) with
  | some m => some (m, s.modSec (fun c => { c with inbox := c.inbox.erase m }))
  | none => none

/-! ### Secrets (R541) -/

def digestHead (n : Nat) (d : Digest) : List Byte := (digestBytes d).take n
def sessionKey (ss : List Byte) (th2 : Digest) : Digest := Config.sha3 (ctxBytes "WQ-SESS" ++ ss ++ digestBytes th2)
def confOf (k th2 : Digest) : List Byte :=
  digestHead 32 (Config.sha3 (ctxBytes "WQ-CONF" ++ digestBytes k ++ digestBytes th2))
def tagOf (k : Digest) (m : List Byte) : List Byte := digestHead 32 (Config.sha3 (ctxBytes "WQ-MSG" ++ digestBytes k ++ m))
def sakOf (k : Digest) (n : Nat) : Digest :=
  BitVec.ofNat 512 (leNat (digestHead 32 (Config.sha3 (ctxBytes "WQ-SAK" ++ digestBytes k ++ leBytes 4 n))))

/-! ### Closing (R428, R543) -/

/-- Every reel of a session is detached; SESSION_LOST (R428). -/
def State.loseReels (s : State) (i : Fin 256) : State :=
  if s.reels.toList.any (fun r => r.attached == some i) then
    let s := (List.range 32).foldl (fun s n => if (s.reel n).attached == some i then s.detachReel n else s) s
    s.raise pgNet 0
  else s

/-- SESSION_CHANGE. -/
def State.sessionChange (s : State) : State := s.raise pgSess 0

/-- A session closes; the cause is numbered in the order of R543. -/
def State.closeSession (s : State) (i : Fin 256) (cause : Nat) : State :=
  let x := s.session i.val
  if !x.isOpen || i.val = 0 then s
  else
    let role := roleNum (s.sessionRole i.val)
    let s := s.setSession i.val { x with isOpen := false }
    let s := s.loseReels i
    let s := s.modSec (fun c => { c with hartSession := c.hartSession.filter (fun p => p.2 != i) })
    let s := match x.port with
      | some p => if (s.port p.val).linkSession == some i then s.modPort p.val (fun q => { q with linkSession := none }) else s
      | none => s
    (s.auditAs 6 role i.val x.gen x.keySlot 0 0xFFFF 0 (w32 cause) 0 []).sessionChange

/-- Closes every open session that `p` holds of. -/
def State.closeWhere (s : State) (p : Session → Bool) (cause : Nat) : State :=
  (List.finRange 256).foldl (fun s i => if i.val ≠ 0 && p (s.session i.val) then s.closeSession i cause else s) s

/-! ### Handshakes -/

/-- The public key of a KEY_SLOT of the key store (R536, R540). -/
def State.storeKey (s : State) (slot : Nat) : Option (List Byte) :=
  if slot < 16 then mapGet? s.sec.keys.operators slot else if slot = 0x10 then s.sec.keys.installer else none

/-- The maker key digest of a KEY_SLOT, when it may sign. -/
def State.fuseKey (s : State) (slot : Nat) : Option Digest :=
  if slot = 0x20 ∧ s.fuse.rootValid ∧ !s.fuse.rootRevoked then some s.fuse.rootHash
  else if slot = 0x21 ∧ s.fuse.oemValid ∧ !s.fuse.oemRevoked then some s.fuse.oemHash
  else none

/-- The digest of the key a KEY_SLOT names, when it is enrolled. -/
def State.slotDigest (s : State) (slot : Nat) : Option Digest := ((s.storeKey slot).map Config.sha3).or (s.fuseKey slot)

/-- The highest role a KEY_SLOT proves. -/
def slotRole (slot : Nat) : Nat := if slot < 16 then 0 else if slot = 0x10 then 1 else 2

def roleOfNum : Nat → Role
  | 0 => .operator | 1 => .installer | _ => .maker

/-- The lowest session index neither open nor held by a handshake. -/
def State.freeSession (s : State) : Option (Fin 256) :=
  (List.finRange 256).find? (fun i => i.val ≠ 0 && !(s.session i.val).isOpen && !s.sec.hands.any (fun h => h.session == some i))

/-- The port has a link session. -/
def State.hasLink (s : State) : HsOrigin → Bool
  | .port p => (s.port p.val).linkSession.isSome
  | .hart _ => false

/-- PORT_CFG.MACSEC_REQ. -/
def State.macsecReq (s : State) (p : Nat) : Bool := bit (s.rn (pgPort p) 0x100) 2

/-- STATUS of the OFFER that answers a HELLO (R542). -/
def State.helloStatus (s : State) (o : HsOrigin) (slot role : Nat) (link : Bool) : Nat :=
  if !s.sec.deviceKeyOk then 4
  else if (s.slotDigest slot).isNone || slotRole slot < role then 1
  else if s.freeSession.isNone then 2
  else if 8 ≤ s.sec.hands.length then 3
  else
    match o with
    | .hart h => if link then 7 else if (s.hartSession h.val).val ≠ 0 then 2 else 0
    | .port p => if !link && s.macsecReq p.val && !s.hasLink o then 7 else 0

/-- A handshake is the one of a message: origin, HS_ID and peer. -/
def Handshake.isOf (h : Handshake) (m : HsMsg) : Bool :=
  h.origin == m.origin && h.hsId == m.hsId && h.mac == m.mac && h.ip == m.ip && h.udp == m.udp

/-- Replaces a handshake. -/
def State.setHand (s : State) (h : Handshake) : State :=
  s.modSec (fun c => { c with hands := c.hands.map (fun x =>
    if x.origin == h.origin && x.hsId == h.hsId && x.mac == h.mac && x.ip == h.ip && x.udp == h.udp then h else x) })

/-- An attempt ends; its session index is free again. -/
def State.dropHand (s : State) (h : Handshake) : State := s.modSec (fun c => { c with hands := c.hands.erase h })

/-- A new attempt: with STATUS 0 it holds the lowest free session index, whose GEN is incremented. -/
def State.newHand (s : State) (m : HsMsg) : State :=
  let role := beFld m.body 0 1
  let slot := beFld m.body 1 1
  let link := bit (beFld m.body 2 1) 0
  let st := s.helloStatus m.origin slot role link
  let idx := if st = 0 then s.freeSession else none
  let gen := match idx with | some i => (s.session i.val).gen + 1 | none => 0
  let s := match idx with | some i => s.setSession i.val { s.session i.val with gen := gen } | none => s
  let h : Handshake :=
    { origin := m.origin, hsId := m.hsId, hello := m.body, offer := [], role := roleOfNum role, keySlot := slot,
      link := link, session := idx, gen := gen, started := s.uptime, status := st, k := 0, th2 := 0, kem := 0,
      keyDigest := (s.slotDigest slot).getD 0, accepted := false, ready := false, mac := m.mac, ip := m.ip, udp := m.udp,
      sc := m.sc }
  s.modSec (fun c => { c with hands := c.hands ++ [h] })

/-- HELLO: a repeated one is answered with the same OFFER; one that breaks its layout is dropped. -/
def hello (o : HsOrigin) (s : State) : State :=
  match s.takeMsg o 0x01 with
  | none => s
  | some (m, s) =>
    if m.body.length ≠ 36 ∨ beFld m.body 3 1 ≠ 0 ∨ 1 < beFld m.body 2 1 then s
    else
      match s.sec.hands.find? (fun h => h.isOf m) with
      | some h =>
        if h.hello.drop 4 = m.body.drop 4 then
          if h.offer = [] then s else s.sendMsg o m.mac m.ip m.udp 0x02 m.hsId.toNat h.offer
        else (s.dropHand h).newHand m
      | none => s.newHand m

def execHello (origin : HsOrigin) (s : State) : Host.Outcome State Fault Refusal := .next (hello origin s)

/-- OFFER up to its SIG: STATUS, SESSION, GEN, ND and EK; the rest of a refusing OFFER is free. -/
def State.offerBody (s : State) (h : Handshake) : State × Nat × List Byte :=
  if h.status ≠ 0 then
    let (s, b) := s.drawBytes 1607
    (s, 0, beBytes 1 h.status ++ b)
  else
    let (s, nd) := s.drawBytes 32
    let n := s.free
    let s := { s with free := n + 1 }
    (s, n, beBytes 1 0 ++ beBytes 1 0 ++ beBytes 2 ((h.session.map (·.val)).getD 0) ++ beBytes 2 h.gen.toNat ++ beBytes 2 0 ++ nd ++
      fitBytes 1568 (Config.kemKey n))

/-- OFFER: SEC sends the signed OFFER; a STATUS other than 0 ends the attempt. -/
def offer (o : HsOrigin) (hsId : Byte) (s : State) : State :=
  match s.sec.hands.find? (fun h => h.origin == o && h.hsId == hsId && h.offer == []) with
  | none => s
  | some h =>
    let (s, n, b) := s.offerBody h
    let (s, sig) := s.deviceSig "WQ-HS" (Config.sha3 (h.hello ++ b))
    let s := s.sendMsg o h.mac h.ip h.udp 0x02 hsId.toNat (b ++ sig)
    if h.status ≠ 0 then s.dropHand h else s.setHand { h with offer := b ++ sig, kem := n }

def execOffer (origin : HsOrigin) (hsId : Byte) (s : State) : Host.Outcome State Fault Refusal := .next (offer origin hsId s)

/-- STATUS that an ACCEPT leads to (R542). -/
def State.acceptStatus (s : State) (h : Handshake) (b : List Byte) (th2 : Digest) : Nat :=
  let publen := beFld b 0 2
  let maker := h.keySlot = 0x20 ∨ h.keySlot = 0x21
  let pub := (b.drop 1572).take publen
  let sig := b.drop (1572 + publen)
  if !s.sec.deviceKeyOk then 4
  else if (s.slotDigest h.keySlot) ≠ some h.keyDigest then 5
  else if b.length ≠ 1572 + publen + 4627 ∨ publen ≠ (if maker then pubLen else 0) ∨ beFld b 2 2 ≠ 0 then 4
  else
    let key := if maker then pub else (s.storeKey h.keySlot).getD []
    if maker ∧ Config.sha3 pub ≠ h.keyDigest then 4
    else if Config.mldsaVerify key (ctxBytes "WQ-HS") th2 sig then 0 else 4

/-- ACCEPT: verified and decapsulated; K is formed from ss and TH2. -/
def accept (o : HsOrigin) (s : State) : State :=
  match s.takeMsg o 0x03 with
  | none => s
  | some (m, s) =>
    match s.sec.hands.find? (fun h => h.isOf m && h.offer != [] && !h.accepted) with
    | none => s
    | some h =>
      let signed := m.body.take (m.body.length - 4627)
      let th2 := Config.sha3 (h.hello ++ h.offer ++ signed)
      let st := s.acceptStatus h m.body th2
      let ss := fitBytes 32 (Config.kemDecaps h.kem ((m.body.drop 4).take 1568))
      s.setHand { h with accepted := true, status := if h.status = 0 then st else h.status, th2 := th2,
                         k := sessionKey ss th2, sc := m.sc }

def execAccept (origin : HsOrigin) (s : State) : Host.Outcome State Fault Refusal := .next (accept origin s)

/-- The SCI of a peer: its source MAC address with port identifier 1 (R544). -/
def sciOf (mac : BitVec 48) : BitVec 64 := BitVec.ofNat 64 (mac.toNat * 65536 + 1)

/-- The session becomes its port's link session with SAK_0 on both sides; the previous link session closes (R544). -/
def State.installLink (s : State) (p : Nat) (i : Fin 256) (mac : BitVec 48) (k : Digest) : State :=
  let s := match (s.port p).linkSession with
    | some old => s.closeSession old 5
    | none => s
  let sa : Sa := ⟨0, sakOf k 0, 1⟩
  let s := s.modPort p (fun q => { q with linkSession := some i, txSa := some sa, txNext := none, rxSc := sciOf mac,
                                          rxSas := [sa], rekeyN := 0 })
  (s.setRn pgMacsec (0x100 + 4 * p) (s.rn pgMacsec (0x100 + 4 * p) / 2 * 2 + 1)).setRn pgMacsec (0x110 + 4 * p) 0

/-- The session opens with its binding, its accounting entry and its audit entry (R322, R421, R542, R555). -/
def State.openSession (s : State) (h : Handshake) (i : Fin 256) : State :=
  let port := match h.origin with | .port p => some p | .hart _ => none
  let hart := match h.origin with | .hart n => some n | .port _ => none
  let s := match port with
    | some p => if h.link then s.installLink p.val i h.mac h.k else s
    | none => s
  let x : Session :=
    { isOpen := true, role := h.role, keySlot := h.keySlot, gen := h.gen, link := h.link, port := port, hart := hart,
      k := h.k, keyDigest := h.keyDigest, opened := s.uptime, mac := h.mac, ip := h.ip, udp := h.udp,
      sc := if h.link then some (sciOf h.mac) else h.sc, idleFrom := s.uptime }
  let s := s.setSession i.val x
  let s := match hart with
    | some n => s.modSec (fun c => { c with hartSession := c.hartSession.filter (fun (q : Nat × Fin 256) => decide (q.1 ≠ n.val)) ++ [(n.val, i)] })
    | none => s
  let s := s.setWin pgAcct 32 i.val [(0, 2, i.val), (2, 2, h.gen.toNat), (4, 20, 0)]
  let via := match h.origin with | .port p => p.val | .hart n => n.val
  (s.auditAs 5 (roleNum h.role) i.val h.gen h.keySlot 0 0xFFFF 0 (w32 via) (w32 (b2n h.link + 2 * b2n hart.isSome))
    (digestHead 24 h.keyDigest)).sessionChange

/-- The DONE message. -/
def doneBody (h : Handshake) (st : Nat) : List Byte :=
  beBytes 1 st ++ beBytes 1 (roleNum h.role) ++ beBytes 2 0 ++ beBytes 2 ((h.session.map (·.val)).getD 0) ++ beBytes 2 h.gen.toNat ++
    beBytes 4 0 ++ (if st = 0 then confOf h.k h.th2 else List.replicate 32 0)

/-- DONE: the session is open from the moment it is sent. -/
def doneRow (o : HsOrigin) (hsId : Byte) (s : State) : State :=
  match s.sec.hands.find? (fun h => h.origin == o && h.hsId == hsId && h.accepted) with
  | none => s
  | some h =>
    let st := if h.status = 0 ∧ (s.slotDigest h.keySlot) ≠ some h.keyDigest then 5 else h.status
    let s := s.dropHand h
    let s := s.sendMsg o h.mac h.ip h.udp 0x04 hsId.toNat (doneBody h st)
    match h.session with
    | some i => if st = 0 then s.openSession h i else s
    | none => s

def execDone (origin : HsOrigin) (hsId : Byte) (s : State) : Host.Outcome State Fault Refusal := .next (doneRow origin hsId s)

/-- HS_TIMEOUT: HS_TIMEOUT_MS after HELLO the attempt ends with STATUS 6, in the message that is due. -/
def hsTimeout (o : HsOrigin) (hsId : Byte) (s : State) : State :=
  match s.sec.hands.find? (fun h => h.origin == o && h.hsId == hsId) with
  | none => s
  | some h =>
    let due := h.started + 256000000 * s.rn pgSess 0x100
    let s := advance (due - s.uptime) s
    let h' := { h with status := 6 }
    if h.offer = [] then
      let (s, _, b) := s.offerBody h'
      let (s, sig) := s.deviceSig "WQ-HS" (Config.sha3 (h.hello ++ b))
      (s.sendMsg o h.mac h.ip h.udp 0x02 hsId.toNat (b ++ sig)).dropHand h
    else (s.sendMsg o h.mac h.ip h.udp 0x04 hsId.toNat (doneBody h' 6)).dropHand h

def execHsTimeout (origin : HsOrigin) (hsId : Byte) (s : State) : Host.Outcome State Fault Refusal :=
  .next (hsTimeout origin hsId s)

/-- The open session a message of its own names, when its TAG over the first `n` bytes holds (R541). -/
def State.tagged (s : State) (m : HsMsg) (n : Nat) : Option (Fin 256) :=
  let i := beFld m.body 0 2
  if h : i < 256 then
    let x := s.session i
    if x.isOpen && i != 0 && x.gen.toNat == beFld m.body 2 2 && m.body.length == n + 32 &&
        m.body.drop n == tagOf x.k (m.body.take n) then some ⟨i, h⟩ else none
  else none

/-- CLOSE: a message whose TAG fails is dropped. -/
def closeMsg (o : HsOrigin) (s : State) : State :=
  match s.takeMsg o 0x05 with
  | none => s
  | some (m, s) =>
    match s.tagged m 8 with
    | some i => s.closeSession i 1
    | none => s

def execClose (origin : HsOrigin) (s : State) : Host.Outcome State Fault Refusal := .next (closeMsg origin s)

/-- SESSION_LIFETIME_EXPIRY (R543). -/
def sessionLifetimeExpiry (i : Fin 256) (s : State) : State :=
  let x := s.session i.val
  if x.isOpen && i.val ≠ 0 then
    (advance (x.opened + 256000000000 * s.rn pgSess 0x104 - s.uptime) s).closeSession i 4
  else s

def execSessionLifetimeExpiry (session : Fin 256) (s : State) : Host.Outcome State Fault Refusal :=
  .next (sessionLifetimeExpiry session s)

/-- A lowered SESS_LIFE_S closes older sessions at once (R543). -/
def State.lifetimes (s : State) : State :=
  s.closeWhere (fun x => x.isOpen && x.opened + 256000000000 * s.rn pgSess 0x104 ≤ s.uptime) 4

/-! ### Effects of register writes (R543, R545, R562) -/

/-- A write of SESS_CLOSE. -/
def State.sessCloseWrite (s : State) (v : Nat) : State :=
  match (List.finRange 256).find? (fun i => i.val == v % 256) with
  | some i => s.closeSession i 2
  | none => s

/-- A write of 1 to MBOX_CMD by a hart: the message in its buffer is delivered. -/
def State.mboxWrite (s : State) (h : Fin 8) (v : Nat) : State :=
  if v ≠ 1 then s
  else
    let s := s.modSec (fun c => { c with mboxReply := delN c.mboxReply h.val })
    let a := s.mboxAddr h.val
    let (s, hd, r) := s.readVia 22 a 8
    if r ≠ .ok then (if r = .poisoned then s.dramUe pgSec (s.badLine 22 a 8) else s)
    else
      let (s, body, r) := s.readVia 22 (a + 8) (beFld hd 4 4)
      if r ≠ .ok then (if r = .poisoned then s.dramUe pgSec (s.badLine 22 (a + 8) (beFld hd 4 4)) else s)
      else s.takeFragment (.hart h) 0 0 0 none (hd ++ body)

/-! ### Rekeying (R401, R544) -/

/-- The packet number at which PN_WARN is set (R401). -/
def pnWarn : Nat := 0xF0000000

/-- REKEY: on PN_WARN, SAK_(n+1) is installed as the next AN for receive and the peer is told. -/
def rekey (p : Fin 4) (s : State) : State :=
  let q := s.port p.val
  match q.txSa, q.linkSession with
  | some sa, some i =>
    if sa.pn < pnWarn ∨ q.txNext.isSome then s
    else
      let x := s.session i.val
      let n := q.rekeyN + 1
      let an := (sa.an + 1) % 2
      let next : Sa := ⟨an, sakOf x.k n, 1⟩
      let s := s.modPort p.val (fun q => { q with txNext := some next, rekeyN := n,
                                                  rxSas := q.rxSas.filter (fun r => r.an ≠ an) ++ [next] })
      let m := beBytes 2 i.val ++ beBytes 2 x.gen.toNat ++ beBytes 1 an ++ beBytes 3 0 ++ beBytes 4 n
      let (s, hs) := s.drawNat 8
      s.sendMsg (.port p) x.mac x.ip x.udp 0x08 hs (m ++ tagOf x.k m)
  | _, _ => s

def execRekey (p : Fin 4) (s : State) : Host.Outcome State Fault Refusal := .next (rekey p s)

/-- REKEY_TX_SWITCH: transmit moves to the new AN. -/
def rekeyTxSwitch (p : Fin 4) (s : State) : State :=
  match (s.port p.val).txNext with
  | some sa =>
    (s.modPort p.val (fun q => { q with txSa := some sa, txNext := none })).setRn pgMacsec (0x110 + 4 * p.val) sa.an
  | none => s

def execRekeyTxSwitch (p : Fin 4) (s : State) : Host.Outcome State Fault Refusal := .next (rekeyTxSwitch p s)

end Sys2Proof.Machine
end

