-- ==== Sys2Proof/Machine/Keys.lean ====
section
/-! DEFINITION. Signed objects and what they change (R538, R539, R547, R550, R552, R558 to R560), attestation reports (R553,
R554), and the audit log's way to flash (R556, R557). -/

namespace Sys2Proof.Machine

/-- An address that a register gives in bits [27:0] as bits [39:12]. -/
def addr12 (v : Nat) : Nat := v % 2 ^ 28 * 4096

/-- SEC reads its own operand; poison is recorded (R471). -/
def State.secRead (s : State) (a n : Nat) : State × Option (List Byte) :=
  let (s, b, r) := s.readVia 22 a n
  if r = .ok then (s, some b) else (if r = .poisoned then s.dramUe pgSec (s.badLine 22 a n) else s, none)

/-- An extend of a measurement register (R552). -/
def State.extend (s : State) (m : Nat) (d : Digest) : State :=
  s.modSec (fun c => { c with meas := c.meas.set m (Config.sha3 (digestBytes (c.meas.getD m 0) ++ digestBytes d)) })

/-- The digest of the key store's content: the installer key hash and the 16 operator key hashes, zeros for empty slots
(R548 step 6). -/
def KeyStore.digest (k : KeyStore) : Digest :=
  let h (o : Option (List Byte)) : List Byte := match o with | some p => digestBytes (Config.sha3 p) | none => List.replicate 64 0
  Config.sha3 (h k.installer ++ (List.range 16).flatMap (fun i => h (mapGet? k.operators i)))

/-! ### Enrolment (R538, R539) -/

/-- Length of a record with its trailer. -/
def recordLen : Nat := 2640 + trailerLen

/-- The layout of R538 holds. -/
def enrolLayoutOk (b : List Byte) : Bool :=
  let kind := fld b 4 1
  fld b 0 4 == 0x31524E45 && 1 ≤ kind && kind ≤ 4 && fld b 6 2 == 0 && fld b 5 1 < 16 &&
    (fld b 5 1 == 0 || kind == 2 || kind == 3) && ((kind == 1 || kind == 2) || zeroIn b 48 2640)

/-- ENROL_STATUS of a record: signature, device, layout, sequence, in the order R538 names them. -/
def State.enrolStatus (s : State) (b : List Byte) : Nat :=
  let kind := fld b 4 1
  let trailer := b.drop 2640
  let pub := trailer.take pubLen
  let signer := if kind = 1 ∨ kind = 4 then s.makerKey pub else if kind = 2 ∨ kind = 3 then s.installerKey pub else true
  if !(trailerOk "WQ-ENROL" (b.take 2640) trailer && signer) then 1
  else if (b.drop 16).take 32 ≠ s.sec.deviceId then 2
  else if !enrolLayoutOk b then 4
  else if fld b 8 8 ≤ s.sec.keys.enrolSeq.toNat then 3
  else 0

/-- The key of a KIND and SLOT that a record replaces or revokes. -/
def KeyStore.replaced (k : KeyStore) (kind slot : Nat) : Option (List Byte) :=
  if kind = 1 ∨ kind = 4 then k.installer else mapGet? k.operators slot

/-- The key store after a record. -/
def KeyStore.after (k : KeyStore) (kind slot seq : Nat) (pub : List Byte) : KeyStore :=
  let k := { k with enrolSeq := BitVec.ofNat 64 seq }
  if kind = 1 then { k with installer := some pub }
  else if kind = 4 then { k with installer := none }
  else if kind = 2 then { k with operators := mapPut k.operators slot pub }
  else { k with operators := mapDel k.operators slot }

/-- Sessions and handshakes of a key that ends (R539, R543). -/
def State.revokeKey (s : State) (d : Digest) (slots : Nat → Bool) : State :=
  let s := s.closeWhere (fun x => x.isOpen && x.keyDigest == d && slots x.keySlot) 3
  s.modSec (fun c => { c with hands := c.hands.map (fun h =>
    if h.keyDigest == d && slots h.keySlot && h.status == 0 then { h with status := 5 } else h) })

/-- A write of ENROL. -/
def State.enrolWrite (s : State) (who : Requester) (v : Nat) : State :=
  let (s, r) := s.secRead (addr12 v) recordLen
  let code := match r with | some b => s.enrolStatus b | none => 1
  let s := s.setRn 0x012 0x104 (16 * code)
  match r with
  | some b =>
    if code ≠ 0 then s
    else
      let kind := fld b 4 1
      let slot := fld b 5 1
      let pub := (b.drop 48).take pubLen
      let old := s.sec.keys.replaced kind slot
      let s := s.modSec (fun c => { c with keys := c.keys.after kind slot (fld b 8 8) pub })
      let s := s.extend 4 s.sec.keys.digest
      let shown := if kind = 1 ∨ kind = 2 then some pub else old
      let s := s.audit 7 who 0 0xFFFF 0 (w32 kind) (w32 slot) (match shown with | some p => digestHead 24 (Config.sha3 p) | none => [])
      match old with
      | some p =>
        s.revokeKey (Config.sha3 p) (fun q => if kind = 1 ∨ kind = 4 then q == 0x10 else q == slot)
      | none => s
  | none => s

/-! ### Firmware (R547, R550) -/

/-- The fused counter of an image type (R548). -/
def Fuses.svn (f : Fuses) : Nat → Nat
  | 1 => f.svnStage1.toNat | 2 => f.svnApu.toNat | 3 => f.svnTc.toNat | _ => 0

/-- The length field of a firmware image gives room for header and trailer within a set. -/
def fwLenOk (n : Nat) : Bool := 256 + trailerLen ≤ n && n ≤ 8388608

/-- FW_STATUS of an image: signature, SVN, layout (R547, R548). -/
def State.fwStatus (s : State) (b : List Byte) : Nat :=
  let ty := fld b 4 1
  let n := fld b 8 4
  let pub := (b.drop (n - trailerLen)).take pubLen
  if fld b 0 4 ≠ 0x31574657 ∨ !fwLenOk n ∨ ty < 1 ∨ 4 < ty then 3
  else if !(trailerOk "WQ-FW" (b.take (n - trailerLen)) (b.drop (n - trailerLen)) &&
      (s.makerKey pub || (ty == 4 && s.installerKey pub)) && Config.sha3 pub == BitVec.ofNat 512 (fld b 32 64)) then 1
  else if (ty ≠ 4 ∧ fld b 5 1 < s.fuse.svn ty) ∨ (ty = 4 ∧ fld b 12 4 < s.sec.keys.configSeq.toNat) then 2
  else if 64 < fld b 5 1 ∨ 1 < fld b 6 1 ∨ fld b 7 1 ≠ 0 ∨ (ty ≠ 4 ∧ fld b 12 4 ≠ 0) ∨ !zeroIn b 96 256 then 3
  else 0

/-- The set stage 1 was booted from. -/
def State.bootSet (s : State) : Nat := s.rn pgSec 0x100 % 2

/-- A write of FW_INSTALL. Whether the flash takes the image is free. -/
def State.fwWrite (s : State) (who : Requester) (v : Nat) : State :=
  let a := addr12 v
  let (s, hd) := s.secRead a 256
  let n := match hd with | some b => fld b 8 4 | none => 0
  let (s, r) := if fwLenOk n then s.secRead a n else (s, hd)
  let code := match r with | some b => s.fwStatus b | none => 1
  let bad := Config.freeBool s.free
  let s := if code = 0 then { s with free := s.free + 1 } else s
  let code := if code = 0 ∧ bad then 4 else code
  let s := (s.setRn pgSec 0x10C (2 + 16 * code)).raise pgSec 0
  match r with
  | some b =>
    if code ≠ 0 then s
    else
      let ty := fld b 4 1
      let other := 1 - s.bootSet
      let s := s.modSec (fun c => { c with flashFw := mapPut c.flashFw (4 * other + ty - 1) b, trySet := some other })
      s.audit 9 who 0 0xFFFF 0 (w32 ty) (w32 (fld b 5 1)) (digestHead 24 (Config.sha3 b))
  | none => s

/-! ### Measurements and fuses (R552, R563) -/

/-- A write of MEAS_EXTEND. -/
def State.measWrite (s : State) (v : Nat) : State :=
  match s.secRead (addr12 v) 64 with
  | (s, some b) => s.extend 7 (BitVec.ofNat 512 (leNat b))
  | (s, none) => s

/-- A valid, unrevoked maker key would be left. -/
def Fuses.someKey (f : Fuses) : Bool := (f.rootValid && !f.rootRevoked) || (f.oemValid && !f.oemRevoked)

/-- A write of FUSE_PROG. -/
def State.fuseWrite (s : State) (who : Requester) (v : Nat) : State :=
  let op := v % 16
  let arg := v / 16
  let logged (s : State) : State := (s.audit 10 who 0 0xFFFF 0 (w32 op) (w32 arg)).ok
  if op = 1 then
    match s.secRead (addr12 arg) 64 with
    | (s, some b) =>
      let f := { s.fuse with oemHash := BitVec.ofNat 512 (leNat b), oemValid := true }
      if !f.someKey then s.deny 0x013 0x128 who (w32 v)
      else
        let old := s.fuse.oemHash
        let s := { s with fuse := f }
        logged (if f.oemHash = old then s else s.revokeKey old (fun q => q == 0x21))
    | (s, none) => s.ok
  else if op = 2 ∨ op = 3 then
    let f := if op = 2 then { s.fuse with rootRevoked := true } else { s.fuse with oemRevoked := true }
    if !f.someKey then s.deny 0x013 0x128 who (w32 v)
    else
      let s := { s with fuse := f }
      logged (if op = 2 then s.revokeKey f.rootHash (fun q => q == 0x20) else s.revokeKey f.oemHash (fun q => q == 0x21))
  else s.ok

/-! ### Debug unlock (R558 to R560) -/

/-- A fresh DBG_NONCE. -/
def State.freshNonce (s : State) : State :=
  let (s, b) := s.drawBytes 32
  let s := s.modSec (fun c => { c with nonceCount := c.nonceCount + 1 })
  (List.range 8).foldl (fun s i => s.setRn pgSec (0x110 + 4 * i) (fld b (4 * i) 4)) s

def State.dbgNonce (s : State) : List Byte := (List.range 8).flatMap (fun i => leBytes 4 (s.rn pgSec (0x110 + 4 * i)))

/-- The result of a token: signature, device, nonce. A wrong MAGIC or an unknown scope counts as a failed signature. -/
def State.tokenStatus (s : State) (b : List Byte) : Nat :=
  let trailer := b.drop 72
  if !(trailerOk "WQ-DEBUG" (b.take 72) trailer && s.makerKey (trailer.take pubLen)) ∨ fld b 0 4 ≠ 0x31474244 ∨ 15 < fld b 4 4 then 1
  else if (b.drop 8).take 32 ≠ s.sec.deviceId then 2
  else if (b.drop 40).take 32 ≠ s.dbgNonce then 3
  else 0

/-- A token is presented. -/
def State.presentToken (s : State) (who : Requester) (r : Option (List Byte)) : State :=
  let code := match r with | some b => s.tokenStatus b | none => 1
  match r with
  | some b =>
    if code ≠ 0 then s.setRn pgSec 0x134 (s.sec.dbgScopes.toNat + 16 * code)
    else
      let scope := fld b 4 4
      let s := if bit scope 3 then
          (s.closeWhere (fun x => x.isOpen) 6).modSec (fun c => { c with deviceKeyOk := false, secDebugSince := true })
        else s
      let d := Config.sha3 b
      let s := s.extend 6 d
      let s := s.audit 11 who 0 0xFFFF 0 (w32 scope) 0 (digestHead 24 d)
      let s := s.modSec (fun c => { c with dbgScopes := c.dbgScopes ||| BitVec.ofNat 4 scope })
      (s.setRn pgSec 0x134 s.sec.dbgScopes.toNat).freshNonce
  | none => s.setRn pgSec 0x134 (s.sec.dbgScopes.toNat + 16 * code)

/-- A write of DBG_TOKEN. -/
def State.tokenWrite (s : State) (who : Requester) (v : Nat) : State :=
  let (s, r) := s.secRead (addr12 v) (72 + trailerLen)
  s.presentToken who r

/-- A JTAG instruction is accepted, or its scope is locked. DBG_TOKEN needs none, or no token could be presented. -/
def State.jtagOpen (s : State) : JtagInstr → Bool
  | .idcode => true | .bypass => true | .samplePreload => true | .dbgToken => true
  | .extest => s.sec.dbgScopes.getLsbD 0
  | .apuDebug => s.sec.dbgScopes.getLsbD 1
  | .tensorScan => s.sec.dbgScopes.getLsbD 2
  | .secDebug => s.sec.dbgScopes.getLsbD 3

/-- JTAG_INSTRUCTION. -/
def jtagInstruction (i : JtagInstr) (s : State) : State :=
  s.modSec (fun c => { c with jtag := if s.jtagOpen i then i else .bypass })

def execJtagInstruction (i : JtagInstr) (s : State) : Host.Outcome State Fault Refusal := .next (jtagInstruction i s)

/-! ### Attestation (R553, R554) -/

/-- SYS.GRADE (R5). -/
def Fuses.gradeWord (f : Fuses) : Nat :=
  f.grade.code + 256 * b2n f.tempX + 2 * 65536

/-- A slot of the report. -/
def slotEntry (i : Nat) (p : PSlot) : List Byte :=
  leBytes 1 i ++ leBytes 7 0 ++ leBytes 8 p.imageId.toNat ++ digestBytes p.digest

/-- The report for a nonce. -/
def State.report (s : State) (nonce : List Byte) : List Byte :=
  let c := s.sec
  let slots := s.slots.toList.zipIdx.filter (fun p => p.1.loaded)
  let flags := b2n (c.dbgScopes != 0) + 2 * b2n c.secDebugSince + 4 * b2n c.auditFail + 8 * b2n (bit (s.rn pgSec 0x100) 4)
  let first := leBytes 4 0x31545441 ++ leBytes 2 1 ++ leBytes 2 flags ++ leBytes 4 s.fuse.gradeWord ++ leBytes 4 0 ++
    fitBytes 32 c.deviceId ++ fitBytes 32 nonce
  first ++ leBytes 6 s.ptpSec ++ leBytes 4 s.ptpNs ++ leBytes 2 slots.length ++ leBytes 1 s.fuse.svnStage1.toNat ++
    leBytes 1 s.fuse.svnApu.toNat ++ leBytes 1 s.fuse.svnTc.toNat ++ leBytes 1 0 ++ leBytes 8 (c.auditSeq.toNat - 1) ++
    digestBytes c.chain ++ c.meas.flatMap digestBytes ++ slots.flatMap (fun p => slotEntry p.2 p.1)

/-- The trailer the device key signs; zeros while SEC debug is unlocked. -/
def State.deviceTrailer (s : State) (ctx : String) (body : List Byte) : State × List Byte :=
  if s.sec.deviceKeyOk then
    let pub := fitBytes pubLen (Config.devicePublicKey s.fuse.dus)
    let (s, sig) := s.deviceSig ctx (Config.sha3 (body ++ pub))
    (s, pub ++ sig)
  else (s, List.replicate trailerLen 0)

/-- ATTEST_REQ: a request on an open session. -/
def attestReq (o : HsOrigin) (s : State) : State :=
  match s.takeMsg o 0x06 with
  | none => s
  | some (m, s) =>
    match s.tagged m 40 with
    | some _ =>
      if 1 < beFld m.body 4 1 ∨ beFld m.body 5 3 ≠ 0 then s
      else
        s.modSec (fun c => { c with att := c.att ++
          [⟨some o, m.hsId, (m.body.drop 8).take 32, bit (beFld m.body 4 1) 0, 0, m.mac, m.ip, m.udp⟩] })
    | none => s

def execAttestReq (origin : HsOrigin) (s : State) : Host.Outcome State Fault Refusal := .next (attestReq origin s)

/-- A write of ATT_REQ: the buffer's first 32 bytes hold the nonce. -/
def State.attWrite (s : State) (v : Nat) : State :=
  match s.secRead (addr12 v) 32 with
  | (s, some b) =>
    (s.modSec (fun c => { c with att := c.att ++ [⟨none, 0, b, false, addr12 v, 0, 0, 0⟩] })).setRn 0x015 0x104 0
  | (s, none) => s

/-- ATTEST_RSP: reports are signed one at a time, in order of request, and returned whole. -/
def attestRsp (s : State) : State :=
  match s.sec.att with
  | [] => s
  | r :: rest =>
    let s := s.modSec (fun c => { c with att := rest })
    let body := s.report r.nonce
    let (s, tr) := s.deviceTrailer "WQ-ATTEST" body
    let m := body ++ tr
    match r.origin with
    | some o => s.sendMsg o r.mac r.ip r.udp 0x07 r.hsId.toNat (m ++ (if r.cert then Config.deviceCert s.fuse.dus else []))
    | none => (s.writeVia 22 r.buffer m).setRn 0x015 0x104 (2 + 65536 * m.length)

def execAttestRsp (s : State) : Host.Outcome State Fault Refusal := .next (attestRsp s)

/-! ### The audit log's way to flash (R556, R557) -/

/-- AUDIT_FLASH_PROGRAM. -/
def auditFlashProgram (ok : Bool) (s : State) : State :=
  match s.sec.staged with
  | [] => s
  | e :: rest =>
    if !ok then
      ((s.modSec (fun c => { c with auditFail := true })).setRn pgAudit 0x10C 1).raise pgAudit 0
    else
      let s := s.modSec (fun c => { c with staged := rest, flash := lastN 65536 (c.flash ++ [e]) })
      if e.seq.toNat % 256 = 255 then
        let body := leBytes 8 e.seq.toNat ++ digestBytes e.chain ++ fitBytes 32 s.sec.deviceId
        let (s, tr) := s.deviceTrailer "WQ-AUDIT" body
        s.modSec (fun c => { c with checkpoints := mapPut c.checkpoints (e.seq.toNat / 256 % 256) (body ++ tr) })
      else s

def execAuditFlashProgram (ok : Bool) (s : State) : Host.Outcome State Fault Refusal := .next (auditFlashProgram ok s)

end Sys2Proof.Machine
end

