-- ==== Sys2Proof/Machine/Reset.lean ====
section
/-! DEFINITION. Resets, straps and boot (R521, R524, R535, R548, R549, R572 to R580), standby entry and exit (R526, R527).
A reset returns every page and unit to its reset state; what the manual has the boot ROM and stage 1 do is done at once
where its values are stated (R548), and the register values of the signed configuration come as register writes. -/

namespace Sys2Proof.Machine

/-! ### RESET_CAUSE (R574) -/

/-- A new cause; COUNT saturates. -/
def causeWord (old code idx : Nat) : Nat := code + 256 * idx + 2 ^ 24 * min 255 (bits old 31 24 + 1)

/-- PORESET_N keeps CODE and INDEX and sets PIN_POR. -/
def causePor (old : Nat) : Nat := bits old 15 0 + 65536 + 2 ^ 24 * min 255 (bits old 31 24 + 1)

/-! ### What a reset keeps (R492, R536, R546, R555) -/

/-- SEC after a reset: flash, the entries staged for it and the straps stay. -/
def Sec.afterReset (c : Sec) : Sec :=
  { Sec.reset with
    keys := c.keys
    straps := c.straps
    staged := c.staged
    flash := c.flash
    checkpoints := c.checkpoints
    auditSeq := c.auditSeq
    chain := c.chain
    flashFw := c.flashFw
    trySet := c.trySet
    flashHealth := c.flashHealth
    nonceCount := c.nonceCount }

/-- The device in reset with a RESET_CAUSE. -/
def State.reset1 (s : State) (cause : Nat) : State :=
  let base := { State.reset with pending := s.pending, rsp := s.rsp, free := s.free, fuse := s.fuse,
                                 sec := s.sec.afterReset, regs := [] }
  (base.setRn pgSys 0x104 cause).setRn pgSys 0x108 s.sec.straps.toNat

/-- CODE of RESET_CAUSE is one of the C3 faults. -/
def isC3 (code : Nat) : Bool := code == 0x0B || code == 0x0C || code == 0x0D

/-! ### Boot (R548, R549, R573) -/

/-- The image of a component in a set. -/
def State.fwImage (s : State) (set ty : Nat) : Option (List Byte) := mapGet? s.sec.flashFw (4 * set + ty - 1)

/-- The component of a set may be booted. An image that no FW_INSTALL wrote is the factory's (DESIGN CHOICE: valid). -/
def State.fwOk (s : State) (set ty : Nat) : Bool :=
  match s.fwImage set ty with
  | some b => s.fwStatus b == 0 && fld b 4 1 == ty
  | none => true

/-- Its digest; that of a factory image is free. -/
def State.fwDigest (s : State) (set ty : Nat) : State × Digest :=
  match s.fwImage set ty with
  | some b => (s, Config.sha3 b)
  | none => ({ s with free := s.free + 1 }, BitVec.ofNat 512 (Config.freeNat s.free))

/-- The fused counter of a type is raised. -/
def Fuses.raise (f : Fuses) (ty svn : Nat) : Fuses :=
  if ty = 1 then { f with svnStage1 := BitVec.ofNat 8 svn }
  else if ty = 2 then { f with svnApu := BitVec.ofNat 8 svn }
  else if ty = 3 then { f with svnTc := BitVec.ofNat 8 svn }
  else f

/-- An entry of the SEC core. -/
def State.auditSec (s : State) (event : Nat) (value aux : Word) (detail : List Byte) : State :=
  s.auditAs event 2 0xFFFF 0 0xFF 0 0xFFFF 0 value aux detail

/-- A booted component: its measurement is extended, and its counter raised under ADVANCE. -/
def State.bootPart (s : State) (set ty m : Nat) : State :=
  let (s, d) := s.fwDigest set ty
  let s := s.extend m d
  match s.fwImage set ty with
  | some b =>
    let svn := fld b 5 1
    let s := if ty = 4 then s.modSec (fun c => { c with keys := { c.keys with configSeq := w32 (fld b 12 4) } }) else s
    if ty ≠ 4 ∧ bit (fld b 6 1) 0 ∧ s.fuse.svn ty < svn then
      State.auditSec { s with fuse := s.fuse.raise ty svn } 13 (w32 ty) (w32 svn) []
    else s
  | none => s

/-- The set a component is taken from: the preferred one, else the other; none where both fail. -/
def State.bootFrom (s : State) (first ty : Nat) : Option Nat :=
  if s.fwOk first ty then some first else if s.fwOk (1 - first) ty then some (1 - first) else none

/-- Every segment with every controller of the grade. -/
def State.allSegs (s : State) : List Nat :=
  (List.range s.fuse.grade.controllers).flatMap (fun m => (List.range s.fuse.grade.segments).map (segKey m))

/-- TSHARE_RD and TSHARE_WR of the default plan, MB/s (R597). -/
def State.defaultShares (s : State) : Nat × Nat := if s.fuse.grade = .wq7064 then (51200, 25600) else (102400, 51200)

/-- R576: stage 1 commits the delay codes of the band each controller shows and the QoS plan, whose shares no other rule
gives than the default ones (DEDUCED, log 57), and fills the segments; R578: it enables the cluster regulators. -/
def State.stage1 (s : State) : State :=
  let ms := List.range s.fuse.grade.controllers
  let (rd, wr) := s.defaultShares
  let s := ms.foldl (fun s m => s.bandLoaded m (bits (s.rn (pgMc m) 0x100) 9 8)) s
  let s := ms.foldl (fun s m =>
    (List.range 8).foldl (fun s c => (s.setRn (pgMc m) (0x110 + 4 * c) rd).setRn (pgMc m) (0x130 + 4 * c) wr) s) s
  { s with segInit := s.allSegs, power := { s.power with tcOn := true } }

/-- The reset record of a C3 fault, with TIME 0 (R483, R486). -/
def State.resetRecord (s : State) : State :=
  let c := s.rn pgSys 0x104
  let code := bits c 7 0
  let idx := bits c 15 8
  if isC3 code then
    s.putRecord (recordBytes code 3 (if code = 0x0B ∧ (idx = 10 ∨ idx = 11) then 7 else 6) 0 0 0 0 0xFFFF 0 0 s.faultSeq.toNat)
  else s

/-- Health states come back from flash (R492). -/
def State.restoreHealth (s : State) : State :=
  s.sec.flashHealth.zipIdx.foldl (fun s p => s.setHealth p.2 { s.healthOf p.2 with st := p.1 }) s

/-- Steps 7 and 8: HEALTH, reset record, BOOT entry, and the release of the APU unless a component failed. -/
def State.bootEnd (s : State) (release : Bool) : State :=
  let s := (s.restoreHealth).resetRecord
  let s := s.auditSec 12 (s.reg pgSec 0x100) 0 (digestHead 24 (s.sec.meas.getD 0 0))
  let s := if release then s else s.setRn (pgPort 0) 8 1
  s.modSec (fun c => { c with apuReleased := release, bootDone := false })

/-- Boot from the boot ROM on. -/
def State.boot (s : State) : State :=
  let straps := s.sec.straps.toNat
  if bit straps 3 then s
  else
    let s := { s with power := { s.power with chipReset := false } }
    let id := digestHead 32 (Config.sha3 (fitBytes pubLen (Config.devicePublicKey s.fuse.dus)))
    let s := (s.modSec (fun c => { c with deviceId := id })).freshNonce
    if bit straps 1 then s.setRn pgSec 0x100 0x0100
    else
      let first := s.sec.trySet.getD (b2n (bit straps 2))
      match s.bootFrom first 1 with
      | none =>
        let (s, e) := s.drawNat 8
        s.setRn pgSec 0x100 (256 * max 1 e)
      | some b =>
        let s := s.bootPart b 1 0
        let s := State.stage1 { s with dram := [], tags := [], poison := [] }
        let cfg := s.bootFrom b 4
        let apu := s.bootFrom b 2
        let tc := s.bootFrom b 3
        let part (s : State) (o : Option Nat) (ty m : Nat) : State := match o with | some x => s.bootPart x ty m | none => s
        let s := part (part (part s cfg 4 3) apu 2 1) tc 3 2
        let s := s.extend 4 s.sec.keys.digest
        let other (o : Option Nat) : Nat := b2n (o == some (1 - b))
        let ok := cfg.isSome && apu.isSome && tc.isSome
        let s := s.setRn pgSec 0x100 (b + 2 * other apu + 4 * other tc + 8 * other cfg + 16 * b2n (!ok))
        s.bootEnd ok

/-! ### Resets (R572) -/

/-- COLD_RESET: the power-on detector; RESET_CAUSE is cleared, and PORESET_N is low. -/
def coldReset (s : State) : State := s.reset1 0x20

def execColdReset (s : State) : Host.Outcome State Fault Refusal := .next (coldReset s)

/-- PORESET_ASSERT: the cause code stays, PIN_POR is set, and THERMTRIP_N is released (R524). -/
def poresetAssert (s : State) : State := s.reset1 (causePor (s.rn pgSys 0x104))

def execPoresetAssert (s : State) : Host.Outcome State Fault Refusal := .next (poresetAssert s)

/-- Straps are sampled. -/
def State.sampleStraps (s : State) (x : BitVec 4) : State :=
  (s.modSec (fun c => { c with straps := x })).setRn pgSys 0x108 x.toNat

/-- PORESET_RELEASE: the boot flow starts. -/
def poresetRelease (x : BitVec 4) (s : State) : State :=
  if s.power.chipReset && !s.power.thermtrip then (s.sampleStraps x).boot else s

def execPoresetRelease (straps : BitVec 4) (s : State) : Host.Outcome State Fault Refusal := .next (poresetRelease straps s)

/-- SYSRESET: nothing while PORESET_N is low or a thermal trip holds the device. -/
def sysreset (x : BitVec 4) (s : State) : State :=
  if s.power.chipReset then s
  else ((s.reset1 (causeWord (s.rn pgSys 0x104) 0x22 0)).sampleStraps x).boot

def execSysreset (straps : BitVec 4) (s : State) : Host.Outcome State Fault Refusal := .next (sysreset straps s)

/-- An internal C3 reset; a thermal trip holds the device with THERMTRIP_N low. -/
def State.c3 (s : State) (code idx : Nat) : State :=
  if s.power.chipReset then s
  else
    let s := s.reset1 (causeWord (s.rn pgSys 0x104) code idx)
    if code = 0x0C then { s with power := { s.power with thermtrip := true } } else s.boot

/-- INTERNAL_RESET. -/
def internalReset (code idx : Byte) (s : State) : State := if isC3 code.toNat then s.c3 code.toNat idx.toNat else s

def execInternalReset (code : Byte) (index : Byte) (s : State) : Host.Outcome State Fault Refusal :=
  .next (internalReset code index s)

/-- SAG_RESET (R521). -/
def execSagReset (rail : Fin 16) (s : State) : Host.Outcome State Fault Refusal := .next (s.c3 0x0B rail.val)

/-- THERMAL_TRIP (R524): two consecutive samples of the sensor read 115 °C or more. -/
def thermalTrip (i : Fin 48) (s : State) : State := if s.power.twice.contains i.val then s.c3 0x0C i.val else s

def execThermalTrip (sensor : Fin 48) (s : State) : Host.Outcome State Fault Refusal := .next (thermalTrip sensor s)

/-- A write of SYS.DEVICE_RESET (R572, R574). -/
def State.deviceResetWrite (s : State) (who : Requester) (v : Nat) : State :=
  if v = 0xD5 then (s.reset1 (causeWord (s.rn pgSys 0x104) 0x24 0)).boot
  else (s.errAcc pgSys 0x84 who true 0x110).discard

/-! ### Standby (R526, R527, R580) -/

/-- Pages whose unit stays powered in standby: PCH, SEC, port P0 with MACsec, and the memory controllers. -/
def staysPowered (page : Nat) : Bool :=
  (1 ≤ page && page ≤ 6) || (0x10 ≤ page && page ≤ 0x15) || page == 0x31 || page == 0x35 || (0x80 ≤ page && page < 0x88)

/-- Segments PASR_KEEP holds (R388). -/
def State.keptSegs (s : State) : List Nat := bitList 64 (s.rn (pgMc 0) 0x170 + 2 ^ 32 * s.rn (pgMc 0) 0x174)

/-- Sessions whose port or hart is power-gated close (R543). -/
def State.gateSessions (s : State) : State := s.closeWhere (fun x => x.isOpen && x.port != some 0) 7

/-- The reel keeps what a RESUME needs (R424); its ring is dropped. -/
def Reel.gated (r : Reel) : Reel :=
  { Reel.reset with lastSession := r.lastSession, cmdSeq := r.cmdSeq, cmplSeq := r.cmplSeq }

/-- Standby entry. -/
def State.enterStandby (s : State) : State :=
  let s := (List.range 142).foldl (fun s u =>
    if (s.healthOf u).running then (if u < 128 then s.dropDaily u else s.setHealth u { s.healthOf u with running := false }) else s) s
  let s := (List.range 32).foldl (fun s n =>
    if s.reelOn n then (s.disableReel n (s.reelLog n)).setRn pgReels (0x104 + 16 * n) (s.rn pgReels (0x104 + 16 * n) % 128) else s) s
  let s := s.gateSessions
  let keep := s.keptSegs
  { s with
    slots := State.reset.slots
    cores := State.reset.cores
    clusters := State.reset.clusters
    pins := State.reset.pins
    ppsHigh := false
    selfRefresh := true
    segInit := s.segInit.filter (fun k => keep.contains (k % 64))
    fills := []
    regs := (dropPage s.regs pgPin (fun _ => false)).filter (fun p => p.1 / 4096 < 0x100)
    power := { s.power with standby := true, standbyAt := s.uptime, tcOn := false }
    sec := { s.sec with apuReleased := false } }

/-- A write of STBY_CTL (R526). -/
def State.standbyWrite (s : State) (who : Requester) (v : Nat) : State :=
  if v ≠ 0x5B then s
  else if s.jobs ≠ [] then (s.errAcc pgGaffer 0x89 who true 0x130).discard
  else s.enterStandby

/-- The firmware read again is what the last boot measured (R580). -/
def State.fwMeasured (s : State) (ty m : Nat) : Bool :=
  let b := s.rn pgSec 0x100
  let set := if bit b (ty - 1) then 1 - b % 2 else b % 2
  match s.fwImage set ty with
  | some img => Config.sha3 (List.replicate 64 0 ++ digestBytes (Config.sha3 img)) == s.sec.meas.getD m 0
  | none => true

/-- Standby exit: pages that were power-gated return to their reset values, kept segments survive, and stage 1 resumes. -/
def State.wake (s : State) : State :=
  if !s.power.standby then s
  else
    let fresh := { State.reset with regs := [] }
    let cause := causeWord (s.rn pgSys 0x104) 0x23 0
    let kept (m : SMap Word) : SMap Word := m.filter (fun p => staysPowered (p.1 / 4096))
    let p0 := s.port 0
    let s := { fresh with
      pending := s.pending
      rsp := s.rsp
      free := s.free
      fuse := s.fuse
      regs := kept s.regs
      staged := kept s.staged
      winTab := s.winTab.filter (fun p => p.1 / 2 ^ 32 = pgGaffer)
      winGen := s.winGen.filter (fun p => p.1 / 2 ^ 32 = pgGaffer)
      dram := s.dram.filter (fun p => s.segKept p.1 || p.1 < dramBase)
      tags := s.tags.filter (fun p => s.segKept (1024 * p.1) || 1024 * p.1 < dramBase)
      poison := s.poison.filter (fun l => s.segKept l || l < dramBase)
      cellErr := s.cellErr.filter (fun p => s.segKept p.1 || p.1 < dramBase)
      dly := s.dly
      dlyBand := s.dlyBand
      secRam := s.secRam
      refreshBank := s.refreshBank
      refreshRow := s.refreshRow
      bandInForce := s.bandInForce
      ceLast := s.ceLast
      reels := s.reels.map Reel.gated
      uptime := s.uptime
      ports := fresh.ports.setIfInBounds 0 { p0 with staging := [], cmdBuf := [], egress := [] }
      health := s.health
      sec := s.sec
      power := { s.power with standby := false } }
    let s := ((s.setRn pgSys 0x104 cause).setRn pgSys 0x108 s.sec.straps.toNat).stage1
    let ok := s.fwMeasured 2 1 && s.fwMeasured 3 2
    let s := if ok then s else s.setRn pgSec 0x100 (s.rn pgSec 0x100 ||| 16)
    s.bootEnd ok

/-- WAKE_FRAME. -/
def wakeFrame (f : Frame) (s : State) : State :=
  if !bit (s.rn pgGaffer 0x134) 0 then s
  else
    match f.payload with
    | .reel h _ => if (s.boundTo 0 (s.received 0 f) h).isSome then s.wake else s
    | _ => s

def execWakeFrame (f : Frame) (s : State) : Host.Outcome State Fault Refusal := .next (wakeFrame f s)

/-- WAKE_TIMER: WAKE_TIMER_S after entry. -/
def wakeTimer (s : State) : State :=
  if s.power.standby && bit (s.rn pgGaffer 0x134) 1 then
    State.wake { s with uptime := max s.uptime (s.power.standbyAt + 256000000000 * s.rn pgGaffer 0x138) }
  else s

def execWakeTimer (s : State) : Host.Outcome State Fault Refusal := .next (wakeTimer s)

/-! ### The end of the boot role (R535, R575) -/

/-- A write of BOOT_DONE. -/
def State.bootDoneWrite (s : State) (v : Nat) : State :=
  if v = 0xB0 then s.modSec (fun c => { c with bootDone := true }) else s

/-- A write of BOOT_CTL: only 1 sets DRAM_OPEN. -/
def State.bootCtlWrite (s : State) (v : Nat) : State := if bit v 0 then s.setRn pgSys 0x400 1 else s

end Sys2Proof.Machine
end

