-- ==== Sys2Proof/Machine/Cues.lean ====
section
/-! DEFINITION. The firing of cue slots (R338 to R348) and remote captures (R347, R429, R430). -/

namespace Sys2Proof.Machine

/-! ### Remote captures -/

/-- The CAPTURE body (R430) of a firing at moment T, in 1/256 ns since PTP 0. -/
def captureBody (t slot flow : Nat) : List Byte :=
  beBytes 6 (t / 256 / 1000000000) ++ beBytes 4 (t / 256 % 1000000000) ++ beBytes 1 (t % 256) ++ beBytes 1 slot ++
    beBytes 2 flow ++ beBytes 2 0

/-- One CAPTURE frame for a flow (R429). -/
def State.sendCapture (s : State) (t slot flow : Nat) : State :=
  if s.flowType flow = 0 ∨ s.flowNat flow 88 2 = 0 then s.netCount 0x130
  else
    let id := (s.flowNat flow 112 4 + 1) % 2 ^ 32
    let b1 := s.flowNat flow 1 1
    let body := captureBody t slot flow
    let s := s.setWin pgFlows 128 flow [(112, 4, id)]
    let s := s.sendReel (b1 % 4) (mkHdr 0x20 0xFFFF 0 0xFFFF 0 id 0 body.length) body
      (if bit b1 6 then none else some (s.flowNat flow 2 2 % 4096)) (BitVec.ofNat 48 (s.flowNat flow 66 6))
      (BitVec.ofNat 128 (s.flowNat flow 72 16)) (BitVec.ofNat 16 (s.flowNat flow 88 2))
    s.incReg pgNet 0x134

/-- REMOTE_LATE: counted once for a firing. -/
def State.remoteLate (s : State) (slot : Nat) : State :=
  ((s.incReg pgCue 0x11C).raise pgCue 3).setCue slot { s.cue slot with remoteSent := true }

/-- A_REMOTE of a slot's CUE_CTL. -/
def State.cueRemote (s : State) (slot : Nat) : Bool := bit (s.cueReg slot 0) 10

/-- FLOW of a slot's CUE_ACT. -/
def State.cueFlow (s : State) (slot : Nat) : Nat := bits (s.cueReg slot 0x10) 16 6

/-- REMOTE_CAPTURE_SEND (R347): REMOTE_ADVANCE µs before T, or at once when that moment has passed. -/
def remoteCaptureSend (slot : Fin 64) (s : State) : State :=
  let n := slot.val
  let c := s.cue n
  match c.fireAt with
  | none => s
  | some f =>
    if !s.cueRemote n || c.remoteSent || !s.cueArmed n then s
    else
      let s := advanceTo (32 * f - 256000 * (s.rn pgCue 0x110 : Nat)) s
      if 32 * f ≤ (s.time : Int) then s.remoteLate n
      else (s.sendCapture (32 * f).toNat n (s.cueFlow n)).setCue n { c with remoteSent := true }

def execRemoteCaptureSend (slot : Fin 64) (s : State) : Host.Outcome State Fault Refusal := .next (remoteCaptureSend slot s)

/-! ### Firing -/

/-- The pin action (R339, R340). -/
def State.cuePinAction (s : State) (n : Nat) (f : Int) : State :=
  let act := s.cueReg n 0x10
  s.pinEvent n (bits act 3 0) (bits act 5 4) f (bits act 30 17 * (if bit act 31 then 8000 else 8) : Nat)

/-- The interrupt action. -/
def State.cuePend (s : State) (n : Nat) : State :=
  let o := if n < 32 then 0x100 else 0x104
  (s.setReg pgCue o (s.reg pgCue o ||| w32 (2 ^ (n % 32)))).raise pgCue 0

/-- The capture action: firing time and interpolated phase of AXIS. -/
def State.cueCapture (s : State) (n : Nat) (f : Int) (late : Bool) : State :=
  let ax := s.cueAxis n
  s.pushEvt (s.mkEvt n (32 * f) ax (s.axis ax).velValid false late (s.interp ax (32 * f)))

/-- Applies a function when a bit of CUE_CTL is set. -/
def whenBit (ctl b : Nat) (f : State → State) (s : State) : State := if bit ctl b then f s else s

/-- The actions of a firing at 125 ps step `f`, with the values in force. -/
def State.cueActions (s : State) (n : Nat) (f : Int) (late : Bool) : State :=
  let ctl := s.cueReg n 0
  let s := whenBit ctl 9 (fun s => s.cuePinAction n f) s
  let s := whenBit ctl 10 (fun s => if (s.cue n).remoteSent then s else s.remoteLate n) s
  let s := whenBit ctl 11 (fun s => s.dispatch n) s
  let s := whenBit ctl 12 (fun s => s.cuePend n) s
  whenBit ctl 13 (fun s => s.cueCapture n f late) s

/-- CUE_FIRED_T and CUE_STAT of a firing; a late one counts. -/
def State.cueFired (s : State) (n : Nat) (f : Int) (late : Bool) : State :=
  let t := wrapTo 40 (32 * f)
  let fires := (bits (s.cueReg n 0x1C) 15 8 + 1) % 256
  let s := s.setRn pgCue (cueOff n 0x18) (t / 256)
  let s := s.setRn pgCue (cueOff n 0x1C) (8 * b2n late + 256 * fires + 2 ^ 24 * (t % 256))
  if late then (s.incReg pgCue 0x114).raise pgCue 1 else s

/-- Puts registers of a slot into force. -/
def State.putCue (s : State) (n : Nat) (r : SMap Word) : State :=
  r.foldl (fun s p => s.setReg pgCue (cueOff n p.1) p.2) s

/-- TARGET + PERIOD (R338, R339). -/
def State.cueAdvance (s : State) (n : Nat) : State :=
  if s.cueKind n = 1 then
    let t := (s.cueReg n 4 * 256 + s.cueReg n 8 % 256 + 256 * s.cueReg n 0x14) % 2 ^ 40
    (s.setRn pgCue (cueOff n 4) (t / 256)).setRn pgCue (cueOff n 8) (s.cueReg n 8 / 256 * 256 + t % 256)
  else
    let (s, t) := s.fitS 64 (s.axReduce (s.cueAxis n) (s.cueTarget n + sext 32 (s.cueReg n 0x14)))
    (s.setRn pgCue (cueOff n 4) (wrapTo 32 t)).setRn pgCue (cueOff n 8) (wrapTo 64 t / 2 ^ 32)

/-- The slot's ARM clears. -/
def State.cueClearArm (s : State) (n : Nat) : State := s.setRn pgCue (cueOff n 0) (s.cueReg n 0 / 2 * 2)

/-- What a firing does to the registers: a repeat, or ARM clears (R339); then the values committed after the hand-off apply,
as the repeat target or as a new arm (R348). -/
def State.cueTurn (s : State) (n : Nat) : State :=
  (if !bit (s.cueReg n 0) 8 then s.cueClearArm n else if s.cueKind n = 2 then s else s.cueAdvance n).putCue n (s.cue n).later

/-- What follows a firing. A commit of CUE_CTL that waited arms the slot anew; a slot that repeats computes its next firing,
or takes the next of a reactive slot's. -/
def State.cueAfter (s : State) (n : Nat) : State :=
  let c := s.cue n
  let idle := { c with fireAt := none, late := false, handed := false, waiting := false, remoteSent := false, later := [] }
  let s := s.cueTurn n
  if (mapGet? c.later 0).isSome then (s.setCue n { idle with more := [] }).armCue n
  else if !s.cueArmed n then s.setCue n { idle with more := [] }
  else if s.cueKind n = 2 then
    match c.more with
    | f :: fs => s.setCue n { idle with fireAt := some f, handed := true, more := fs }
    | [] => s.setCue n idle
  else if s.cueKind n = 1 then s.setCue n (s.timeCompute n idle)
  else s.setCue n (s.phaseCompute n idle)

/-- CUE_FIRE. -/
def cueFire (slot : Fin 64) (s : State) : State :=
  let n := slot.val
  let c := s.cue n
  match c.fireAt with
  | none => s
  | some f =>
    let s := advanceTo (32 * f) s
    let s := s.cueActions n f c.late
    let s := (s.cueToJobs n).cueFired n f c.late
    s.cueAfter n

def execCueFire (slot : Fin 64) (s : State) : Host.Outcome State Fault Refusal := .next (cueFire slot s)

end Sys2Proof.Machine
end

