-- ==== Sys2Proof/Machine/Net.lean ====
section
/-! DEFINITION. Ports and their rings (R393 to R408): links, MACsec, the pre-classifier, ingress staging and PFC, the APU
rings, egress, and the reel protocol's frames (R419 to R428). A frame waits in `cmdBuf` or `staging` until the command
that takes it; commands take frames in order. -/

namespace Sys2Proof.Machine

/-! ### Links (R394) -/

/-- LINK_UP. -/
def linkUp (p : Nat) (s : State) : State :=
  if !s.enabled (pgPort p) || (s.port p).link then s
  else
    let cfg := s.rn (pgPort p) 0x100
    let (s, m) := if bit cfg 1 then s.drawBool else (s, bit cfg 0)
    (s.modPort p (fun x => { x with link := true, master := m })).raise (pgPort p) 0

def execLinkUp (p : Fin 4) (s : State) : Host.Outcome State Fault Refusal := .next (linkUp p.val s)

/-- Classes that PFC holds. -/
def Port.held (x : Port) (c : Nat) : Bool := c < 6 && x.paused.contains c

/-- IDLE_SLOPE of a class in Mb/s; 0 for a class that no shaper holds (R395). -/
def State.idleSlope (s : State) (p c : Nat) : Nat := if 1 ≤ c ∧ c ≤ 5 then s.rn (pgPort p) (0x120 + 4 * c) else 0

/-- Bytes a frame takes on the link, and its time there in 1/256 ns at 10 Gb/s. DESIGN CHOICE (log 58): its check bytes, padding to
64 bytes and 20 bytes of preamble and gap count; a SecTAG and ICV do not. -/
def TxFrame.wire (f : TxFrame) : Nat := max 64 (f.bytes + 4) + 20
def TxFrame.dur (f : TxFrame) : Nat := f.wire * 2048 / 10

/-- A class's credit after a time in which none of its frames was sent (IEEE 802.1Q): while one waits it rises at idleSlope to its
limit for frames of MAX_FRAME bytes; while none waits a negative credit rises to 0 and a positive one is gone. -/
def creditGrow (slope maxFrame : Nat) (waits : Bool) (c : Int) (dt : Nat) : Int :=
  if waits then min (c + slope * dt * 10) (slope * maxFrame * 2048) else min 0 (c + slope * dt * 10)

/-- The credit of a class `dt` after the moment its credits are of. -/
def State.creditIn (s : State) (p c dt : Nat) : Int :=
  let x := s.port p
  creditGrow (s.idleSlope p c) (s.rn (pgPort p) 0x10C) (!x.held c && x.egress.any (fun f => f.cls = c)) (x.credit.getD c 0) dt

/-- The credits are brought to this moment. -/
def State.creditNow (s : State) (p : Nat) : State :=
  s.modPort p (fun x => { x with credit := (List.range 8).map (fun c => s.creditIn p c (s.uptime - x.creditAt)), creditAt := s.uptime })

/-- The credit of a class as the transmission of a frame that ends now began. -/
def State.creditFor (s : State) (p : Nat) (f : TxFrame) : Int :=
  s.creditIn p f.cls (s.uptime - (s.port p).creditAt - f.dur)

/-- The frame that leaves next: the first of the highest class that is not paused and whose shaper, where it has one, held a
credit of 0 or more as its transmission began (R395, R406). -/
def State.nextTx (s : State) (p : Nat) : Option TxFrame :=
  let x := s.port p
  ([8, 7, 6, 5, 4, 3, 2, 1, 0]).findSome? (fun c =>
    if x.held c then none
    else (x.egress.find? (fun f => f.cls = c)).filter (fun f => s.idleSlope p c == 0 || decide (0 ≤ s.creditFor p f)))

/-- The credits after a frame has been sent: its class's falls at sendSlope, IDLE_SLOPE less 10,000 Mb/s, to its limit (R395). -/
def State.creditSent (s : State) (p : Nat) (f : TxFrame) : State :=
  let send := 10000 - s.idleSlope p f.cls
  let left := max (s.creditFor p f - send * f.wire * 2048) (-(send * s.rn (pgPort p) 0x10C * 2048 : Int))
  (s.creditNow p).modPort p (fun x => { x with credit := if s.idleSlope p f.cls = 0 then x.credit else x.credit.set f.cls left })

/-- Takes the first frame that equals `f` out of the queue. -/
def Port.dropTx (x : Port) (f : TxFrame) : Port := { x with egress := x.egress.erase f }

/-! ### The APU rings (R407, R408) -/

def State.ringLog (s : State) (p o : Nat) : Nat := s.rn (pgPort p) (o + 4) % 16
def State.ringOn (s : State) (p o : Nat) : Bool := bit (s.rn (pgPort p) (o + 4)) 31
/-- Address of a descriptor of the receive (0x160) or transmit (0x170) ring. -/
def State.descAt (s : State) (p o i : Nat) : Nat := s.rn (pgPort p) o % 2 ^ 28 * 4096 + 32 * (i % 2 ^ s.ringLog p o)

/-- A time at the MDI moved by a latency in ps (R355). -/
def shiftTk (t : Nat) (ps : Int) : Nat := wrapTo 40 ((t : Int) + psTo256 ps)
def State.ingressLat (s : State) (p : Nat) : Int := sext 32 (s.rn pgNte (0x800 + 16 * p))
def State.egressLat (s : State) (p : Nat) : Int := sext 32 (s.rn pgNte (0x804 + 16 * p))
/-- Arrival of a frame at the MDI. -/
def State.rxTime (s : State) (p : Nat) (f : Frame) : Nat := shiftTk f.ts.toNat (-(s.ingressLat p))

/-- TXQ_HEAD is the first descriptor that still waits. -/
def State.txHead (s : State) (p : Nat) : State :=
  let tail := s.rn (pgPort p) 0x17C
  let n := 2 ^ s.ringLog p 0x170
  let h := s.rn (pgPort p) 0x178
  let left := (s.port p).egress.filterMap (·.desc)
  s.setRn (pgPort p) 0x178
    (((List.range n).map (fun i => (h + i) % n)).find?
      (fun i => i = tail % n || i = (s.port p).txSeen % n || left.contains i) |>.getD h)

/-- A descriptor is done; TS when it asks for it: the timekeeper as TX_FRAME_DONE comes, moved to the MDI (R355, R408). -/
def State.txDone (s : State) (p i : Nat) (sent : Bool) : State :=
  let a := s.descAt p 0x170 i
  let (s, d, _) := s.readVia (netPort p) a 32
  let fl := fld d 13 1
  let s := s.writeVia (netPort p) (a + 13) (leBytes 1 (fl ||| 1))
  let s :=
    if sent && bit fl 1 then
      s.writeVia (netPort p) (a + 16) (leBytes 5 (shiftTk s.tk (s.egressLat p)))
    else s
  s.txHead p

/-- A descriptor of the transmit ring enters its class's queue. -/
def State.txTake (s : State) (p i : Nat) : State :=
  let (s, d, _) := s.readVia (netPort p) (s.descAt p 0x170 i) 32
  let (s, bs, _) := s.readVia (netPort p) (fld d 0 8 % 2 ^ 40) (fld d 8 2)
  s.modPort p (fun x => { x with egress := x.egress ++
    [{ cls := fld d 12 1 % 8, desc := some i, payload := .other bs, bytes := fld d 8 2,
       vid := if bit (fld d 14 2) 15 then some (fld d 14 2 % 4096) else none, toMac := 0, toIp := 0, toUdp := 0,
       ip := none, tag := none }] })

/-- While TXQ_CFG.EN = 1, the descriptors before TXQ_TAIL enter their classes' queues in ring order (R408). -/
def State.txFill (s : State) (p : Nat) : State :=
  if !s.ringOn p 0x170 then s
  else
    let n := 2 ^ s.ringLog p 0x170
    let seen := (s.port p).txSeen
    let tail := s.rn (pgPort p) 0x17C
    let s := (List.range ((tail % n + n - seen % n) % n)).foldl (fun s k => s.txTake p ((seen + k) % n)) (s.creditNow p)
    s.modPort p (fun x => { x with txSeen := tail % n })

/-- A write of TXQ_TAIL. -/
def State.txQueue (s : State) (p tail : Nat) : State := (s.setRn (pgPort p) 0x17C (tail % 4096)).txFill p

/-- IRQ_STAT.RX_DROP. -/
def State.rxDrop (s : State) (p : Nat) : State := (s.satReg (pgPort p) 0x148).raise (pgPort p) 2

/-! ### MACsec (R399 to R402) -/

/-- A reel frame to CMD_UDP_PORT. -/
def State.isReel (s : State) (f : Frame) : Bool :=
  match f.payload, f.ip with
  | .reel _ _, some ip => ip.dstUdp.toNat == s.cmdUdp
  | _, _ => false
/-- Frames that pass unverified while the port has no link session (R402). -/
def State.linkExempt (s : State) (p : Nat) (f : Frame) : Bool :=
  (s.port p).linkSession.isNone &&
    (match f.payload with
     | .reel h _ => s.isReel f && h.type == 1
     | .neighbour own _ => own
     | _ => false)

/-- Protection of a frame that leaves: the SecTAG it carries, none where the SecY has no SA or is off; and whether the SA's packet
numbers allow it to leave at all (R399, R401, R402). -/
def State.txProtect (s : State) (p : Nat) : State × Bool × Option TxTag :=
  let x := s.port p
  let sci := bit (s.secy p) 4
  match x.txSa with
  | none => (s, true, none)
  | some sa =>
    if !bit (s.secy p) 0 then (s, true, none)
    else if sa.pn < 0xFFFFFFFF then
      let s := s.modPort p (fun x => { x with txSa := some { sa with pn := sa.pn + 1 } })
      (if sa.pn + 1 = pnWarn then s.raise pgMacsec 0 else s, true, some ⟨sa.an, sa.pn, sci⟩)
    else
      match x.txNext with
      | some nx =>
        let s := s.modPort p (fun x => { x with txSa := some { nx with pn := nx.pn + 1 }, txNext := none })
        (s.setRn pgMacsec (0x110 + 4 * p) nx.an, true, some ⟨nx.an, nx.pn, sci⟩)
      | none => ((s.satReg pgMacsec (0x140 + 4 * p)).raise pgMacsec 1, false, none)

/-- CMD_EGRESS_MAX: the longest wait of a command-class frame at the head of its queue, below 7.5 µs; the wait itself is a free
value (R406, R435). -/
def State.egressWait (s : State) (p : Nat) (f : TxFrame) : State :=
  if f.cls = 7 then
    let (s, w) := s.drawNat 32
    s.setRn pgCmd (0x130 + 4 * p) (max (s.rn pgCmd (0x130 + 4 * p)) (w % 7501))
  else s

/-! ### TX_FRAME_DONE and LINK_DOWN -/

/-- TX_FRAME_DONE. A MAC control frame leaves as it is. -/
def txFrameDone (p : Nat) (s : State) : State :=
  let x := s.port p
  if !x.link then s
  else
    match s.nextTx p with
    | none => s
    | some f =>
      let s := (s.egressWait p f).creditSent p f
      let s := s.modPort p (fun x => x.dropTx f)
      let (s, ok, tag) := if f.cls = 8 then (s, true, none) else s.txProtect p
      let s := if ok then s.modPort p (fun x => { x with lastTx := some { f with tag := tag } }) else s
      match f.desc with
      | some i => s.txDone p i ok
      | none => s

def execTxFrameDone (p : Fin 4) (s : State) : Host.Outcome State Fault Refusal := .next (txFrameDone p.val s)

/-- LINK_DOWN: a frame in transmission is discarded; whether there is one is a free value. -/
def linkDown (p : Nat) (s : State) : State :=
  let x := s.port p
  if !x.link then s
  else
    let (s, busy) := s.drawBool
    let s := match s.nextTx p with
      | some f =>
        if busy then
          let s := s.modPort p (fun x => x.dropTx f)
          match f.desc with | some i => s.txDone p i false | none => s
        else s
      | none => s
    (s.modPort p (fun x => { x with link := false, master := false })).raise (pgPort p) 0

def execLinkDown (p : Fin 4) (s : State) : Host.Outcome State Fault Refusal := .next (linkDown p.val s)

/-! ### PFC (R396) -/

/-- The body of a PFC frame (IEEE 802.1Qbb): opcode, class-enable vector, and the quanta of the enabled classes. -/
def pfcBody (enable quanta : Nat) : List Byte :=
  beBytes 2 0x0101 ++ beBytes 2 enable ++ (List.range 8).flatMap (fun c => beBytes 2 (if bit enable c then quanta else 0))

/-- A PFC frame with every class of PFC_MASK enabled enters the egress queue as MAC control, while the port has a link. -/
def State.sendPfc (s : State) (p quanta : Nat) : State :=
  if !(s.port p).link then s
  else
    (s.modPort p (fun x => { x with egress := x.egress ++
      [{ cls := 8, desc := none, payload := .other (pfcBody (bits (s.rn (pgPort p) 0x100) 13 8) quanta), bytes := 34, vid := none,
         toMac := 0x0180C2000001, toIp := 0, toUdp := 0, ip := none, tag := none }] })).incReg (pgPort p) 0x154

/-- PFC is sent when staging reaches PFC_XOFF, and with quanta 0 when it falls below PFC_XON. -/
def State.pfcCheck (s : State) (p : Nat) : State :=
  let x := s.port p
  let n := bufFill x.staging
  if !x.xoff && 1024 * s.rn (pgPort p) 0x110 ≤ n then (s.setPort p { x with xoff := true }).sendPfc p 0xFFFF
  else if x.xoff && n < 1024 * s.rn (pgPort p) 0x114 then (s.setPort p { x with xoff := false }).sendPfc p 0
  else s

/-- PFC_REFRESH. -/
def pfcRefresh (p : Nat) (s : State) : State := if (s.port p).xoff then s.sendPfc p 0xFFFF else s

def execPfcRefresh (p : Fin 4) (s : State) : Host.Outcome State Fault Refusal := .next (pfcRefresh p.val s)

/-- PFC_RECEIVE. -/
def pfcReceive (p : Nat) (en : Nat) (q : Nat → Nat) (s : State) : State :=
  if !s.enabled (pgPort p) || !(s.port p).link then s
  else
    let s := s.incReg (pgPort p) 0x144
    let s := if 64 ≤ en then s.satReg (pgPort p) 0x158 else s
    s.modPort p (fun x => { x with paused := (bitList 6 en).foldl (fun l c => if q c = 0 then delN l c else insN l c) x.paused })

def execPfcReceive (p : Fin 4) (enable : BitVec 8) (quanta : Vector (BitVec 16) 8) (s : State) :
    Host.Outcome State Fault Refusal :=
  .next (pfcReceive p.val enable.toNat (fun c => ((quanta[c]?).getD 0).toNat) s)

/-- PFC_PAUSE_EXPIRY. -/
def pfcPauseExpiry (p c : Nat) (s : State) : State := s.modPort p (fun x => { x with paused := delN x.paused c })

def execPfcPauseExpiry (p : Fin 4) (cls : Fin 8) (s : State) : Host.Outcome State Fault Refusal :=
  .next (pfcPauseExpiry p.val cls.val s)

/-! ### FRAME_RECEIVE (R397, R402 to R404) -/

/-- Command class (R403). -/
def State.cmdClass (s : State) (f : Frame) : Bool :=
  let d := s.rn 0x036 0x100
  (f.tagged && f.pcp == 7) ||
    (bit d 8 && (match f.ip with | some ip => ip.dscp.toNat == d % 64 | none => false)) ||
    (match f.payload with | .ptp _ => true | .neighbour _ _ => true | _ => false)

/-- A frame that passed MACsec goes to the command buffer or to ingress staging. -/
def State.classify (s : State) (p : Nat) (f : Frame) : State :=
  let x := s.port p
  if s.cmdClass f then
    if bufFill x.cmdBuf + frameLen f ≤ 32768 then s.setPort p { x with cmdBuf := x.cmdBuf ++ [f] }
    else s.satReg pgCmd (0x120 + 4 * p)
  else if bufFill x.staging + frameLen f ≤ 393216 then (s.setPort p { x with staging := x.staging ++ [f] }).pfcCheck p
  else s.rxDrop p

/-- Codewords that the PHY corrected or could not correct up to now: free numbers (R433). -/
def State.fecCount (s : State) (p : Nat) : State :=
  let (s, c) := s.drawNat 32
  let (s, u) := s.drawNat 32
  let s := (s.satReg (pgPort p) 0x14C c).satReg (pgPort p) 0x150 u
  if u = 0 then s else s.raise (pgPort p) 1

/-- FRAME_RECEIVE. DESIGN CHOICE (log 58): a frame longer than the largest of R393 is discarded and counts nowhere. -/
def frameReceive (p : Nat) (f : Frame) (s : State) : State :=
  if !s.enabled (pgPort p) || !(s.port p).link || 9216 < frameLen f then s
  else
    let s := (s.fecCount p).incReg (pgPort p) 0x144
    if f.payload = .pause then s.satReg (pgPort p) 0x158
    else if s.replayed p f then s.satReg pgMacsec (0x130 + 4 * p)
    else
      let v := s.verified p f
      let req := bit (s.rn (pgPort p) 0x100) 2
      let strict := bit (s.secy p) 0 && bits (s.secy p) 2 1 == 2
      if !v && (req || strict) && !(req && s.linkExempt p f) then s.satReg pgMacsec (0x120 + 4 * p)
      else (s.notePn p f).classify p (s.received p f)

def execFrameReceive (p : Fin 4) (f : Frame) (s : State) : Host.Outcome State Fault Refusal := .next (frameReceive p.val f s)

/-! ### Frames leave their buffers -/

def State.popCmdBuf (s : State) (p : Nat) : State := s.modPort p (fun x => { x with cmdBuf := x.cmdBuf.drop 1 })
def State.popStaging (s : State) (p : Nat) : State :=
  (s.modPort p (fun x => { x with staging := x.staging.drop 1 })).pfcCheck p

/-- BAD_FRAME. -/
def State.badFrame (s : State) : State := s.netCount 0x120

/-- What R398 refuses of a frame that the hardware paths handle. -/
def ipBad (f : Frame) : Bool :=
  match f.ip with
  | some ip => ip.fragment || (!ip.isV6 && ip.options) || (ip.isV6 && ip.udpZero) || ip.udpBad
  | none => false

/-- Types whose received frames NET or SEC handles (R405). -/
def handledType (t : Nat) : Bool := t == 0x01 || t == 0x02 || t == 0x03 || t == 0x10 || t == 0x12 || t == 0x21
/-- Types of R420. -/
def reelType (t : Nat) : Bool := handledType t || t == 0x11 || t == 0x20

/-- A header that R420 admits. -/
def hdrOk (h : ReelHdr) (body : List Byte) : Bool :=
  let t := h.type.toNat
  let n := h.count.toNat
  let len := body.length
  h.magic == 0x474B && h.version == 1 && reelType t && h.length.toNat == len &&
    (h.flags == 0 || (h.flags == 1 && t == 2)) &&
    (if t = 0x01 then true
     else if t = 0x10 ∨ t = 0x11 then 1 ≤ n && n ≤ 8 && len == 64 * n
     else if t = 0x21 then 1 ≤ n && n ≤ 32 && len == 24 * n
     else if t = 0x20 then len == 16
     else n == 0 && len == 0)

/-- The command at the front of the buffer that the APU ring receives: none of the handled types. -/
def State.forApu (s : State) (f : Frame) : Bool :=
  match f.payload with
  | .reel h b => !s.isReel f || (hdrOk h b && !ipBad f && !handledType h.type.toNat)
  | _ => true

/-- The reel frame at the front of the command buffer of a port: one that R398 or R420 refuses is discarded by any of the
rows that take reel frames; one of another type stays. -/
def State.reelFrame (s : State) (p ty : Nat) (k : Frame → ReelHdr → List Byte → State → State) : State :=
  match (s.port p).cmdBuf.head? with
  | none => s
  | some f =>
    match f.payload with
    | .reel h body =>
      if !s.isReel f then s
      else if ipBad f || !hdrOk h body then (s.popCmdBuf p).badFrame
      else if h.type.toNat = ty then k f h body (s.popCmdBuf p)
      else s
    | _ => s

/-! ### Flow lookup (R410) -/

/-- The key of an entry matches a frame. -/
def State.flowKey (s : State) (e : Nat) (f : Frame) : Bool :=
  let ty := s.flowType e
  let udp := match f.ip with
    | some ip => s.flowNat e 12 16 == ip.srcIp.toNat && s.flowNat e 28 16 == ip.dstIp.toNat &&
        (s.flowNat e 44 2 == 0 || s.flowNat e 44 2 == ip.srcUdp.toNat) && s.flowNat e 46 2 == ip.dstUdp.toNat
    | none => false
  match f.payload with
  | .avtp sub st _ _ _ _ _ =>
    1 ≤ ty && ty ≤ 3 && sub.toNat == (if ty = 3 then 0x07 else 0x03) && s.flowNat e 4 8 == st.toNat
  | .rtp pt ssrc _ _ _ _ =>
    udp && (ty == 6 || ((ty == 4 || ty == 5) && (bit (s.flowNat e 48 1) 7 || s.flowNat e 48 1 % 128 == pt.toNat) &&
      (s.flowNat e 52 4 == 0 || s.flowNat e 52 4 == ssrc.toNat)))
  | _ => ty == 6 && udp

/-- The entry a frame belongs to. -/
def State.flowOf (s : State) (p : Nat) (f : Frame) : Option Nat :=
  let vid := if f.tagged then f.vid.toNat else s.rn (pgPort p) 0x118 % 4096
  s.flowIds.find? (fun e =>
    s.flowType e != 0 && s.flowNat e 1 1 % 4 == p &&
      (if bit (s.flowNat e 1 1) 6 then !f.tagged else s.flowNat e 2 2 % 4096 == vid) && s.flowKey e f)

/-! ### APU_RX_FRAME (R407) -/

/-- Writes a frame into the receive ring. -/
def State.apuDeliver (s : State) (p : Nat) (f : Frame) (cmd : Bool) : State :=
  let n := 2 ^ s.ringLog p 0x160
  let h := s.rn (pgPort p) 0x168
  if !s.ringOn p 0x160 || h % n == s.rn (pgPort p) 0x16C % n then s.rxDrop p
  else
    let a := s.descAt p 0x160 h
    let (s, d, _) := s.readVia (netPort p) a 32
    let buf := fld d 10 2
    let len := min f.raw.length buf
    let s := s.writeVia (netPort p) (fld d 0 8 % 2 ^ 40) (f.raw.take len)
    let fl := 1 + 4 * b2n cmd + 8 * b2n f.secured.isSome + 16 * b2n (decide (buf < f.raw.length))
    let cls := if f.tagged then f.pcp.toNat else if cmd then 7 else 0
    let s := s.writeVia (netPort p) (a + 8) (leBytes 2 len)
    let s := s.writeVia (netPort p) (a + 12) (leBytes 1 cls ++ leBytes 1 fl ++
      leBytes 2 (if f.tagged then f.vid.toNat + 32768 else 0) ++ leBytes 5 (s.rxTime p f))
    s.setRn (pgPort p) 0x168 ((h + 1) % n)

/-- NO_FLOW. -/
def State.noFlow (s : State) : State := s.netCount 0x12C

/-- APU_RX_FRAME: a command-class frame for the ring, else a frame of ingress staging that matches no flow. -/
def apuRxFrame (p : Nat) (s : State) : State :=
  match (s.port p).cmdBuf.head?.filter s.forApu with
  | some f => (s.popCmdBuf p).apuDeliver p f true
  | none =>
    match (s.port p).staging.head? with
    | none => s
    | some f =>
      if (s.flowOf p f).isSome then s
      else if bit (s.rn (pgPort p) 0x100) 3 then (s.popStaging p).apuDeliver p f false
      else (s.popStaging p).noFlow

def execApuRxFrame (p : Fin 4) (s : State) : Host.Outcome State Fault Refusal := .next (apuRxFrame p.val s)

/-! ### HANDSHAKE_FRAME (R422) -/

def handshakeFrame (p : Fin 4) (s : State) : State :=
  s.reelFrame p.val 0x01 (fun f _ body s =>
    let sec := s.uptime / 256000000000
    let x := s.port p.val
    let n := if x.hsSecond = sec then x.hsCount else 0
    if s.rn pgCmd 0x104 ≤ n then s.satReg pgCmd (0x120 + 4 * p.val)
    else
      let s := s.setPort p.val { x with hsSecond := sec, hsCount := n + 1 }
      let ip := f.ip.getD ⟨false, false, false, false, false, 0, 0, 0, 0, 0⟩
      s.takeFragment (.port p) f.srcMac ip.srcIp ip.srcUdp f.secured body)

def execHandshakeFrame (p : Fin 4) (s : State) : Host.Outcome State Fault Refusal := .next (handshakeFrame p s)

/-! ### Frames of a session (R421, R423 to R427) -/

/-- A frame that the binding refuses. -/
def State.badSession (s : State) : State := s.netCount 0x124

/-- A reel frame of a session that R421 accepts; `att` asks that its REEL is attached to the session. -/
def State.sessionFrame (s : State) (p : Fin 4) (ty : Nat) (att : Bool)
    (k : Fin 256 → ReelHdr → List Byte → State → State) : State :=
  s.reelFrame p.val ty (fun f h body s =>
    match s.boundTo p f h with
    | none => s.badSession
    | some i =>
      if att && (s.reel h.reel.toNat).attached != some i then s.badSession
      else k i h body (s.setSession i.val { s.session i.val with idleFrom := s.uptime }))

/-- The body of an ATTACH reply. -/
def attachBody (st cmd cmpl : Nat) : List Byte := beBytes 1 st ++ beBytes 3 0 ++ beBytes 4 cmd ++ beBytes 4 cmpl

/-- Entries of a completion ring. -/
def State.cmplBytes (s : State) (p n first count : Nat) : State × List Byte :=
  let l := s.reelLog n
  (List.range count).foldl (fun (a : State × List Byte) k =>
    let (s, bs, _) := a.1.readVia (netPort p) (s.reelBase n + 64 * 2 ^ l + 64 * ((first + k) % 2 ^ l)) 64
    (s, a.2 ++ bs)) (s, [])

/-- Sends a CMPL frame. -/
def State.sendCmpl (s : State) (i n : Nat) (seq : Word) (first count : Nat) : State :=
  let p := match (s.session i).port with | some p => p.val | none => 0
  let (s, bs) := s.cmplBytes p n first count
  (s.sendPeer i n 0x11 count seq.toNat bs).modReel n (fun r => { r with ackOwed := false })

/-- STATUS of an ATTACH (R423). -/
def State.attachStatus (s : State) (i : Fin 256) (n : Nat) (resume : Bool) : Nat :=
  let r := s.reel n
  if 31 < n || s.reelSource n != 2 then 1
  else if r.attached.isSome && r.attached != some i then 2
  else if !roleMeets (s.sessionRole i.val) (s.lock pgReels 2) then 3
  else if !s.reelOn n then 4
  else if resume && r.lastSession != some (i, (s.session i.val).gen) then 5
  else 0

/-- ATTACH. -/
def attach (p : Fin 4) (s : State) : State :=
  s.sessionFrame p 0x02 false (fun i h _ s =>
    let n := h.reel.toNat
    let resume := h.flags == 1
    let st := s.attachStatus i n resume
    if st ≠ 0 then
      let (s, f) := s.drawBytes 8
      s.sendPeerFree i.val n 0x02 (beBytes 1 st ++ beBytes 3 0 ++ f)
    else if resume then
      let s := s.modReel n (fun r => { r with attached := some i })
      let r := s.reel n
      let s := s.sendPeerFree i.val n 0x02 (attachBody 0 r.cmdSeq.toNat r.cmplSeq.toNat)
      let s := s.modReel n (fun r => { r with unacked := r.unacked.map (fun (u : Word × Nat × Nat × Nat) => (u.1, u.2.1, u.2.2.1, 1)) })
      r.unacked.foldl (fun s u => s.sendCmpl i.val n u.1 u.2.1 u.2.2.1) s
    else
      let s := s.modReel n (fun r => { r with attached := some i, lastSession := some (i, (s.session i.val).gen), cmdSeq := 1,
                                              cmplSeq := 1, unacked := [], ctail := r.chead, sent := r.chead, ackOwed := false })
      s.sendPeerFree i.val n 0x02 (attachBody 0 1 1))

def execAttach (p : Fin 4) (s : State) : Host.Outcome State Fault Refusal := .next (attach p s)

/-- DETACH (R424). -/
def detach (p : Fin 4) (s : State) : State :=
  s.sessionFrame p 0x03 false (fun i h _ s =>
    let n := h.reel.toNat
    let s := if (s.reel n).attached == some i then s.detachReel n else s
    s.sendPeerFree i.val n 0x03 [])

def execDetach (p : Fin 4) (s : State) : Host.Outcome State Fault Refusal := .next (detach p s)

/-- Signed difference of two sequence numbers. -/
def seqDiff (a b : Word) : Int := sext 32 (a.toNat + 2 ^ 32 - b.toNat)

/-- The host's ACK covers CMPL frames: CTAIL moves past their entries (R427). -/
def State.ackCmpl (s : State) (n : Nat) (a : Word) : State :=
  let r := s.reel n
  let hit := r.unacked.filter (fun u => seqDiff u.1 a ≤ 0)
  match hit.getLast? with
  | none => s
  | some u =>
    s.setReel n { r with unacked := r.unacked.filter (fun u => 0 < seqDiff u.1 a),
                         ctail := (u.2.1 + u.2.2.1) % 2 ^ (s.reelLog n + 1) }

/-- Room of a command ring. -/
def State.reelRoom (s : State) (n : Nat) : Nat := 2 ^ s.reelLog n - ringCount (s.reelLog n) (s.reel n).tail (s.reel n).head

/-- CMD_FRAME (R425, R426). NET writes commands into the ring of a reel with SOURCE = 2 alone (R284); a frame for another reel
counts as one that finds no room (DESIGN CHOICE, log 55). -/
def cmdFrame (p : Fin 4) (s : State) : State :=
  s.sessionFrame p 0x10 true (fun i h body s =>
    let n := h.reel.toNat
    let s := s.ackCmpl n h.ack
    let e := (s.reel n).cmdSeq
    let k := h.count.toNat
    let d := seqDiff h.seq e
    if d = 0 then
      if s.reelSource n = 2 ∧ k ≤ s.reelRoom n then
        let gen := (s.session i.val).gen
        let s := (List.range k).foldl (fun s j => s.pushCmd n i gen ((body.drop (64 * j)).take 64)) s
        s.modReel n (fun r => { r with cmdSeq := e + 1, ackOwed := true })
      else s.reelDrops n 1
    else if d < 0 then s.modReel n (fun r => { r with ackOwed := true })
    else (s.netCount 0x128).sendPeerFree i.val n 0x12 [])

def execCmdFrame (p : Fin 4) (s : State) : Host.Outcome State Fault Refusal := .next (cmdFrame p s)

/-- ACK_FRAME. -/
def ackFrame (p : Fin 4) (s : State) : State := s.sessionFrame p 0x12 true (fun _ h _ s => s.ackCmpl h.reel.toNat h.ack)

def execAckFrame (p : Fin 4) (s : State) : Host.Outcome State Fault Refusal := .next (ackFrame p s)

/-- ACK_SEND. -/
def ackSend (n : Nat) (s : State) : State :=
  let r := s.reel n
  match r.attached with
  | some i => if r.ackOwed then (s.sendPeerFree i.val n 0x12 []).modReel n (fun r => { r with ackOwed := false }) else s
  | none => s

def execAckSend (reel : Fin 32) (s : State) : Host.Outcome State Fault Refusal := .next (ackSend reel.val s)

/-- CMPL_SEND. -/
def cmplSend (n : Nat) (s : State) : State :=
  let r := s.reel n
  let k := min 8 (ringCount (s.reelLog n) r.chead r.sent)
  match r.attached with
  | some i =>
    if s.reelSource n = 2 ∧ 0 < k then
      let s := s.sendCmpl i.val n r.cmplSeq r.sent k
      s.modReel n (fun r => { r with cmplSeq := r.cmplSeq + 1, sent := (r.sent + k) % 2 ^ (s.reelLog n + 1),
                                     unacked := r.unacked ++ [(r.cmplSeq, r.sent, k, 1)] })
    else s
  | none => s

def execCmplSend (reel : Fin 32) (s : State) : Host.Outcome State Fault Refusal := .next (cmplSend reel.val s)

/-- CMPL_RETRIES. -/
def State.cmplRetries (s : State) : Nat := s.rn pgNet 0x10C

/-- CMPL_RETRY: the oldest frame that the host has not acknowledged. -/
def cmplRetry (n : Nat) (s : State) : State :=
  let r := s.reel n
  match r.attached, r.unacked with
  | some i, u :: us =>
    if u.2.2.2 < s.cmplRetries + 1 then
      (s.sendCmpl i.val n u.1 u.2.1 u.2.2.1).modReel n (fun r => { r with unacked := (u.1, u.2.1, u.2.2.1, u.2.2.2 + 1) :: us })
    else s
  | _, _ => s

def execCmplRetry (reel : Fin 32) (s : State) : Host.Outcome State Fault Refusal := .next (cmplRetry reel.val s)

/-- SESSION_LOST: at once when a CMPL frame has been sent CMPL_RETRIES + 1 times, else when the idle time is over. -/
def sessionLost (i : Fin 256) (s : State) : State :=
  let mine := s.reels.toList.filter (fun r => r.attached == some i)
  if mine.isEmpty then s
  else if !(s.session i.val).isOpen || mine.any (fun r => r.unacked.any (fun u => s.cmplRetries + 1 ≤ u.2.2.2)) then s.loseReels i
  else (advance ((s.session i.val).idleFrom + 256000000 * s.rn pgNet 0x104 - s.uptime) s).loseReels i

def execSessionLost (session : Fin 256) (s : State) : Host.Outcome State Fault Refusal := .next (sessionLost session s)

end Sys2Proof.Machine
end

