-- ==== Sys2Proof/Machine/Checks.lean ====
section
/-! DEFINITION. The consistency rules of a commit, page by page (R59, R588, and the commit rules of each chapter). A rule
that fails names the page offset of the register and the least significant bit of the field; `State.next` reads the
value a field would have after the commit. -/

namespace Sys2Proof.Machine

/-- Failing fields: page offset and bit. -/
abbrev Fails := List (Nat × Nat)

def failIf (b : Bool) (off b0 : Nat) : Fails := if b then [(off, b0)] else []
def outside (lo hi x : Nat) : Bool := x < lo || hi < x

/-- The first failing field in ascending offset order (R63). -/
def firstFail : Fails → Option (Nat × Nat)
  | [] => none
  | p :: l =>
    match firstFail l with
    | none => some p
    | some q => if q.1 < p.1 ∨ (q.1 = p.1 ∧ q.2 < p.2) then some q else some p

/-- A register has a staged value. -/
def State.isStaged (s : State) (page off : Nat) : Bool := (mapGet? s.staged (rkey page off)).isSome

/-- A field of a register would change. -/
def State.changes (s : State) (page off hi lo : Nat) : Bool := bits (s.next page off) hi lo != bits (s.rn page off) hi lo

/-- A signed 64-bit pair of registers after the commit. -/
def State.next64 (s : State) (page lo : Nat) : Int := sext 64 (s.next page lo + 2 ^ 32 * s.next page (lo + 4))

/-- Rules of a ring with base at `off`, size and EN in the word after it: sizes `a` to `b`, nothing moved while enabled. -/
def State.ringFails (s : State) (page off a b : Nat) : Fails :=
  let cfg := s.next page (off + 4)
  let on := bit (s.rn page (off + 4)) 31
  failIf (on && s.changes page off 27 0) off 0 ++
    failIf ((bit cfg 31 && outside a b (cfg % 16)) || (on && s.changes page (off + 4) 3 0)) (off + 4) 0

/-- The gaffer (R504, R528). -/
def State.gafferFails (s : State) : Fails :=
  let p := pgGaffer
  let cfg := s.next p 0x100
  let ceil := s.next p 0x400
  failIf (bit cfg 0 && s.jobs.any (fun j => s.imgMaxOp j.slot.val < 5 || j.rebind.any (fun r => s.imgMaxOp r.val < 5))) 0x100 0 ++
    failIf (outside 5 90 (bits cfg 15 8)) 0x100 8 ++ failIf (outside 20000 ceil (s.next p 0x104)) 0x104 0 ++
    (List.range 8).flatMap (fun c =>
      let b := s.next p (0x110 + 4 * c)
      failIf (bits b 6 4 < bits b 2 0) (0x110 + 4 * c) 0 ++ failIf (bits b 6 4 < bits b 10 8) (0x110 + 4 * c) 8) ++
    failIf (outside 20000 85000 ceil) 0x400 0

/-- Supply monitors (R519, R531). -/
def State.supplyFails (s : State) : Fails :=
  (List.range 16).flatMap (fun r =>
    let c := s.next pgSupply (0x100 + 4 * r)
    failIf (bits c 7 4 ≤ bits c 3 0 || (bit c 16 && outside 3 8 (bits c 3 0))) (0x100 + 4 * r) 0 ++
      failIf (outside 8 12 (bits c 7 4)) (0x100 + 4 * r) 4 ++ failIf (bit c 16 && outside 2 100 (bits c 15 8)) (0x100 + 4 * r) 8)

/-- Thermal sensors (R532). -/
def State.thermalFails (s : State) : Fails :=
  let t := s.next pgThermal 0x100
  failIf (outside 60 (if s.fuse.tempX then 100 else 90) t) 0x100 0 ++ failIf (outside 40 (t - 5) (s.next pgThermal 0x104)) 0x104 0

/-- The health manager (chapter "Integrity, Faults and Recovery", page 0x006). -/
def State.healthFails (s : State) : Fails :=
  failIf (outside 3600 604800 (s.next pgHealth 0x104)) 0x104 0 ++ failIf (outside 60 3600 (s.next pgHealth 0x108)) 0x108 0 ++
    s.ringFails pgHealth 0x114 4 12

/-- Sessions (R562). -/
def State.sessFails (s : State) : Fails :=
  failIf (outside 100 60000 (s.next pgSess 0x100)) 0x100 0 ++ failIf (outside 60 2592000 (s.next pgSess 0x104)) 0x104 0

/-- The network time engine (R354, R360). -/
def State.nteFails (s : State) : Fails :=
  let c := s.next pgNte 0x100
  failIf (bits c 1 0 == 3) 0x100 0 ++ failIf (bit c (4 + bits c 3 2)) 0x100 2 ++ failIf (bits c 9 8 == 3) 0x100 8 ++
    failIf (2 < bits c 19 17 || (bits c 9 8 == 0 && bits c 19 17 != 0)) 0x100 17 ++
    failIf (!outside 1 8 (bits c 23 20)) 0x100 20 ++
    failIf (outside 100 1000000000 (s.next pgNte 0x104)) 0x104 0 ++ failIf (outside 10 60000 (s.next pgNte 0x108)) 0x108 0

/-- An armed phase cue names the axis. -/
def State.cueOnAxis (s : State) (n : Nat) : Bool :=
  (List.range 64).any (fun i => s.cueArmed i && s.cueKind i == 0 && s.cueAxis i == n)

/-- An axis (R337). -/
def State.axisFails (s : State) (n : Nat) : Fails :=
  let p := pgAx n
  let c := s.next p 0x100
  let src := bits c 3 0
  let m := s.next64 p 0x108
  let g := s.next p 0x110
  let upd := s.next p 0x114
  let stall := s.next p 0x118
  let rate := bits c 20 18
  let z := s.next64 p 0x11C
  let held := s.cueOnAxis n
  failIf (7 < src || (held && s.changes p 0x100 3 0)) 0x100 0 ++ failIf (held && s.changes p 0x100 4 4) 0x100 4 ++
    failIf (src == 4 && outside 8 32 (bits c 17 12)) 0x100 12 ++ failIf (4 < rate) 0x100 18 ++
    failIf (bit c 4 && decide (m ≤ 0)) 0x108 0 ++ failIf (bits g 15 0 == 0) 0x110 0 ++
    failIf (bits g 31 16 == 0 || bits g 15 0 < bits g 31 16) 0x110 16 ++
    failIf (outside 100 1000000 upd || (src == 4 && upd < (bits c 17 12 + 2) * (4000 / 2 ^ rate) + 20000)) 0x114 0 ++
    failIf (outside 10 10000000 stall || stall * 1000 ≤ upd) 0x118 0 ++
    failIf (bit c 4 && 2 ≤ bits c 7 6 && (decide (z < 0) || decide (m ≤ z))) 0x11C 0

/-- A commit changes a cue slot. -/
def State.cueTouched (s : State) (i : Nat) : Bool := cueRegs.any (fun o => s.isStaged pgCue (cueOff i o))

/-- One changed cue slot (R349, R588). -/
def State.cueSlotFails (s : State) (i : Nat) : Fails :=
  let ctl := (s.cueWill i 0).toNat
  let act := (s.cueWill i 0x10).toNat
  let kind := bits ctl 2 1
  let ax := bits ctl 5 3
  let cross := bits ctl 7 6
  let tgt := sext 64 ((s.cueWill i 4).toNat + 2 ^ 32 * (s.cueWill i 8).toNat)
  let modulo := kind == 0 && s.axModulo ax
  failIf (s.inPool i) (cueOff i 0) 0 ++ failIf (kind == 3) (cueOff i 0) 1 ++
    failIf (kind == 0 && s.axSource ax == 0) (cueOff i 0) 3 ++
    failIf (kind == 0 && (cross == 3 || (modulo && cross == 0))) (cueOff i 0) 6 ++
    failIf (kind == 2 && bit ctl 10) (cueOff i 0) 10 ++ failIf (bit ctl 11 && (s.cue i).owner.isNone) (cueOff i 0) 11 ++
    failIf (bit ctl 0 && bits ctl 19 18 == 3) (cueOff i 0) 18 ++
    failIf (modulo && (decide (tgt < 0) || decide (s.axModulus ax ≤ tgt))) (cueOff i 4) 0 ++
    failIf (kind == 2 && bit (s.cueWill i 0xC).toNat 31) (cueOff i 0xC) 0 ++
    failIf (bit ctl 9 && !bit (s.rn pgPin (0x100 + 4 * (act % 16))) 0) (cueOff i 0x10) 0 ++
    failIf (bit ctl 9 && bits act 5 4 == 2 && bits act 30 17 == 0) (cueOff i 0x10) 17

/-- The cue page (R349, R350). -/
def State.cueFails (s : State) : Fails :=
  failIf (outside 50 10000 (s.next pgCue 0x110)) 0x110 0 ++
    (List.range 64).flatMap (fun i =>
      failIf (bit (s.next pgCue (0x108 + 4 * (i / 32))) (i % 32) && (s.cue i).owner.isSome) (0x108 + 4 * (i / 32)) (i % 32) ++
        (if s.cueTouched i then s.cueSlotFails i else []))

/-- NET common (R432). -/
def State.netFails (s : State) : Fails :=
  let u := s.next pgNet 0x100
  failIf (u == 0 || u == 319 || u == 320) 0x100 0 ++ failIf (outside 100 60000 (s.next pgNet 0x104)) 0x104 0 ++
    failIf (outside 50 100000 (s.next pgNet 0x108)) 0x108 0 ++ failIf (outside 1 64 (s.next pgNet 0x10C)) 0x10C 0

/-- The first IDLE_SLOPE at which the running sum exceeds 7,500. -/
def State.slopeFails (s : State) (page : Nat) : Nat → List Nat → Fails
  | _, [] => []
  | acc, o :: os =>
    let acc := acc + s.next page o
    if 7500 < acc then [(o, 0)] else s.slopeFails page acc os

/-- A port (R433). -/
def State.portFails (s : State) (p : Nat) : Fails :=
  let g := pgPort p
  failIf (bit (s.next g 0x108) 8) 0x108 0 ++ failIf (outside 1518 9216 (s.next g 0x10C)) 0x10C 0 ++
    failIf (352 < s.next g 0x110) 0x110 0 ++ failIf (s.next g 0x110 ≤ s.next g 0x114) 0x114 0 ++
    s.slopeFails g 0 [0x124, 0x128, 0x12C, 0x130, 0x134] ++ s.ringFails g 0x160 4 12 ++ s.ringFails g 0x170 4 12

/-- MACsec (R434). -/
def State.macsecFails (s : State) : Fails :=
  (List.range 4).flatMap (fun p =>
    let c := s.next pgMacsec (0x100 + 4 * p)
    let x := s.port p
    failIf (s.isStaged pgMacsec (0x100 + 4 * p) && bit c 0 && x.txSa.isNone && x.rxSas.isEmpty) (0x100 + 4 * p) 0 ++
      failIf (bit c 0 && bits c 2 1 == 3) (0x100 + 4 * p) 1)

/-- A CSI port (R439). -/
def State.csiFails (s : State) (p : Nat) : Fails :=
  let l := s.next (pgCsi p) 0x100 % 8
  failIf (!(l == 1 || l == 2 || l == 4)) 0x100 0 ++ failIf (outside 80 4500 (s.next (pgCsi p) 0x104)) 0x104 0

/-- The stream an ISP_SRC names: port, VC and data type; none for data type 0. -/
def streamOf (src : Nat) : Option (Nat × Nat × Nat) :=
  if bits src 13 8 = 0 then none else some (src % 4, bits src 7 4, bits src 13 8)

/-- An enabled output of an ISP (R442, R443, R445). -/
def State.outFails (s : State) (m k : Nat) : Fails :=
  let p := pgIsp m
  let sz := s.next p 0x104
  let o := outDesc 0 (s.next p (outOff k 0)) (s.next p (outOff k 4)) (s.next p (outOff k 8) % 2 ^ 28 * 4096)
    (s.next p (outOff k 0xC)) []
  let need := pad1K o.frameBytes + (if bit (s.next p 0x118) 3 then 8 * o.height else 0)
  let bad (full x : Nat) : Bool := x == 0 || full < x || 16 * x < full
  if !bit (s.next p (outOff k 0)) 0 then []
  else
    failIf ((o.format == 3 && o.mono) || (o.format != 3 && !o.mono && bit (s.next p 0x100) 16)) (outOff k 0) 3 ++
      failIf (o.format == 3 && o.cpad != 0) (outOff k 0) 4 ++
      failIf (bad (sz % 65536) o.width) (outOff k 4) 0 ++ failIf (bad (sz / 65536) o.height) (outOff k 4) 16 ++
      failIf (o.clmem.isSome && 4194304 < o.base + 2048 + o.nbuf * o.stride) (outOff k 8) 0 ++
      failIf (o.stride % 1024 != 0 || o.stride < need) (outOff k 0xC) 0

/-- An ISP (R438, R445 and "Line-scan input"). -/
def State.ispFails (s : State) (m : Nat) : Fails :=
  let p := pgIsp m
  let src := s.next p 0x100
  let sz := s.next p 0x104
  let st := streamOf src
  let twice := st.isSome && (List.range s.fuse.grade.isps).any (fun i => i != m && streamOf (s.ispSrc i) == st)
  failIf (s.fuse.grade.isps ≤ src % 4 || twice) 0x100 0 ++ failIf (outside 16 8192 (sz % 65536)) 0x104 0 ++
    failIf (outside 1 8192 (sz / 65536)) 0x104 16 ++ failIf (bit src 17 && bit (s.next p 0x10C) 6) 0x10C 6 ++
    failIf (4096 < bits (s.next p 0x110) 28 16) 0x110 16 ++ (List.range 3).flatMap (fun k => s.outFails m k)

/-- A partition after the commit: first context and number. -/
def State.nextPart (s : State) (f : Nat) : Nat × Nat :=
  (s.next pgTrk (feedOff f 3) % 2 ^ 20, s.next pgTrk (feedOff f 4) % 2 ^ 21)
def State.nextFeedOn (s : State) (f : Nat) : Bool := bit (s.next pgTrk (feedOff f 0)) 0

/-- A feed (R463). -/
def State.feedFails (s : State) (f : Nat) : Fails :=
  if !s.nextFeedOn f then []
  else
    let (b, n) := s.nextPart f
    let moved := s.enabled pgTrk && bit (s.feedW f 0) 0
    let lap := (List.range 16).any (fun g => g != f && s.nextFeedOn g &&
      (let (c, k) := s.nextPart g; decide (b < c + k) && decide (c < b + n)))
    failIf (bits (s.next pgTrk (feedOff f 0)) 15 8 == 0) (feedOff f 0) 8 ++
      failIf (s.next pgTrk (feedOff f 2) % 64 != 0) (feedOff f 2) 0 ++
      failIf (lap || (moved && s.changes pgTrk (feedOff f 3) 19 0)) (feedOff f 3) 0 ++
      failIf (2 ^ 20 < b + n || (moved && s.changes pgTrk (feedOff f 4) 20 0)) (feedOff f 4) 0

/-- A rule (R463). -/
def State.ruleFails (s : State) (r : Nat) : Fails :=
  let w := s.next pgTrk (ruleOff r 0)
  if !bit w 0 then []
  else
    failIf (!s.nextFeedOn (bits w 4 1)) (ruleOff r 0) 1 ++
      failIf (s.next pgTrk (ruleOff r 8) < s.next pgTrk (ruleOff r 7)) (ruleOff r 7) 0

/-- Track control (R463). -/
def State.trkFails (s : State) : Fails :=
  let base := s.next pgTrk 0x100 % 2 ^ 28 * 4096
  failIf (!s.inDram base (128 * 2 ^ 20) || (s.enabled pgTrk && s.changes pgTrk 0x100 27 0)) 0x100 0 ++
    (List.range 16).flatMap (fun i => s.feedFails i ++ s.ruleFails i)

/-- JSC control (R323). -/
def State.jscFails (s : State) : Fails :=
  let base := s.next pgJsc 0x100 % 2 ^ 28 * 4096
  let sb := s.next pgJsc 0x104
  let used := (List.range 64).any (fun n => (s.slot n).loaded || (s.slot n).verifying.isSome)
  failIf ((used && s.changes pgJsc 0x100 27 0) || !s.inDram base (64 * sb + 64 * (sb / 16))) 0x100 0 ++
    failIf ((used && s.changes pgJsc 0x104 31 0) || sb == 0 || sb % 65536 != 0) 0x104 0

/-- Reels (R281). -/
def State.reelFails (s : State) (n : Nat) : Fails :=
  let o := 0x100 + 16 * n
  let c := s.next pgReels (o + 4)
  let fixed := s.reelOn n || (s.reel n).reserved != 0
  failIf (fixed && s.changes pgReels o 27 0) o 0 ++
    failIf ((bit c 7 && outside 4 12 (c % 16)) || (fixed && s.changes pgReels (o + 4) 3 0)) (o + 4) 0 ++
    failIf (bit c 7 && bits c 5 4 == 3) (o + 4) 4

/-- A cluster (R530). -/
def State.clFails (s : State) (c : Nat) : Fails :=
  let d := s.next (pgCl c) 0x480
  failIf (outside 2 6 (d % 16)) 0x480 0 ++ failIf (outside 1 5 (bits d 7 4) || d % 16 ≤ bits d 7 4) 0x480 4

/-- The plan registers of an MC page in ascending order (R381). -/
def planOffs : List Nat :=
  [0x108, 0x10C] ++ (List.range 16).map (fun i => 0x110 + 4 * i) ++ (List.range 24).map (fun i => 0x200 + 4 * i)

/-- DLY codes (R372) and PASR_KEEP (R388) of an MC page. -/
def State.mcOwnFails (s : State) (m : Nat) : Fails :=
  let p := pgMc m
  let lo := s.next p 0x170
  let hi := s.next p 0x174
  let big := s.fuse.grade.segments == 64
  failIf (!big && lo != 0 && !bit lo 31) 0x170 31 ++ failIf (big && lo + hi != 0 && !bit hi 31) 0x174 31 ++
    (s.stagedOf p).flatMap (fun e =>
      let off := e.1 % 4096
      if 0x800 ≤ off ∧ off < 0xD80 then (List.range 4).flatMap (fun b => failIf (bit e.2.toNat (8 * b + 7)) off (8 * b)) else [])

/-- A single commit of an MC page may stage no plan field (R381). -/
def State.mcFails (s : State) (m : Nat) : Fails :=
  planOffs.flatMap (fun o => failIf (s.isStaged (pgMc m) o) o 0) ++ s.mcOwnFails m

/-- The rules of a page, the plan rules of a group commit apart. -/
def State.pageFails (s : State) : Kind → Nat → Fails
  | .gaffer, _ => s.gafferFails
  | .supply, _ => s.supplyFails
  | .thermal, _ => s.thermalFails
  | .health, _ => s.healthFails
  | .sess, _ => s.sessFails
  | .nte, _ => s.nteFails
  | .axis, n => s.axisFails n
  | .cue, _ => s.cueFails
  | .net, _ => s.netFails
  | .port, p => s.portFails p
  | .macsec, _ => s.macsecFails
  | .cmdclass, _ => failIf (outside 1 1024 (s.next pgCmd 0x104)) 0x104 0
  | .csi, p => s.csiFails p
  | .isp, m => s.ispFails m
  | .trk, _ => s.trkFails
  | .jsc, _ => s.jscFails
  | .reels, _ => (List.range 32).flatMap s.reelFails
  | .faults, _ => s.ringFails pgFaults 0x100 6 15
  | .mc, m => s.mcOwnFails m
  | .cl, c => s.clFails c
  | _, _ => []

/-- The rules a single commit must meet. -/
def State.commitFails (s : State) (page : Nat) : Fails :=
  match pageKind page with
  | some (.mc, m) => s.mcFails m
  | some (k, i) => s.pageFails k i
  | none => []

/-! ### The plan (R381, R597) -/

/-- The selected MC pages, ascending. -/
def State.lowest (pages : List Nat) (p : Nat → Option (Nat × Nat)) : Option (Nat × Nat × Nat) :=
  pages.findSome? (fun m => (p m).map (fun f => (m, f.1, f.2)))

/-- The share field at which the running sum first exceeds 15/16 of the reserved capacity. -/
def State.sumFail (s : State) (m : Nat) : Option (Nat × Nat) :=
  let cap := s.reservedCap (s.next (pgMc m) 0x108)
  let offs := (List.range 16).map (fun i => 0x110 + 4 * i)
  ((List.range 16).findSome? (fun i =>
    let sum := ((offs.take (i + 1)).map (s.next (pgMc m))).foldl (· + ·) 0
    if 15 * cap < 16 * sum then some (0x110 + 4 * i, 0) else none))

/-- A plan value out of range, or a share below what bound jobs hold. -/
def State.planFails (s : State) (m : Nat) : Fails :=
  let p := pgMc m
  failIf (outside 32 60 (s.next p 0x108)) 0x108 0 ++ failIf (outside 50 95 (s.next p 0x10C)) 0x10C 0 ++
    (List.range 8).flatMap (fun c =>
      failIf (s.next p (0x110 + 4 * c) < s.shareHeld false c 0) (0x110 + 4 * c) 0 ++
        failIf (s.next p (0x130 + 4 * c) < s.shareHeld true c 0) (0x130 + 4 * c) 0) ++
    (List.range 24).flatMap (fun i => failIf (outside 100 65535 (s.next p (0x200 + 4 * i))) (0x200 + 4 * i) 0)

/-- The first plan rule that fails for a group commit of these MC pages, when anything is staged there: the page and the field.
A present page left out fails where a plan field is staged. -/
def State.planFail (s : State) (sel : List Nat) : Option (Nat × Nat × Nat) :=
  if sel.all (fun m => (s.stagedOf (pgMc m)).isEmpty) then none
  else
    let all := if sel.any (fun m => planOffs.any (s.isStaged (pgMc m))) then List.range s.fuse.grade.controllers else []
    match all.find? (fun m => !sel.contains m), sel with
    | some m, _ => some (m, 0x108, 0)
    | none, [] => none
    | none, m0 :: _ =>
      let shared := [0x108, 0x10C] ++ (List.range 16).map (fun i => 0x110 + 4 * i)
      (State.lowest sel (fun m => firstFail (s.planFails m))).or
        ((State.lowest sel (fun m => (shared.find? (fun o => s.next (pgMc m) o != s.next (pgMc m0) o)).map (·, 0))).or
          ((s.sumFail m0).map (fun f => (m0, f.1, f.2))))

end Sys2Proof.Machine
end

