-- ==== Sys2Proof/Machine/Codec.lean ====
section
/-! DEFINITION. Video codecs (R446 to R451). Picture content, syntax errors, random access points and the order of output
are what the named standards say of a bitstream, so they are free values. -/

namespace Sys2Proof.Machine

/-! ### Stream contexts (R447) -/

def State.vcNat (s : State) (v c o n : Nat) : Nat := s.winNat (pgVc v) 128 c o n
def State.vcMode (s : State) (v c : Nat) : Nat := s.vcNat v c 0 1

/-- Contexts with MODE other than 0, ascending. -/
def State.vcIds (s : State) (v : Nat) : List Nat :=
  (s.winTab.filter (fun p => p.1 / 2 ^ 32 = pgVc v ∧ p.1 % 128 = 0)).map (fun p => p.1 % 2 ^ 32 / 128)

def VcCtx.reset (c : Nat) : VcCtx := ⟨c, false, [], 0, 0, false, 0⟩

/-- What a codec holds of a context. -/
def State.vcCtx (s : State) (v c : Nat) : VcCtx :=
  (((s.vcs[v]?).getD []).find? (fun x => x.ctx = c)).getD (VcCtx.reset c)
def State.setVc (s : State) (v : Nat) (x : VcCtx) : State :=
  { s with vcs := s.vcs.setIfInBounds v ((((s.vcs[v]?).getD []).filter (fun y => y.ctx ≠ x.ctx)) ++ [x]) }
def State.dropVc (s : State) (v c : Nat) : State :=
  { s with vcs := s.vcs.setIfInBounds v (((s.vcs[v]?).getD []).filter (fun y => y.ctx ≠ c)) }

/-- Fabric port of a codec. -/
def vcPort (v : Nat) : Nat := 12 + v

/-- A context's ring of access units: base and log of its blocks. -/
def State.vcRing (s : State) (v c : Nat) : Option (Nat × Nat) :=
  if s.vcMode v c = 1 then
    let f := s.vcNat v c 2 2
    if s.flowType f ≠ 0 ∧ s.flowNat f 65 1 = v + 1 then some (s.flowNat f 56 8 % 2 ^ 40, s.flowNat f 64 1) else none
  else if s.vcMode v c = 2 then some (s.vcNat v c 8 8, s.vcNat v c 16 1)
  else none

/-- Counts of a context and of the page, with the page's cause. -/
def State.vcCount (s : State) (v c off pageOff cause : Nat) : State :=
  ((s.setWin (pgVc v) 128 c [(off, 4, min (s.vcNat v c off 4 + 1) 0xFFFFFFFF)]).satReg (pgVc v) pageOff).raise (pgVc v) cause

/-- An access unit or frame discarded by an error, or because of an earlier one or for want of room (R449). -/
def State.vcErr (s : State) (v c : Nat) : State := s.vcCount v c 104 0x110 1
def State.vcDrop (s : State) (v c : Nat) : State := s.vcCount v c 100 0x10C 2

/-! ### DECODE_PICTURE -/

/-- The output of a decoding context. -/
def State.vcOut (s : State) (v c : Nat) : OutDesc :=
  outDesc (vcPort v) (s.vcNat v c 17 2) (s.vcNat v c 20 4) (s.vcNat v c 24 8) (s.vcNat v c 32 4)
    ((List.range 32).map (fun i => BitVec.ofNat 8 (s.vcNat v c (36 + i) 1)))

/-- One picture in display order. With OVERWRITE = 0 whether a buffer is free is a free value: the manual gives decoders
no OUT_RD. -/
def State.vcPicture (s : State) (v c : Nat) (arrival : Tk) : State :=
  let cfg := s.vcNat v c 17 2
  let o := s.vcOut v c
  if !bit cfg 0 then s
  else
    let (s, room) := s.drawBool
    if !(bit cfg 6 || room) then s.vcDrop v c
    else
      let x := s.vcCtx v c
      let n := o.width * o.height * o.channels
      let (s, f) := s.drawBytes (if o.format = 3 then o.frameBytes else 2 * n)
      let (frame, sat) :=
        if o.format = 3 then (f, 0) else outPixels o (o.width * o.height) ((List.range n).map (fun i => fld f (2 * i) 2))
      let (s, r) := s.drawBytes 18
      let s := s.putFrame o x.wr frame [] (outRecord (x.wr + 1) arrival.toNat (4 * b2n (sat != 0)) (fld r 0 2) (fld r 2 8) (fld r 10 8))
      let s := s.setVc v { x with wr := x.wr + 1 }
      (s.setWin (pgVc v) 128 c [(96, 4, (s.vcNat v c 96 4 + 1) % 2 ^ 32)]).raise (pgVc v) 0

/-- Outputs `k` held pictures in an order the stream gives. -/
def State.vcFlush (s : State) (v c : Nat) : Nat → State
  | 0 => s
  | k + 1 =>
    let x := s.vcCtx v c
    match x.held with
    | [] => s
    | h :: hs =>
      let (s, i) := s.drawNat 16
      let i := i % (hs.length + 1)
      ((s.setVc v { x with held := (h :: hs).eraseIdx i }).vcPicture v c ((h :: hs).getD i h)).vcFlush v c k

/-- A decoded access unit: its picture is held until its turn; JPEG and raw pictures go out at once. -/
def State.vcDecoded (s : State) (v c : Nat) (arrival : Tk) : State :=
  let s := s.incReg (pgVc v) 0x104
  if 3 ≤ s.vcNat v c 1 1 then s.vcPicture v c arrival
  else
    let x := s.vcCtx v c
    let s := s.setVc v { x with held := x.held ++ [arrival] }
    let (s, k) := s.drawNat 8
    s.vcFlush v c (min k (x.held.length + 1))

/-- The next access unit of a context, when it holds a complete one: WR_BLK, RD_BLK and ARRIVAL. -/
def State.vcNext (s : State) (v c : Nat) : Option (Nat × Nat × Nat) :=
  match s.vcRing v c with
  | none => none
  | some (base, n) =>
    let (_, wr, rd) := s.auCounts (vcPort v) base
    if wr = rd ∨ n < 2 then none else some (wr, rd, fld (s.rawBytes (auBlock base n rd) 64) 8 5)

/-- The context with the oldest ARRIVAL, then the lowest index. -/
def State.vcChoose (s : State) (v : Nat) : List Nat → Option (Nat × Nat × Nat × Int)
  | [] => none
  | c :: cs =>
    match s.vcNext v c, s.vcChoose v cs with
    | none, r => r
    | some (w, r, a), none => some (c, w, r, s.extendTk a)
    | some (w, r, a), some b => if b.2.2.2 < s.extendTk a then some b else some (c, w, r, s.extendTk a)

/-- Works on the access unit at RD_BLK of a context. -/
def State.vcTake (s : State) (v c base n wr rd : Nat) : State :=
  let (s, hd, _) := s.readVia (vcPort v) (auBlock base n rd) 64
  let k := min (auBlocks (fld hd 0 4)) (auUsed wr rd)
  let (s, _, bad) := s.getBlocks (vcPort v) base n rd k
  let s := match bad with | some (a, r) => s.tagFault (pgVc v) a r | none => s
  let (s, syn) := s.drawBool
  let (s, rap) := s.drawBool
  let rap := rap || 3 ≤ s.vcNat v c 1 1
  let x := s.vcCtx v c
  let s :=
    if bad.isSome || bit (fld hd 13 1) 0 || syn then (s.setVc v { x with lost := true }).vcErr v c
    else if x.lost && !rap then s.vcDrop v c
    else (s.setVc v { x with lost := false }).vcDecoded v c (BitVec.ofNat 40 (fld hd 8 5))
  let s := s.writeVia (vcPort v) (base + 64) (leBytes 4 (rd + k))
  s.setWin (pgVc v) 128 c [(108, 4, fld hd 4 4)]

/-- DECODE_PICTURE. -/
def decodePicture (v : Nat) (s : State) : State :=
  if !s.pagePresent (pgVc v) || !s.enabled (pgVc v) then s
  else
    match s.vcChoose v (s.vcIds v) with
    | none => s
    | some (c, wr, rd, _) =>
      match s.vcRing v c with
      | none => s
      | some (base, n) => s.vcTake v c base n wr rd

def execDecodePicture (vc : Fin 2) (s : State) : Host.Outcome State Fault Refusal := .next (decodePicture vc.val s)

/-! ### ENCODE_FRAME (R450) -/

/-- The ISP output whose NV12 frames a control block address names. -/
def State.nv12At (s : State) (a : Nat) : Option OutDesc :=
  ((List.range 12).map (fun i => (i / 3, i % 3))).findSome? (fun p =>
    let o := s.ispOut p.1 p.2
    if bit (s.outW p.1 p.2 0) 0 && o.format == 3 && o.clmem.isNone && o.base == a then some o else none)

/-- Codes a frame into the context's ring as one access unit. -/
def State.vcEncode (s : State) (v c : Nat) (time : Nat) : State :=
  let x := s.vcCtx v c
  let size := s.drawNat 24
  let len := size.2
  let body := size.1.drawBytes len
  let more := body.1.drawBytes 8
  let f := more.2
  let s := more.1
  let base := s.vcNat v c 24 8
  let n := s.vcNat v c 32 1
  let cnt := s.auCounts (vcPort v) base
  let hdr := auHeader len x.auSeq.toNat (fld f 0 5) (b2n x.gap + 2 * (fld f 5 1 % 2)) (fld f 6 2) (time / 256) []
  let put := cnt.1.putAu (vcPort v) base n cnt.2.1 cnt.2.2 hdr body.2
  let s := put.1
  if put.2 then
    let s := s.setVc v { x with auSeq := x.auSeq + 1, gap := false, srcSeq := x.srcSeq + 1 }
    ((s.setWin (pgVc v) 128 c [(96, 4, (s.vcNat v c 96 4 + 1) % 2 ^ 32)]).incReg (pgVc v) 0x108).raise (pgVc v) 0
  else (s.setVc v { x with gap := true, srcSeq := x.srcSeq + 1 }).vcDrop v c

/-- ENCODE_FRAME: the next frame of the source in WR_SEQ order. -/
def encodeFrame (v c : Nat) (s : State) : State :=
  if !s.pagePresent (pgVc v) || !s.enabled (pgVc v) || s.vcMode v c ≠ 3 then s
  else
    let src := s.vcNat v c 8 8
    let x := s.vcCtx v c
    let (s, cb, r) := s.readVia (vcPort v) src 64
    if r ≠ .ok ∨ fld cb 0 4 = x.srcSeq % 2 ^ 32 then s
    else
      match s.nv12At src with
      | none =>
        let (s, good) := s.drawBool
        let (s, t) := s.drawNat 40
        if good then s.vcEncode v c t else (s.setVc v { x with srcSeq := x.srcSeq + 1 }).vcErr v c
      | some o =>
        let b := x.srcSeq % o.nbuf
        if o.nbuf < auUsed (fld cb 0 4) (x.srcSeq % 2 ^ 32) then (s.setVc v { x with srcSeq := x.srcSeq + 1 }).vcDrop v c
        else
          let a := src + 2048 + b * o.stride
          let (s, rec_, r) := s.tagRead (vcPort v) (src + 64 + 64 * b) 64
          let (s, _, r2) := s.tagRead (vcPort v) a o.frameBytes
          let (bad, at_) := if r ≠ .ok then (r, src + 64 + 64 * b) else (r2, a)
          if bad ≠ .ok then ((s.tagFault (pgVc v) at_ bad).setVc v { x with srcSeq := x.srcSeq + 1 }).vcErr v c
          else s.vcEncode v c (fld rec_ 4 5)

def execEncodeFrame (vc : Fin 2) (ctx : Fin 1024) (s : State) : Host.Outcome State Fault Refusal :=
  .next (encodeFrame vc.val ctx.val s)

/-- A context's MODE is stored. With 0, what was decoded is written before the context ends (R584); another MODE starts it
anew, an encoder at the frames completed from now on. -/
def State.vcStored (s : State) (v c : Nat) : State :=
  if s.vcMode v c = 0 then (s.vcFlush v c (s.vcCtx v c).held.length).dropVc v c
  else s.setVc v { VcCtx.reset c with srcSeq := if s.vcMode v c = 3 then fld (s.rawBytes (s.vcNat v c 8 8) 4) 0 4 else 0 }

end Sys2Proof.Machine
end

