-- ==== Sys2Proof/Machine/Flows.lean ====
section
/-! DEFINITION. The flow engine (R409 to R418): depacketisation, gaps, access units, gating and phase samples. -/

namespace Sys2Proof.Machine

/-! ### Depacketisation (R412) -/

/-- What a packet brings to its access unit: bytes, a fragmented unit in progress after it, the next fragment offset;
none where the packetization is unsupported or does not continue the access unit. -/
abbrev Part := Option (List Byte × Bool × Nat)

def startCode : List Byte := [0, 0, 0, 1]

/-- NAL units of an aggregation packet, each after its two length bytes. -/
def aggregate : Nat → List Byte → Option (List Byte)
  | 0, _ => none
  | n + 1, b =>
    match b with
    | [] => some []
    | _ =>
      let len := beFld b 0 2
      if b.length < 2 + len ∨ len = 0 then none
      else (aggregate n (b.drop (2 + len))).map (fun r => startCode ++ (b.drop 2).take len ++ r)

/-- RFC 6184: single NAL unit, STAP-A, FU-A. -/
def h264Part (fu : Bool) (b : List Byte) : Part :=
  let t := fld b 0 1 % 32
  if b = [] ∨ t = 0 then none
  else if t < 24 then (if fu then none else some (startCode ++ b, false, 0))
  else if t = 24 then (if fu ∨ b.length < 2 then none else (aggregate b.length (b.drop 1)).map (fun r => (r, false, 0)))
  else if t = 28 then
    let h := fld b 1 1
    if b.length < 2 then none
    else if bit h 7 then
      if fu ∨ bit h 6 then none
      else some (startCode ++ [BitVec.ofNat 8 (fld b 0 1 / 32 * 32 + h % 32)] ++ b.drop 2, true, 0)
    else if fu then some (b.drop 2, !bit h 6, 0)
    else none
  else none

/-- RFC 7798: single NAL unit, aggregation packet, fragmentation unit. -/
def h265Part (fu : Bool) (b : List Byte) : Part :=
  let t := bits (fld b 0 1) 6 1
  if b.length < 2 then none
  else if t < 48 then (if fu then none else some (startCode ++ b, false, 0))
  else if t = 48 then (if fu ∨ b.length < 3 then none else (aggregate b.length (b.drop 2)).map (fun r => (r, false, 0)))
  else if t = 49 then
    let h := fld b 2 1
    if b.length < 3 then none
    else if bit h 7 then
      if fu ∨ bit h 6 then none
      else some (startCode ++ [BitVec.ofNat 8 (fld b 0 1 / 128 * 128 + (h % 64) * 2 + fld b 0 1 % 2), b.getD 1 0] ++ b.drop 3,
        true, 0)
    else if fu then some (b.drop 3, !bit h 6, 0)
    else none
  else none

/-- RFC 2435: fragments in ascending offset; the main header and the quantization header of the first are kept. -/
def jpegPart (open_ : Bool) (next : Nat) (b : List Byte) : Part :=
  let ofs := beFld b 1 3
  let ty := fld b 4 1
  let q := fld b 5 1
  let restart := if 64 ≤ ty ∧ ty ≤ 127 then 4 else 0
  let quant := if 128 ≤ q ∧ ofs = 0 then 4 + beFld b (8 + restart + 2) 2 else 0
  if b.length < 8 + restart + quant ∨ ofs ≠ (if open_ then next else 0) then none
  else some (if open_ then b.drop 8 else b, false, ofs + (b.length - 8 - restart - quant))

/-- A packet of a flow: sequence number and its width, timestamp, end mark, format fields, payload. -/
structure Pkt where
  seq : Nat
  width : Nat
  ts : Word
  last : Bool
  fmt : List Byte
  data : List Byte
  deriving DecidableEq, Repr

/-- The packet of a frame. -/
def pktOf (f : Frame) : Option Pkt :=
  match f.payload with
  | .avtp _ _ seq ts last fmt data => some ⟨seq.toNat, 8, ts, last, fmt, data⟩
  | .rtp _ _ seq ts marker data => some ⟨seq.toNat, 16, ts, marker, [], data⟩
  | _ => none

/-- What a packet brings to a flow of a type. -/
def partOf (ty : Nat) (f : Flow) (p : Pkt) : Part :=
  if ty = 1 ∨ ty = 4 then h264Part f.fu p.data
  else if ty = 5 then h265Part f.fu p.data
  else if ty = 2 then jpegPart f.open_ f.nextOff p.data
  else some (p.data, false, 0)

/-! ### Access units (R413, R415) -/

/-- The access unit in progress is discarded. -/
def State.flowAbort (s : State) (e : Nat) : State :=
  let f := s.flow e
  if f.open_ then
    (s.setFlow e { f with open_ := false, data := [], fu := false, gap := true }).flowCount e 100
  else s.setFlow e { f with fu := false, gap := true }

/-- Writes the finished access unit, or discards it for want of room. -/
def State.flowWrite (s : State) (p e : Nat) : State :=
  let f := s.flow e
  let base := s.flowNat e 56 8 % 2 ^ 40
  let ty := s.flowType e
  let hdr := auHeader f.data.length f.auSeq.toNat f.arrival.toNat (b2n f.gap + 2 * b2n f.secured) f.firstSeq f.mediaTs.toNat
    (if ty = 3 then f.fmt else [])
  let put := s.putAu (netPort p) base (s.flowNat e 64 1) f.wr f.rd hdr f.data
  let s := put.1
  let g := { f with open_ := false, data := [], fu := false }
  if put.2 then
    (s.setFlow e { g with gap := false, auSeq := f.auSeq + 1 }).setWin pgFlows 128 e
      [(92, 4, min (s.flowNat e 92 4 + 1) 0xFFFFFFFF), (108, 4, s.tk / 256)]
  else (s.setFlow e { g with gap := true }).flowCount e 96

/-- An access unit begins: RD_BLK is read. -/
def State.flowBegin (s : State) (p e : Nat) (fr : Frame) (k : Pkt) : State :=
  let (s, wr, rd) := s.auCounts (netPort p) (s.flowNat e 56 8 % 2 ^ 40)
  s.setFlow e { s.flow e with open_ := true, data := [], arrival := BitVec.ofNat 40 (s.rxTime p fr), firstSeq := k.seq % 65536,
                              mediaTs := k.ts, fmt := k.fmt, secured := true, fu := false, nextOff := 0, wr := wr, rd := rd }

/-- One packet of a flow. -/
def State.flowPacket (s : State) (p e : Nat) (fr : Frame) (k : Pkt) : State :=
  let f := s.flow e
  let jump := match f.lastSeq with | some q => k.seq != (q + 1) % 2 ^ k.width | none => false
  let s := s.setFlow e { f with lastSeq := some k.seq }
  let cut := jump && f.open_
  let s := if jump then s.flowAbort e else s
  if cut || f.skip then s.setFlow e { s.flow e with skip := !k.last }
  else
    match partOf (s.flowType e) (s.flow e) k with
    | none => let s := s.flowAbort e; s.setFlow e { s.flow e with skip := !k.last }
    | some (bs, fu, next) =>
      let s := if (s.flow e).open_ then s else s.flowBegin p e fr k
      let g := s.flow e
      let s := s.setFlow e { g with data := g.data ++ bs, fu := fu, nextOff := next, secured := g.secured && fr.secured.isSome }
      if !k.last then s else if fu then s.flowAbort e else s.flowWrite p e

/-- FLOW_FRAME: the frame at the front of ingress staging that matches an entry with a ring. -/
def flowFrame (p : Nat) (s : State) : State :=
  match (s.port p).staging.head? with
  | none => s
  | some fr =>
    match s.flowOf p fr with
    | none => s
    | some e =>
      if s.flowType e = 6 then s
      else
        let s := s.popStaging p
        if ipBad fr then s.badFrame
        else if bit (s.flowNat e 1 1) 7 then s.flowCount e 104
        else match pktOf fr with
          | some k => s.flowPacket p e fr k
          | none => s

def execFlowFrame (p : Fin 4) (s : State) : Host.Outcome State Fault Refusal := .next (flowFrame p.val s)

/-! ### PHASE_FRAME (R418, R431) -/

/-- One sample reaches every axis of the flow. -/
def State.phaseSample (s : State) (e : Nat) (b : List Byte) : State :=
  let z := sext 64 (beFld b 0 8)
  let t := s.extendTk ((beFld b 8 6 * 1000000000 + beFld b 14 4) % 2 ^ 32 * 256 + beFld b 18 1)
  iterate (fun n s => if s.axSource n = 6 ∧ s.rn (pgAx n) 0x124 % 2048 = e then s.axSample n z t else s) 8 0 s

/-- A PHASE frame in the model's hands. -/
def State.phaseDeliver (s : State) (p : Nat) (f : Frame) (h : ReelHdr) (body : List Byte) : State :=
  match s.flowOf p f with
  | none => s.noFlow
  | some e =>
    if bit (s.flowNat e 1 1) 7 then s.flowCount e 104
    else (List.range h.count.toNat).foldl (fun s i => s.phaseSample e ((body.drop (24 * i)).take 24)) s

/-- PHASE_FRAME: at the front of the command buffer, else of ingress staging. A datagram of a TYPE 6 entry that is no PHASE frame
has not the header R420 asks for, and counts in BAD_FRAME. -/
def phaseFrame (p : Nat) (s : State) : State :=
  match (s.port p).cmdBuf.head?.filter (fun f => !s.forApu f) with
  | some _ => s.reelFrame p 0x21 (fun f h b s => s.phaseDeliver p f h b)
  | none =>
    match (s.port p).staging.head? with
    | none => s
    | some f =>
      match s.flowOf p f with
      | none => s
      | some e =>
        if s.flowType e ≠ 6 then s
        else
          let s := s.popStaging p
          match f.payload with
          | .reel h b => if ipBad f || !hdrOk h b || h.type != 0x21 then s.badFrame else s.phaseDeliver p f h b
          | _ => s.badFrame

def execPhaseFrame (p : Fin 4) (s : State) : Host.Outcome State Fault Refusal := .next (phaseFrame p.val s)

/-! ### FLOW_GATE (R416, R417) -/

/-- Sets or clears GATED; the entry's generation advances. -/
def State.setGated (s : State) (e : Nat) (g : Bool) : State :=
  let b := s.flowNat e 1 1
  s.setWin pgFlows 128 e [(1, 1, b % 128 + 128 * b2n g)]

/-- FLOW_GATE with ACTION 1. -/
def State.gateClose (s : State) (e : Nat) : State :=
  if s.flowType e = 0 then s
  else
    let s := s.setGated e true
    if (s.flow e).open_ then s.flowAbort e else s

/-- FLOW_GATE with ACTION 0. -/
def State.gateOpen (s : State) (e : Nat) : State :=
  if s.flowType e = 0 ∨ !bit (s.flowNat e 1 1) 7 then s
  else (s.setGated e false).setFlow e { s.flow e with gap := true, auSeq := 0, lastSeq := none, skip := false }

/-- FLOW_GATE with an ACTION; FLOW_RANGE for a flow above 2,047 (R300). -/
def flowGate (n : Nat) (act : Nat) (f : State → Nat → State) (s : State) : State :=
  s.takeCmd n (fun b => opIs 0x09 b && min 1 (fld b 10 1) == act) (fun c s =>
    if 2047 < fld c.bytes 8 2 then s.done c 0x62 8 [] else (f s (fld c.bytes 8 2)).done c 0 0 [])

def execFlowGateClose (reel : Fin 32) (s : State) : Host.Outcome State Fault Refusal :=
  .next (flowGate reel.val 1 State.gateClose s)

def execFlowGateOpen (reel : Fin 32) (s : State) : Host.Outcome State Fault Refusal :=
  .next (flowGate reel.val 0 State.gateOpen s)

/-- What NET holds of an entry starts anew when its TYPE is stored. -/
def State.flowStored (s : State) (e : Nat) : State :=
  if s.flowType e = 0 then s.setFlow e Flow.reset else s

end Sys2Proof.Machine
end

