-- ==== Sys2Proof/Machine/Commit.lean ====
section
/-! DEFINITION. Commits (R57 to R65): what a commit puts into force and what follows from it, boundaries, aborts, the
group commit, and SOFT_RESET (R48, R147, R392). -/

namespace Sys2Proof.Machine

/-! ### What a commit applies -/

/-- Puts a page's staged values into force; nothing of the page stays staged. -/
def State.putStaged (s : State) (page : Nat) : State :=
  let s' := (s.stagedOf page).reverse.foldl (fun s p => s.setReg page (p.1 % 4096) p.2) s
  { s' with staged := dropPage s'.staged page (fun _ => false) }

/-- The words a commit stages for a cue slot, by their offset in the slot. -/
def State.cueStaged (s : State) (i : Nat) : SMap Word :=
  cueRegs.filterMap (fun o => (mapGet? s.staged (rkey pgCue (cueOff i o))).map (fun w => (o, w)))

/-- A changed cue slot: at once, or after the firing in progress when it has been handed off (R348). -/
def State.applyCueSlot (s : State) (i : Nat) : State :=
  if !s.cueTouched i then s
  else if (s.cue i).handed then
    s.setCue i { s.cue i with later := (s.cueStaged i).foldl (fun m p => mapPut m p.1 p.2) (s.cue i).later }
  else (s.putCue i (s.cueStaged i)).armCue i

/-- A commit of the cue page. -/
def State.applyCues (s : State) : State :=
  let s := [0x108, 0x10C, 0x110].foldl (fun s o => s.setRn pgCue o (s.next pgCue o)) s
  let s := iterate (fun i s => s.applyCueSlot i) 64 0 s
  { s with staged := dropPage s.staged pgCue (fun _ => false) }

/-- A commit of an axis that changes SOURCE, MODE, AX_INC or the modulus resets its filter (R334); `old` is the state
before it. Its armed phase slots are computed anew. -/
def State.axisCommitted (s old : State) (n : Nat) : State :=
  let p := pgAx n
  let a := s.axis n
  let moved := old.changes p 0x100 4 0 || old.changes p 0x104 31 0 || old.changes p 0x108 31 0 || old.changes p 0x10C 31 0
  let a := if moved then { a.restart with pos := s.axReduce n a.pos } else a
  let a := if old.isStaged p 0x100 && s.axZMode n == 2 then { a with homed := false } else a
  let s := s.setAxis n a
  s.recueAll n none

/-- A commit of the reels page: ENABLE bits that changed (R281). -/
def State.reelCommitted (s old : State) (n : Nat) : State :=
  if old.reelOn n && !s.reelOn n then s.disableReel n (old.reelLog n)
  else if !old.reelOn n && s.reelOn n then s.enableReel n else s

/-- What follows the new values of a page; `old` is the state before the commit. -/
def State.committed (s old : State) : Kind → Nat → State
  | .health, _ =>
    let s := if s.dailyEn && !old.dailyEn then { s with dailyFrom := s.uptime } else s
    if old.isStaged pgHealth 0x10C then
      ({ s with sec := { s.sec with packBusy := true } }).setRn pgHealth 0x110 (s.rn pgHealth 0x110 ||| 2)
    else s
  | .sess, _ => s.lifetimes
  | .nte, _ => if s.ntSource = 0 ∧ old.ntSource ≠ 0 then s.setNt 0 (s.ntBit 8) (s.ntBit 9) (s.ntBit 10) else s
  | .axis, n => s.axisCommitted old n
  | .port, p => s.txFill p
  | .isp, m =>
    if bit (s.rn (pgIsp m) 0x10C) 31 || old.changes (pgIsp m) 0x11C 31 0 || old.changes (pgIsp m) 0x10C 31 0 then
      (s.setIsp m { s.isp m with wantParams := true }).setRn (pgIsp m) 0x10C (s.rn (pgIsp m) 0x10C % 2 ^ 31)
    else s
  | .reels, _ => iterate (fun n s => s.reelCommitted old n) 32 0 s
  | .faults, _ => if bit (s.rn pgFaults 0x104) 31 && !bit (old.rn pgFaults 0x104) 31 then s.drainRecords else s
  | _, _ => s

/-- The delay codes staged on an MC page go into force (R372). -/
def State.putDly (s : State) (page : Nat) : State :=
  let dly (off : Nat) : Bool := 0x800 ≤ off && off < 0xD80
  match pageKind page with
  | some (.mc, m) =>
    let new := (s.stagedOf page).filter (fun p => dly (p.1 % 4096))
    if new.isEmpty then s
    else
      State.dlyJudge { s with
        dly := new.reverse.foldl (fun d p => mapPut d (352 * m + (p.1 % 4096 - 0x800) / 4) p.2) s.dly
        staged := dropPage s.staged page (fun off => !dly off) } m
  | _ => s

/-- Applies the staged set of a page in one step; an armed commit is done. -/
def State.applyStaged (s : State) (page : Nat) : State :=
  let s' :=
    match pageKind page with
    | some (.cue, _) => s.applyCues
    | some (.mc, _) => (s.putDly page).putStaged page
    | some (.port, p) => ((s.creditNow p).putStaged page).committed s .port p
    | some (k, i) => (s.putStaged page).committed s k i
    | none => s
  s'.setArmed page false

/-! ### Boundaries (R63) -/

/-- A core's STATE is one in which it holds resources of a bound job (R147); one that runs a daily reads RUNNING too. -/
def Core.holds (c : Core) : Bool := c.mode != .idle

/-- The unit is idle, or has no boundary, at the moment of the commit. DESIGN CHOICE (log 59): R63 and R432 name no boundary for the
NET common page, whose commits apply at once. -/
def State.boundaryNow (s : State) (page : Nat) : Bool :=
  match pageKind page with
  | some (.gaffer, _) => false
  | some (.nte, _) => s.ntSource == 0
  | some (.axis, n) => s.axSource n == 0
  | some (.port, p) => !s.enabled page || !(s.port p).link
  | some (.macsec, _) => (List.range 4).all (fun p => !(s.port p).link)
  | some (.cmdclass, _) => (List.range 4).all (fun p => !(s.port p).link)
  | some (.csi, p) => !s.enabled page || !s.csiClk.contains p
  | some (.isp, m) => !s.enabled page || (!(s.isp m).active && !(s.isp m).complete)
  | some (.codec, v) => !s.enabled page || (s.vcIds v).isEmpty
  | some (.trk, _) => !s.enabled page || s.trkDue.isEmpty
  | some (.mc, m) => !s.queue.any (fun q => q.ch / 8 == m)
  | some (.cl, c) => (List.range 16).all (fun k => (s.core (16 * c + k)).mode == .idle)
  | some (.tc, n) => (s.core n).mode == .idle
  | _ => true

/-! ### COMMIT (R59 to R62) -/

/-- The role meets the lock of every region that holds a staged value (R60). -/
def State.commitRole (s : State) (page : Nat) (r : Role) : Bool :=
  (s.stagedOf page).all (fun p => roleMeets r (s.lock page (regionOf (p.1 % 4096))))

/-- A staged value lies in a region locked at installer or maker (R55). -/
def State.commitLocked (s : State) (page : Nat) : Bool :=
  (s.stagedOf page).any (fun p => let l := s.lock page (regionOf (p.1 % 4096)); l == 1 || l == 2)

/-- The audit entry of a commit: one for the whole staged set (R55). -/
def State.auditCommit (s old : State) (page : Nat) (who : Requester) : State :=
  if old.commitLocked page then
    s.audit 2 who 0 page 0x20 (s.reg page 0x24) (w32 (old.stagedOf page).length)
  else s

/-- A commit below a lock, or an abort: rejected, ROLE_DENIED (R60, R61). -/
def State.commitDenied (s : State) (page : Nat) (who : Requester) (v : Word) (count : Bool) : State :=
  (s.commitRes page 4 0 0 count).deny page 0x20 who v

/-- A 0x5A write to COMMIT. -/
def State.commit5A (s : State) (page : Nat) (who : Requester) : State :=
  if s.armed page then (s.errAcc page 0x85 who true 0x20).discard
  else if (s.stagedOf page).isEmpty then (s.commitRes page 7 0 0 true).ok
  else if !s.commitRole page (s.roleOf who) then s.commitDenied page who 0x5A true
  else
    match firstFail (s.commitFails page) with
    | some (off, b) => (s.commitRes page 3 off b true).ok
    | none =>
      let s' :=
        if s.atBoundary page && !s.boundaryNow page then
          let t := s.putDly page
          if (t.stagedOf page).isEmpty then t.commitRes page 1 0 0 true
          else (t.setArmed page true).commitRes page 2 0 0 true
        else (s.applyStaged page).commitRes page 1 0 0 true
      (s'.auditCommit s page who).ok

/-- A 0xA5 write to COMMIT. -/
def State.commitA5 (s : State) (page : Nat) (who : Requester) : State :=
  if (s.stagedOf page).isEmpty then (s.commitRes page 7 0 0 false).ok
  else if !s.commitRole page (s.roleOf who) then s.commitDenied page who 0xA5 false
  else
    ((({ s with staged := dropPage s.staged page (fun _ => false) }).setArmed page false).commitRes page 5 0 0 false).ok

/-- A write to COMMIT. -/
def State.commitWrite (s : State) (page : Nat) (who : Requester) (v : Word) : State :=
  if v = 0x5A then s.commit5A page who
  else if v = 0xA5 then s.commitA5 page who
  else (s.errAcc page 0x84 who true 0x20).discard

/-- ARMED_COMMIT_APPLY: the unit's boundary comes (R59). -/
def armedCommitApply (page : Nat) (s : State) : State :=
  if s.pagePresent page && s.armed page then (s.applyStaged page).commitRes page 1 0 0 false else s

def execArmedCommitApply (page : BitVec 16) (s : State) : Host.Outcome State Fault Refusal := .next (armedCommitApply page.toNat s)

/-! ### Group commit (R64, R65) -/

/-- The present pages the group registers select, ascending. -/
def State.groupPages (s : State) : List Nat :=
  let sel := s.rn pgSys 0x140 % 65536
  let mask := s.rn pgSys 0x144 + 2 ^ 32 * s.rn pgSys 0x148 + 2 ^ 64 * s.rn pgSys 0x14C + 2 ^ 96 * s.rn pgSys 0x150
  (List.range 0x280).filter (fun n =>
    match pageKind n with
    | some (k, i) => blockType k == sel && bit mask i && unitPresent s.fuse.grade k i
    | none => false)

/-- Why one page refuses a group commit: RESULT and field; none when it passes. -/
def State.groupRefuses (s : State) (r : Role) (page : Nat) : Option (Nat × Nat × Nat) :=
  if s.atBoundary page || s.armed page then some (8, 0, 0)
  else if (s.stagedOf page).isEmpty then none
  else if !s.commitRole page r then some (4, 0, 0)
  else
    match pageKind page with
    | some (k, i) => (firstFail (s.pageFails k i)).map (fun f => (3, f.1, f.2))
    | none => none

/-- What every refusing page of a group commit answers, by page: RESULT and field. A plan rule stands in for the page rules of
the first page that fails on values. -/
def State.groupFailures (s : State) (r : Role) (pages : List Nat) : List (Nat × Nat × Nat × Nat) :=
  let own := pages.filterMap (fun p => (s.groupRefuses r p).map (fun f => (p, f.1, f.2.1, f.2.2)))
  let plan :=
    if s.rn pgSys 0x140 % 65536 = blockType .mc then
      (s.planFail (pages.map (· - 0x80))).map (fun f => (pgMc f.1, 3, f.2.1, f.2.2))
    else none
  match own.find? (fun f => f.2.1 != 3), plan with
  | none, some f => f :: own.filter (fun x => x.1 != f.1)
  | _, _ => own

/-- GROUP_RES. -/
def State.groupRes (s : State) (result page : Nat) : State := s.setRn pgSys 0x158 (result + 65536 * page)

/-- A 0x5A write to GROUP_COMMIT; other values do nothing. -/
def State.groupWrite (s : State) (who : Requester) (v : Word) : State :=
  if v ≠ 0x5A then s
  else
    let pages := s.groupPages
    match s.groupFailures (s.roleOf who) pages with
    | f :: fs =>
      let s := ((f :: fs).foldl (fun s f => s.commitRes f.1 f.2.1 f.2.2.1 f.2.2.2 false) s).groupRes f.2.1 f.1
      if f.2.1 = 4 then s.deny f.1 0x20 who v else s
    | [] =>
      let todo := pages.filter (fun p => !(s.stagedOf p).isEmpty)
      if todo.isEmpty then s.groupRes 7 0
      else
        let s' := todo.foldl (fun s p => ((s.applyStaged p).commitRes p 1 0 0 false).auditCommit s p who) s
        s'.groupRes 1 0

/-! ### SOFT_RESET (R48) -/

/-- A controller serves a line of a range, judged line by line (R392). Every aligned 16 KiB (8 KiB) holds lines of every
channel, so only the lines of the first 32 KiB need a look. -/
def State.serves (s : State) (m a n : Nat) : Bool :=
  0 < n && (List.range (min 512 ((a + n - 1) / 64 - a / 64 + 1))).any (fun i => mcOf s.fuse.grade (lineOf a + 64 * i) == m)

/-- What R392 lets block a SOFT_RESET of an MC page. -/
def State.mcHeld (s : State) (m : Nat) : Bool :=
  s.jobs.any (fun j => s.serves m j.area j.areaBytes || j.segs.any (fun g => s.serves m g.pbase g.bytes)) ||
    (List.range 64).any (fun n => ((s.slot n).loaded || (s.slot n).verifying.isSome) &&
      (s.serves m (s.slotAddr n) s.slotBytes || s.serves m (s.tagTable n) (s.slotBytes / 16))) ||
    (List.range 32).any (fun n => s.reelOn n && s.serves m (s.reelBase n) (128 * 2 ^ s.reelLog n))

/-- The unit holds cores, slots or buffers of a bound job. -/
def State.unitHeld (s : State) : Kind → Nat → Bool
  | .tc, n => (s.core n).holds
  | .cl, c => !(s.cluster c).allocs.isEmpty || (List.range 16).any (fun k => (s.core (16 * c + k)).holds)
  | .cue, _ => (List.range 64).any (fun i => (s.cue i).owner.isSome)
  | .jsc, _ => !s.jobs.isEmpty
  | .reels, _ => s.reels.toList.any (fun r => r.reserved != 0)
  | .mc, m => s.mcHeld m
  | _, _ => false

/-- A core after SOFT_RESET (R147): what stays is what a cluster, the health state or a job's history holds. -/
def Core.softReset (c : Core) : Core := { Core.reset with faultTimes := c.faultTimes }

/-- The cluster-memory side of a cluster; its operating point and clocks are the gaffer's. -/
def Cluster.softReset (c : Cluster) : Cluster :=
  { c with mem := [], tags := [], memPoison := [], counters := Cluster.reset.counters, barriers := [], groups := [] }

/-- The entries of a page's window table go back to 0. -/
def State.dropTable (s : State) (page : Nat) : State := { s with winTab := s.winTab.filter (fun p => p.1 / 2 ^ 32 ≠ page) }

/-- The flow table goes back to its reset state but for GATED, which only FLOW_GATE and device reset write (R417). -/
def State.dropFlows (s : State) : State :=
  { s with
    winTab := (s.winTab.filter (fun p => p.1 / 2 ^ 32 ≠ pgFlows || (p.1 % 128 == 1 && bit p.2.toNat 7))).map
      (fun p => if p.1 / 2 ^ 32 = pgFlows then (p.1, 0x80) else p)
    flows := [] }

/-- The unit returns to its reset state. -/
def State.resetUnit (s : State) (page : Nat) : Kind → Nat → State
  | .gaffer, _ =>
    let s := s.dropTable page
    { s with
      jobs := s.jobs.map (fun (j : Job) => { j with phases := [] })
      power := { s.power with gains := Power.reset.gains, failReads := Power.reset.failReads, estSum := Power.reset.estSum,
                              est := Power.reset.est, windowEst := [] } }
  | .thermal, _ => { s with power := { s.power with prevHot := [], twice := [], hot100 := [], warm1ms := [], peak := none } }
  | .health, _ =>
    let s := (List.range 142).foldl (fun s u => ((s.endDaily u).setHealthSt u 0).setHealth u Health.reset) s
    { s with sec := { s.sec with pack := none, packBusy := false } }
  | .sess, _ => { s with sec := { s.sec with hands := [], frags := [], inbox := [], mboxAddr := [], mboxReply := [] } }
  | .attest, _ => { s with sec := { s.sec with att := [] } }
  | .tk, _ => { s with evts := [] }
  | .nte, _ => { s with servo := { Servo.reset with setOnce := s.servo.setOnce } }
  | .axis, n => s.setAxis n Axis.reset
  | .cue, _ => { s with cues := Vector.replicate 64 Cue.reset }
  | .cuepin, _ => { s with pins := Vector.replicate 16 Pin.reset, ppsHigh := false, ppsAt := none }
  | .port, p =>
    s.modPort p (fun x => { Port.reset with txSa := x.txSa, txNext := x.txNext, rxSc := x.rxSc, rxSas := x.rxSas,
                                            linkSession := x.linkSession, rekeyN := x.rekeyN })
  | .macsec, _ =>
    (List.range 4).foldl (fun s p => s.modPort p (fun x => { x with txSa := none, txNext := none, rxSc := 0, rxSas := [] })) s
  | .cmdclass, _ =>
    (List.range 4).foldl (fun s p => s.modPort p (fun x => { x with cmdBuf := [], hsSecond := 0, hsCount := 0 })) s
  | .flows, _ => s.dropFlows
  | .isp, m => s.setIsp m Isp.reset
  | .codec, v => { s.dropTable page with vcs := s.vcs.setIfInBounds v [] }
  | .trk, _ => { s with trkDue := [] }
  | .jsc, _ =>
    let busy := s.slots.toList.filterMap (·.verifying)
    let s := busy.foldl (fun s v => s.modReel v.reel (fun r => { r with busy := false })) s
    { s with slots := Vector.replicate 64 PSlot.reset }
  | .reels, _ => { s with reels := Vector.replicate 32 Reel.reset }
  | .faults, _ => { s with faultBuf := [] }
  | .mc, m =>
    { s with
      queue := s.queue.filter (fun q => q.ch / 8 ≠ m)
      segInit := s.segInit.filter (fun k => k / 64 ≠ m)
      fills := s.fills.filter (fun k => k / 64 ≠ m)
      dly := s.dly.filter (fun p => p.1 / 352 ≠ m)
      dlyBand := mapDel s.dlyBand m }
  | .dma, _ => { s with dma := ⟨false, false⟩ }
  | .plic, _ => { s with plicClaimed := [], plicPending := [] }
  | .cl, c => s.modCluster c Cluster.softReset
  | .tc, n => (s.dropDaily n).modCore n Core.softReset
  | _, _ => s

/-- Registers a SOFT_RESET keeps: ROLE_LOCK, ERR_INFO and ERR_ADDR; DRAM_OPEN, which clears only at reset (R575); and of the
SYS and SEC pages those that tell of the last device reset. -/
def keptReg (k : Kind) (off : Nat) : Bool :=
  off == 0x18 || off == 0x1C || off == 0x28 ||
    (match k with
     | .sys => off == 0x104 || off == 0x108 || off == 0x400
     | .sec => off == 0x100 || (0x110 ≤ off && off < 0x130)
     | _ => false)

/-- An accepted SOFT_RESET. -/
def State.softReset (s : State) (page : Nat) (k : Kind) (i : Nat) : State :=
  let armed := s.armed page
  let en := s.enabled page
  let s := s.resetUnit page k i
  let s := { s with
    regs := dropPage s.regs page (keptReg k)
    staged := dropPage s.staged page (fun _ => false)
    winBusy := s.winBusy.filter (fun p => p.1 ≠ page) }
  let s := if k = .tc then s.setRn page 8 (b2n en) else s
  let s := if k = .axis then s.recueAll i none else s
  let s := if armed then s.commitRes page 6 0 0 false else s
  if k = .plic then (List.range 0x280).foldl (fun s n => s.plicSample n) s else s

end Sys2Proof.Machine
end

