-- ==== Sys2Proof/Machine/Views.lean ====
section
/-! DEFINITION. Registers that show other state: the page header's ID, CAPS and STATUS, and the read-only registers whose value
the block computes when they are read. The measured level of a rail, the states of the data lanes of a CSI port and the load of a
codec are no part of the state, and reading one answers a free value. -/

namespace Sys2Proof.Machine

/-! ### Header (R46) -/

def idWord (k : Kind) (i : Nat) (present : Bool) : Nat := blockType k * 65536 + b2n present * 257 + 2 * i

/-- Block-specific CAPS bits (R143, R268, chapter "Stacked Memory"). -/
def capsOwn (g : Grade) : Kind → Nat
  | .tc => 0x10F
  | .cl => 0x70
  | .mc => 0xFF + 256 * b2n (g == .wq7128)
  | _ => 0

def capsWord (g : Grade) (k : Kind) : Nat :=
  2 ^ 31 * b2n ((rowsOf k).any (·.acc == .rws)) + 2 ^ 30 * b2n (isWindow k) +
    2 ^ 29 * b2n ((rowsOf k).any (fun r => 0x400 ≤ r.base && r.base < 0x800)) + capsOwn g k

/-- STATUS.BUSY: the unit is acting on work the state holds. DESIGN CHOICE (log 59): R46 says no more, so this names the work of
each kind; units whose commands do all they do in one step (axes, cues, CSI, codecs, NET common, MACsec and others) are never seen
at work. -/
def State.busy (s : State) : Kind → Nat → Bool
  | .gaffer, _ => s.clusters.toList.any (·.change.isSome)
  | .health, _ => s.sec.packBusy || s.health.toList.any (·.running)
  | .sess, _ => !s.sec.hands.isEmpty
  | .audit, _ => !s.sec.staged.isEmpty
  | .attest, _ => !s.sec.att.isEmpty
  | .port, p => !(s.port p).staging.isEmpty || !(s.port p).egress.isEmpty
  | .cmdclass, _ => s.ports.toList.any (fun p => !p.cmdBuf.isEmpty)
  | .isp, m => (s.isp m).active || (s.isp m).complete || (s.isp m).wantParams
  | .trk, _ => !s.trkDue.isEmpty
  | .jsc, _ => s.jobs.any (·.cur.isSome) || s.slots.toList.any (·.verifying.isSome)
  | .reels, _ => s.reels.toList.any (fun r => r.head != r.tail || r.busy)
  | .mc, m => s.queue.any (fun q => q.ch / 8 == m) || s.fills.any (fun k => k / 64 == m)
  | .cl, c => (List.range 16).any (fun k => (s.core (16 * c + k)).mode != .idle)
  | .tc, n => (s.core n).mode != .idle
  | _, _ => false

def State.statusWord (s : State) (page : Nat) (k : Kind) (i : Nat) : Nat :=
  b2n (s.busy k i) + 2 * b2n (bit (s.rn page 0x18) 31) + 4 * b2n (!(s.stagedOf page).isEmpty) + 8 * b2n (s.armed page)

/-! ### Units of the tensor complex (R144, R268) -/

/-- CORE_STATE.STATE. -/
def State.coreStateNum (s : State) (n : Nat) : Nat :=
  match (s.core n).mode with
  | .reserved => 1 | .running => 2 | .stopped => 3 | .spilling => 4 | .restoring => 5
  | .idle =>
    if !s.enabled (pgTc n) || s.coreRetired n then 7 else if (s.cluster (clusterOf n)).gated then 6 else 0

def State.tcView (s : State) (n off : Nat) : Option Nat :=
  let c := s.core n
  let bank := mapGet? s.fuse.bankOut n
  match off with
  | 0x100 => some (s.coreStateNum n + 8 * b2n c.wq3 + 65536 * (if c.mode == .idle then 0 else c.job.toNat))
  | 0x104 => some (if bank.isSome then 12 + 256 * (15 - 2 ^ ((bank.map (·.val)).getD 0)) else 16 + 256 * 15)
  | 0x108 => some (if c.mode == .idle then 0 else c.maxOp + 8 * b2n c.wq3)
  | 0x10C => some c.fe.pc
  | 0x110 => some c.xe.pc
  | 0x114 => some (c.tq0.length + 256 * c.tq1.length + 65536 * c.tq2.length + 2 ^ 24 * c.tq3.length)
  | 0x118 => some (ofBits ((List.range 32).filter (fun i => (c.sbAt i).valid)))
  | _ => none

/-- A work counter's four words. -/
def cntWord (w : WorkCnt) : Nat → Nat
  | 0 => w.value
  | 1 => w.limit
  | 2 => w.gen.toNat
  | _ => w.done.length + 65536 * w.job.toNat

def Cluster.ownedCnts (k : Cluster) : List Nat := (List.range 16).filter (fun i => (k.counters.getD i WorkCnt.reset).job != 0)

def opStatus (k : Cluster) : Nat :=
  k.op + 16 * k.target + 256 * k.ceiling + 4096 * fallback k.op + 2 ^ 15 * b2n k.change.isSome + 2 ^ 16 * k.duty +
    2 ^ 24 * b2n k.gated + 2 ^ 25 * b2n (k.thermCeil < 7)

def State.clView (s : State) (c off : Nat) : Option Nat :=
  let k := s.cluster c
  match off with
  | 0x100 =>
    some (ofBits ((List.range 16).filter (· < s.fuse.grade.coresPerCluster)) +
      65536 * ofBits ((List.range 16).filter (fun l => (s.healthOf (16 * c + l)).st == 3)))
  | 0x108 => some k.clFree
  | 0x10C => some (ofBits k.ownedCnts)
  | 0x120 => some (ofBits (k.barriers.map (·.phys)))
  | 0x124 => some (ofBits (k.groups.map (·.phys)))
  | 0x184 => some (opStatus k)
  | 0x188 => some k.wait
  | 0x194 => some (((k.phases.head?).map (·.entry)).getD 0xFF)
  | _ => if 0x800 ≤ off ∧ off < 0x900 then some (cntWord (k.counters.getD ((off - 0x800) / 16) WorkCnt.reset) (off % 16 / 4)) else none

/-! ### SYS, PCH and SEC -/

def idcode : Grade → Nat
  | .wq7128 => 0x17128000 + 0x1C5 * 2 + 1
  | .wq7096 => 0x17096000 + 0x1C5 * 2 + 1
  | .wq7064 => 0x17064000 + 0x1C5 * 2 + 1

/-- RAIL_TARGET in mV (R500, R501); the cluster regulators are off until stage 1 enables them (R570). -/
def State.railTarget (s : State) (r : Nat) : Nat :=
  if r < 8 then if !s.power.tcOn then 0 else ([550, 590, 630, 670, 710, 750, 800, 850]).getD (s.cluster r).op 850
  else ([if s.power.standby then 650 else 750, 800, 1100, 1800, 900, 1800, 3300]).getD (r - 8) 950

def State.gafView (s : State) (off : Nat) : Option Nat :=
  match off with
  | 0x140 =>
    some (s.rn pgGaffer 0x140 + 4 * b2n (s.power.prochot && !s.power.prochotEnd) +
      8 * b2n (s.uptime < s.power.sagHoldUntil) + 16 * b2n s.fixed)
  | 0x150 => some (((List.range 8).map (fun c => 16 ^ c * ((s.cluster c).op + 8 * b2n (s.cluster c).change.isSome))).foldl (· + ·) 0)
  | 0x154 => some (((List.range 8).map (fun c => 16 ^ c * ((s.cluster c).duty - 1))).foldl (· + ·) 0)
  | _ => none

/-- HEALTH[u] (chapter "Integrity, Faults and Recovery"). -/
def State.healthWord (s : State) (u : Nat) : Nat :=
  let h := s.healthOf u
  if !s.unitHere u then 4
  else h.st + 8 * b2n h.overdue + 16 * b2n h.withheld + 256 * min 255 h.faults + 65536 * min 255 h.passes

/-- SESS[s] (R562). -/
def sessWord (x : Session) (word1 : Bool) : Nat :=
  if !x.isOpen then (if word1 then x.gen.toNat else 0)
  else if word1 then x.gen.toNat
  else
    roleNum x.role + 256 * x.keySlot + 2 ^ 16 + 2 ^ 17 * b2n x.link + 2 ^ 18 * ((x.port.map (·.val)).getD 0) +
      2 ^ 20 * b2n x.hart.isSome + 2 ^ 24 * ((x.hart.map (·.val)).getD 0)

def State.secView (s : State) (who : Requester) (page off : Nat) : Option Nat :=
  if page = pgSess then
    match off with
    | 0x10C => some (s.sec.sessions.toList.filter (·.isOpen)).length
    | 0x110 => match who with | .hart h => some (s.mboxAddr h.val / 4096) | _ => some 0
    | 0x118 =>
      match who with
      | .hart h =>
        some (b2n (s.sec.inbox.any (fun m => m.origin == .hart h)) + 2 * b2n (s.sec.mboxReply.contains h.val) +
          256 * (s.hartSession h.val).val)
      | _ => some 0
    | _ =>
      if 0x800 ≤ off then
        some (sessWord (if off < 0x808 then { s.session 0 with role := roleOfNum (roleNum' s) } else s.session ((off - 0x800) / 8))
          (bit off 2))
      else none
  else if page = pgKeys then
    match off with
    | 0x108 => some (s.sec.keys.enrolSeq.toNat % 2 ^ 32)
    | 0x10C => some (s.sec.keys.enrolSeq.toNat / 2 ^ 32)
    | 0x110 => some (ofBits ((s.sec.keys.operators).map (·.1)) + 65536 * b2n s.sec.keys.installer.isSome)
    | _ => none
  else if page = pgFuses then
    if off < 0x120 then some (fld s.sec.deviceId (off - 0x100) 4)
    else if off = 0x120 then
      some (b2n s.fuse.rootValid + 2 * b2n s.fuse.oemValid + 4 * b2n s.fuse.rootRevoked + 8 * b2n s.fuse.oemRevoked)
    else if off = 0x124 then
      some (s.fuse.svnStage1.toNat + 256 * s.fuse.svnApu.toNat + 65536 * s.fuse.svnTc.toNat)
    else none
  else if page = pgAudit then
    match off with
    | 0x100 => some ((s.sec.auditSeq.toNat - 1) % 2 ^ 32)
    | 0x104 => some ((s.sec.auditSeq.toNat - 1) / 2 ^ 32)
    | 0x108 => some (min 2047 s.sec.staged.length)
    | 0x10C => some (b2n s.sec.auditFail)
    | _ => none
  else if page = pgAttest ∧ off = 0x104 then some (s.rn pgAttest 0x104 / 2 * 2 + b2n (!s.sec.att.isEmpty))
  else none
where
  /-- the role session 0 carries now (R535) -/
  roleNum' (s : State) : Nat := roleNum (s.sessionRole 0)

/-! ### Time, network and vision -/

/-- CUE_CTL with OWNER, and CUE_STAT (R345, R350). -/
def State.cueOwner (s : State) (i : Nat) : Nat := if (s.cue i).owner.isSome then 1 else if s.inPool i then 2 else 0

def State.cueView (s : State) (off : Nat) : Option Nat :=
  if off < 0x800 then none
  else
    let i := (off - 0x800) / 32
    let c := s.cue i
    match off % 32 with
    | 0 => some (s.rn pgCue off % 2 ^ 14 + 2 ^ 14 * s.cueOwner i + s.rn pgCue off / 2 ^ 16 * 2 ^ 16)
    | 0x1C =>
      some (s.rn pgCue off / 32 * 32 + b2n (s.cueArmed i) + 2 * b2n c.fireAt.isSome + 4 * b2n c.waiting +
        8 * b2n (bit (s.rn pgCue off) 3) + 16 * b2n c.handed)
    | _ => none

/-- The level on a CUEOUT pin: forced, or IDLE and its opposite, 0 while the pin is disabled (R339, R351). -/
def State.pinLevel (s : State) (p : Nat) : Bool :=
  let f := s.rn pgPin 0x400
  let c := s.rn pgPin (0x100 + 4 * p)
  if bit f (16 + p) then bit f p else bit c 0 && (bit c 1 != (s.pin p).active)

def State.netView (s : State) (k : Kind) (i off : Nat) : Option Nat :=
  match k with
  | .port =>
    let x := s.port i
    if off = 0x140 then
      some (b2n x.link + 2 * b2n x.master + 4 * b2n (bit (s.secy i) 0 && x.txSa.isSome) +
        256 * (bufFill x.staging * 100 / 393216))
    else none
  | .cmdclass => if 0x110 ≤ off ∧ off < 0x120 then some (bufFill (s.port ((off - 0x110) / 4)).cmdBuf) else none
  | .flows =>
    if off = 0x100 then some s.flowIds.length
    else if off = 0x104 then some (s.winTab.filter (fun p => p.1 / 2 ^ 32 = pgFlows ∧ p.1 % 128 = 1 ∧ bit p.2.toNat 7)).length
    else none
  | .codec => if off = 0x100 then some (s.vcIds i).length else none
  | .trk => if off = 0x104 then some s.trkLive else none
  | _ => none

/-! ### JSC and memory -/

def State.ownedCues (s : State) : Nat := ofBits ((List.range 64).filter (fun i => (s.cue i).owner.isSome))
def State.lockedSlots (s : State) : Nat := ofBits ((List.range 64).filter s.slotLocked)

def State.jscView (s : State) (k : Kind) (off : Nat) : Option Nat :=
  match k with
  | .jsc => if off = 0x108 then some s.jobs.length else none
  | .reels =>
    if 0x100 ≤ off ∧ off < 0x300 then
      let r := s.reel ((off - 0x100) / 16)
      if off % 16 = 8 then some (r.head + 65536 * r.tail) else if off % 16 = 12 then some (r.chead + 65536 * r.ctail) else none
    else none
  | .adm =>
    match off with
    | 0x108 => some (0x20000 - s.descUsed)
    | 0x10C => some (s.ownedCues % 2 ^ 32)
    | 0x110 => some (s.ownedCues / 2 ^ 32)
    | _ => none
  | _ => none

/-- SEG_INIT of a controller. -/
def State.segsOfMc (s : State) (m : Nat) : List Nat := (s.segInit.filter (fun k => k / 64 == m)).map (· % 64)

def State.mcView (s : State) (m off : Nat) : Option Nat :=
  match off with
  | 0x100 => some (s.rn (pgMc m) 0x100 + 255 + 2048 * b2n s.selfRefresh)
  | 0x150 => some s.slateCap
  | 0x170 => if m = 0 then none else some (s.rn (pgMc 0) 0x170)
  | 0x174 => if m = 0 then none else some (s.rn (pgMc 0) 0x174)
  | 0x178 => some (ofBits (s.segsOfMc m) % 2 ^ 32)
  | 0x17C => some (ofBits (s.segsOfMc m) / 2 ^ 32)
  | 0x184 => some (s.lockedSlots % 2 ^ 32)
  | 0x188 => some (s.lockedSlots / 2 ^ 32)
  | _ => if 0x800 ≤ off ∧ off < 0xD80 then some (s.dlyCode m ((off - 0x800) / 4)).toNat else none

/-! ### Window tables (R66, R304, R322) -/

/-- WIN_COUNT and ENTRY_BYTES of a window page. -/
def winShape : Kind → Nat × Nat
  | .gaffer => (256, 32) | .flows => (2048, 128) | .codec => (1024, 128) | .tracks => (1048576, 128)
  | .residency => (136, 32) | .acct => (256, 32) | _ => (0, 0)

/-- The largest free contiguous range of a cluster's memory, in units of 64 KiB. -/
def Cluster.largestFree (k : Cluster) : Nat :=
  let used (u : Nat) : Bool := k.allocs.any (fun a => decide (a.2.1 ≤ 65536 * u) && decide (65536 * u < a.2.1 + a.2.2))
  ((List.range 64).foldl (fun (a : Nat × Nat) u => if used u then (0, a.2) else (a.1 + 1, max a.2 (a.1 + 1))) (0, 0)).2

/-- An entry of the weight residency table (R304). -/
def State.residency (s : State) (e : Nat) : List Byte :=
  if e < 128 then
    let c := s.core e
    leBytes 1 (s.coreStateNum e) ++ leBytes 1 (c.lastSlot.getD 0xFF) ++ leBytes 2 c.lastJob.toNat ++ leBytes 2 c.lastLcore ++
      leBytes 2 (b2n c.icacheValid + 2 * b2n (s.coreRetired e) + 4 * b2n (s.coreObserved e)) ++ leBytes 8 c.lastImage.toNat ++
      leBytes 16 (c.takes % 2 ^ 32)
  else
    let i := e - 128
    let k := s.cluster i
    leBytes 4 k.clFree ++ leBytes 4 (65536 * k.largestFree) ++ leBytes 2 (65535 - ofBits k.ownedCnts) ++
      leBytes 2 (s.jobs.filter (·.inCluster i)).length ++ leBytes 4 (s.sharesUsed false i) ++ leBytes 4 (s.tshare false i) ++
      leBytes 2 (65535 - ofBits (k.barriers.map (·.phys))) ++ leBytes 10 (65535 - ofBits (k.groups.map (·.phys)))

/-! ### Reading a register -/

/-- The computed value of a register; none where its word is stored. -/
def State.view (s : State) (who : Requester) (page off : Nat) (k : Kind) (i : Nat) : Option Nat :=
  match off with
  | 0 => some (idWord k i true)
  | 4 => some (capsWord s.fuse.grade k)
  | 0xC => some (s.statusWord page k i)
  | _ =>
    if isWindow k ∧ off = 0x810 then some (winShape k).1
    else if isWindow k ∧ off = 0x808 then some (s.rn page 0x808 % 65536 + b2n (s.winBusy.any (·.1 = page)) + 65536 * (winShape k).2)
    else
      match k with
      | .sys => if off = 0x100 then some s.fuse.gradeWord else if off = 0x114 then some (idcode s.fuse.grade) else none
      | .gaffer => s.gafView off
      | .supply => if 0x140 ≤ off ∧ off < 0x180 then some (s.railTarget ((off - 0x140) / 4)) else none
      | .thermal => if off = 0x10C then some (wrapTo 8 (s.power.peak.getD 0)) else none
      | .health =>
        if off = 0x130 then some (s.health.toList.filter (·.st == 3)).length
        else if 0x800 ≤ off then some (s.healthWord ((off - 0x800) / 4)) else none
      | .sess | .keystore | .fuses | .audit | .attest => s.secView who page off
      | .tk => if off = 0x114 then some s.evts.length else none
      | .cue => s.cueView off
      | .cuepin => if off = 0x140 then some (ofBits ((List.range 16).filter s.pinLevel)) else none
      | .isp => if off = 0x1A8 then some (min 100 (100 * s.fifoBytes i / 131072)) else none
      | .port | .cmdclass | .flows | .codec | .trk => s.netView k i off
      | .jsc | .reels | .adm => s.jscView k off
      | .mc => s.mcView i off
      | .plic => if 0x200 ≤ off ∧ off < 0x250 then
          some (ofBits ((s.plicPending.filter (fun x => (x - 1) / 32 == (off - 0x200) / 4)).map (fun x => (x - 1) % 32))) else none
      | .cl => s.clView i off
      | .tc => s.tcView i off
      | _ => none

/-- A register the model holds no value for: the bits that are free, none where there are none. -/
def State.freeBits (s : State) (k : Kind) (i off : Nat) : Nat :=
  match k with
  | .supply => if off = 0x180 then ofBits ((List.range 16).filter (fun r => bit (s.rn pgSupply (0x100 + 4 * r)) 16)) else 0
  | .csi => if off = 0x108 ∧ s.csiClk.contains i then 0x1E else 0
  | .codec => if off = 0x114 then 0x7F else 0
  | _ => 0

/-- The value of a register of a present page, with free bits drawn. -/
def State.regValue (s : State) (who : Requester) (page off : Nat) (k : Kind) (i : Nat) : State × Word :=
  let free := s.freeBits k i off
  let fixed : Nat :=
    match k with
    | .csi => if off = 0x108 then b2n (s.csiClk.contains i) else s.rn page off
    | _ => (s.view who page off k i).getD (s.rn page off)
  if free = 0 then (s, w32 fixed)
  else ({ s with free := s.free + 1 }, (w32 fixed &&& ~~~(w32 free)) ||| (w32 (Config.freeNat s.free) &&& w32 free))

/-- The value a read of a listed register gives: nothing from a write-only register, the staged value of an RWS register
unless READ_ACTIVE is set (R58). -/
def State.readReg (s : State) (who : Requester) (page off : Nat) (k : Kind) (i : Nat) : State × Word :=
  match rowAt k off with
  | none => (s, 0)
  | some r =>
    match r.acc with
    | .wo => (s, 0)
    | .rws =>
      match mapGet? s.staged (rkey page off) with
      | some w =>
        if s.readActive page then s.regValue who page off k i
        else if k = .cue ∧ 0x800 ≤ off ∧ off % 32 = 0 then (s, w ||| w32 (2 ^ 14 * s.cueOwner ((off - 0x800) / 32)))
        else (s, w)
      | none => s.regValue who page off k i
    | _ => s.regValue who page off k i

end Sys2Proof.Machine
end

