-- ==== Sys2Proof/Machine/Window.lean ====
section
/-! DEFINITION. The select-and-window tables (R66 to R73): loading an entry, the rules a store must meet, and what a store
writes. The content of a command is taken when it is issued; BUSY clears at WINDOW_CMD_DONE. -/

namespace Sys2Proof.Machine

/-- The generation of an entry. -/
def State.winGenOf (s : State) (page e : Nat) : Word := mapGet s.winGen (winKey page 1 e 0) 0

/-- Bytes that an entry's table does not list hold 0: `mask` gives the bits of byte `o` that do hold something (R13). -/
def maskBytes (mask : Nat → Nat) (b : List Byte) : List Byte :=
  (b.zip (List.range b.length)).map (fun p => p.1 &&& BitVec.ofNat 8 (mask p.2))

/-- Listed bits of a flow entry's bytes 0 to 91 (R409). Byte 1 stands whole: R411 refuses a PORT outside 0 to 3. -/
def flowMask (o : Nat) : Nat :=
  if o = 3 then 0x0F else if (49 ≤ o ∧ o ≤ 51) ∨ (61 ≤ o ∧ o ≤ 63) ∨ 90 ≤ o then 0 else 0xFF

/-- Listed bits of a codec context's bytes 0 to 95 (R447). -/
def codecMask (o : Nat) : Nat :=
  if o = 18 then 0x7F
  else if (4 ≤ o ∧ o ≤ 7) ∨ o = 19 ∨ (69 ≤ o ∧ o ≤ 71) ∨ 80 ≤ o then 0 else 0xFF

/-- A track context without its reserved bytes (R454). -/
def Trk.listed (t : Trk) : Trk := { t with gone := List.replicate 6 0 }

/-- What a store takes from WIN_DATA: reserved bits are ignored (R13). -/
def storeBytes (k : Kind) (b : List Byte) : List Byte :=
  match k with
  | .flows => maskBytes flowMask b
  | .codec => maskBytes codecMask b
  | .tracks => (trkOf b).listed.bytes (fld b 0 4)
  | _ => b

/-- The bytes of an entry; a track context is read from its table in DRAM (R459, R464). -/
def State.winEntry (s : State) (page : Nat) (k : Kind) (e : Nat) : State × List Byte :=
  match k with
  | .residency => (s, fitBytes 32 (s.residency e))
  | .tracks =>
    let (s, t) := s.getTrk e
    (s, fitBytes 128 (t.listed.bytes e))
  | _ =>
    let w := (winShape k).2
    (s, (List.range w).map (fun o => mapGet s.winTab (winKey page w e o) 0))

/-- WIN_DATA as bytes. -/
def State.winData (s : State) (page n : Nat) : List Byte :=
  (List.range (n / 4)).flatMap (fun w => leBytes 4 (s.rn page (0x900 + 4 * w)))

/-- DESIGN CHOICE (log 16): the residency table is computed from cores and clusters, so its hardware writes are counted when the
window looks at an entry: none where its bytes are those of the last look (those of reset before the first), else one or more,
a free number (R70, R304). -/
def State.resTouch (s : State) (page : Nat) (k : Kind) (e : Nat) : State :=
  if k = .residency then
    let now := s.residency e
    if mapGet s.resSeen e ({ State.reset with fuse := s.fuse }.residency e) = now then s
    else
      let (s, n) := s.drawNat 32
      { s with resSeen := mapPut s.resSeen e now
               winGen := mapSet s.winGen (winKey page 1 e 0) 0 (s.winGenOf page e + 1 + w32 n) }
  else s

/-- A LOAD: the entry as one snapshot, with its generation (R67). -/
def State.winTake (s : State) (page : Nat) (k : Kind) (e : Nat) : State :=
  let s := s.resTouch page k e
  let (s, bs) := s.winEntry page k e
  let s := (List.range ((winShape k).2 / 4)).foldl (fun s w => s.setRn page (0x900 + 4 * w) (fld bs (4 * w) 4)) s
  s.setReg page 0x80C (s.winGenOf page e)

/-! ### Rules of a store (R71): the byte of the first field that breaks one -/

abbrev BadByte := List Nat

def badIf (b : Bool) (o : Nat) : BadByte := if b then [o] else []

/-- The lowest byte; none when every rule holds. -/
def firstBad : BadByte → Option Nat
  | [] => none
  | o :: l => some (l.foldl min o)

/-- Overlapping addresses of two UDP ports, 0 matching any. -/
def udpMeets (a b : Nat) : Bool := a == 0 || b == 0 || a == b

/-- Two flow keys that one frame can match (R410). -/
def flowKeysMeet (a b : List Byte) : Bool :=
  let ta := fld a 0 1
  let tb := fld b 0 1
  let avtp (t : Nat) : Nat := if t = 1 ∨ t = 2 then 3 else if t = 3 then 7 else 0
  if avtp ta ≠ 0 ∨ avtp tb ≠ 0 then avtp ta == avtp tb && fld a 4 8 == fld b 4 8
  else
    let rtp (t : Nat) : Bool := t == 4 || t == 5
    fld a 12 32 == fld b 12 32 && udpMeets (fld a 44 2) (fld b 44 2) && fld a 46 2 == fld b 46 2 &&
      (!(rtp ta && rtp tb) ||
        ((bit (fld a 48 1) 7 || bit (fld b 48 1) 7 || fld a 48 1 == fld b 48 1) &&
          (fld a 52 4 == 0 || fld b 52 4 == 0 || fld a 52 4 == fld b 52 4)))

/-- An entry's ring: base and bytes; types 1 to 5 have one. -/
def flowRing (b : List Byte) : Option (Nat × Nat) :=
  if 1 ≤ fld b 0 1 ∧ fld b 0 1 ≤ 5 then some (fld b 56 8, 1024 * 2 ^ fld b 64 1) else none

/-- First bytes of the fields of a flow entry. -/
def flowField (o : Nat) : Nat :=
  (([0, 1, 2, 4, 12, 28, 44, 46, 48, 49, 52, 56, 64, 65]).filter (· ≤ o)).foldl max 0

/-- A flow entry (R411). An entry of TYPE 0 keeps every rule of R411; of TYPE 6 the ring is not looked at, for R418 gives it
none. -/
def State.flowBad (s : State) (e : Nat) (b : List Byte) : BadByte :=
  let old := (List.range 128).map (fun o => mapGet s.winTab (winKey pgFlows 128 e o) 0)
  let ty := fld b 0 1
  let others := (s.flowIds.filter (· ≠ e)).map (fun f => (List.range 128).map (fun o => mapGet s.winTab (winKey pgFlows 128 f o) 0))
  let live := fld old 0 1 != 0 && !bit (fld old 1 1) 7
  let diff := (List.range 66).find? (fun o => (if o = 1 then fld b 1 1 % 128 else fld b o 1) != fld old o 1)
  let held := if live then (diff.map flowField).toList else []
  let n := fld b 64 1
  let base := fld b 56 8
  let bytes := 1024 * 2 ^ min n 30
  let badRing := base % 4096 != 0 || !s.inDram base bytes || others.any (fun o => (flowRing o).any (fun r => meets base bytes r.1 r.2))
  let ringed := ty != 6
  held ++ badIf (6 < ty) 0 ++ badIf (bits (fld b 1 1) 5 2 != 0) 1 ++
    badIf (ty != 0 && others.any (flowKeysMeet b)) (if ty ≤ 3 then 4 else 12) ++ badIf (4 ≤ ty && fld b 46 2 == 0) 46 ++
    badIf (ringed && badRing) 56 ++ badIf (ringed && (n < 6 || 20 < n)) 64 ++
    badIf (2 < fld b 65 1 || (fld b 65 1 != 0 && s.fuse.grade.codecs < fld b 65 1)) 65

/-- First bytes of the fields of a codec context. -/
def codecField (o : Nat) : Nat :=
  (([0, 1, 2, 8, 16, 17, 20, 24, 32, 36, 40, 44, 48, 52, 56, 60, 64, 68, 72, 73, 74, 76]).filter (· ≤ o)).foldl max 0

/-- A codec context (R446, R447). -/
def State.vcBad (s : State) (v c : Nat) (b : List Byte) : BadByte :=
  let old := (List.range 128).map (fun o => mapGet s.winTab (winKey (pgVc v) 128 c o) 0)
  let mode := fld b 0 1
  let held :=
    if fld old 0 1 = 0 then []
    else badIf (mode != fld old 0 1 && mode != 0) 0 ++
      (((List.range 96).find? (fun o => o ≠ 0 ∧ fld b o 1 ≠ fld old o 1)).map codecField).toList
  let codec := fld b 1 1
  let flow := fld b 2 2
  let lg (o : Nat) : Bool := fld b o 1 < 6 || 20 < fld b o 1
  let enc := mode == 3
  held ++ badIf (3 < mode) 0 ++ badIf (4 < codec || (enc && codec != 1)) 1 ++
    badIf (mode == 1 && (2047 < flow || s.flowType flow == 0 || s.flowNat flow 65 1 != v + 1)) 2 ++
    badIf (mode == 2 && lg 16) 16 ++ badIf (enc && lg 32) 32 ++ badIf (3 < fld b 68 1) 68 ++ badIf (enc && 2 < fld b 72 1) 72 ++
    badIf (enc && 51 < fld b 73 1) 73 ++ badIf (enc && fld b 74 2 == 0) 74

/-- A track context (R464). -/
def State.trackBad (s : State) (e : Nat) (b : List Byte) : BadByte :=
  let f := fld b 5 1
  badIf (fld b 0 4 % 2 ^ 20 != e) 0 ++ badIf (3 < fld b 4 1) 4 ++
    badIf (!(f < 16 && bit (s.feedW f 0) 0 && s.inPart f e)) 5

/-- A phase entry (R529): the entry in force must be owned. -/
def State.phaseBad (s : State) (e : Nat) (b : List Byte) : BadByte :=
  badIf (s.winNat pgGaffer 32 e 0 2 == 0) 0 ++ badIf (7 < fld b 3 1 && fld b 3 1 != 0xFF) 3

def State.storeBad (s : State) (k : Kind) (i e : Nat) (b : List Byte) : BadByte :=
  match k with
  | .gaffer => s.phaseBad e b
  | .flows => s.flowBad e b
  | .codec => s.vcBad i e b
  | .tracks => s.trackBad e b
  | _ => [0]

/-! ### What a store writes (R68, R70) -/

/-- Writes bytes of an entry. -/
def State.putEntry (s : State) (page w e o : Nat) (bs : List Byte) : State :=
  { s with winTab := putBytes s.winTab (winKey page w e o) bs }

def State.storeEntry (s : State) (page : Nat) (k : Kind) (i e : Nat) (b : List Byte) : State :=
  match k with
  | .gaffer => (s.putEntry page 32 e 3 ((b.drop 3).take 1)).bumpGen page e
  | .flows =>
    let p := fld b 1 1 % 128 + 128 * b2n (bit (s.flowNat e 1 1) 7)
    ((s.putEntry page 128 e 0 ((setFld b 1 1 p).take 92)).bumpGen page e).flowStored e
  | .codec =>
    let moved := fld b 0 1 != s.vcMode i e
    let s := (s.putEntry page 128 e 0 (b.take 96)).bumpGen page e
    if moved then s.vcStored i e else s
  | .tracks => (s.writeVia 18 (s.trkAddr e) b).bumpGen page e
  | _ => s

/-! ### WIN_CMD -/

/-- The window is busy from an accepted command on; DONE and FAIL clear. -/
def State.winBegin (s : State) (page : Nat) (fail : Bool) : State :=
  ({ s with winBusy := s.winBusy ++ [(page, fail)] }).setRn page 0x808 0

/-- A store: refused, or written in one step, with its COMMIT_RES and audit entry. DESIGN CHOICE (log 16): R71 gives no RESULT,
FIELD_OFFSET or FIELD_BIT for a store refused with WINDOW_GEN or WINDOW_INDEX: they keep their values, and only SEQ advances. -/
def State.winStore (s : State) (who : Requester) (page : Nat) (k : Kind) (i e : Nat) (cond : Bool) : State :=
  let s := s.resTouch page k e
  let b := storeBytes k (s.winData page (winShape k).2)
  if cond && s.winGenOf page e != s.reg page 0x80C then
    (((s.errAcc page 0x87 who true 0x804).setRn page 0x24
      (s.rn page 0x24 % 2 ^ 24 + 2 ^ 24 * ((bits (s.rn page 0x24) 31 24 + 1) % 256))).winBegin page true).discard
  else
    match firstBad (s.storeBad k i e b) with
    | some o => ((s.commitRes page 3 (0x900 + o / 4 * 4) (8 * (o % 4)) true).winBegin page true).ok
    | none =>
      let s := ((s.storeEntry page k i e b).commitRes page 1 0 0 true).winBegin page false
      (s.auditIfLocked 3 who page 2 0x804 (w32 e) (s.winGenOf page e) (b.take 24)).ok

/-- A command written to WIN_CMD. -/
def State.winCommand (s : State) (who : Requester) (page : Nat) (k : Kind) (i cmd : Nat) : State :=
  if s.winBusy.any (·.1 = page) then (s.errAcc page 0x8C who true 0x804).discard
  else if cmd = 0 ∨ 4 < cmd then s.ok
  else
    let s := if cmd = 4 then s.setRn page 0x800 ((s.rn page 0x800 + 1) % 2 ^ 24) else s
    let e := s.rn page 0x800
    if (winShape k).1 ≤ e then
      let s := if cmd = 2 ∨ cmd = 3 then
        s.setRn page 0x24 (s.rn page 0x24 % 2 ^ 24 + 2 ^ 24 * ((bits (s.rn page 0x24) 31 24 + 1) % 256)) else s
      ((s.errAcc page 0x86 who true 0x804).winBegin page true).discard
    else if cmd = 2 then s.winStore who page k i e false
    else if cmd = 3 then s.winStore who page k i e true
    else ((s.winTake page k e).winBegin page false).ok

/-- WINDOW_CMD_DONE: BUSY clears, DONE sets, and FAIL when the command failed (R72). -/
def windowCmdDone (page : Nat) (s : State) : State :=
  match s.winBusy.find? (fun p => p.1 = page) with
  | none => s
  | some (_, fail) =>
    ({ s with winBusy := s.winBusy.filter (fun p => p.1 ≠ page) }).setRn page 0x808 (2 + 4 * b2n fail)

def execWindowCmdDone (page : BitVec 16) (s : State) : Host.Outcome State Fault Refusal := .next (windowCmdDone page.toNat s)

end Sys2Proof.Machine
end

