-- ==== Sys2Proof/Machine/Bus.lean ====
section
/-! DEFINITION. Accesses to addresses (R32 to R34, R42 to R45, R50 to R58, R74, R75, R588): who reaches a page, what a read
returns and latches, what a write does, and what refuses it. -/

namespace Sys2Proof.Machine

/-! ### Reads that do more than read -/

/-- Priority of a source (R77). -/
def State.plicPrio (s : State) (src : Nat) : Nat :=
  bits (s.rn pgPlic (0x800 + (src - 1) / 4 * 4)) (8 * ((src - 1) % 4) + 2) (8 * ((src - 1) % 4))

/-- A source is enabled for a context. -/
def State.plicOn (s : State) (ctx src : Nat) : Bool :=
  bit (s.rn pgPlic (0xA80 + 0x50 * ctx + 4 * ((src - 1) / 32))) ((src - 1) % 32)

/-- The better of two sources: the higher priority, then the lower number. -/
def State.plicBest (s : State) : List Nat → Nat
  | [] => 0
  | a :: l =>
    let b := s.plicBest l
    if b = 0 ∨ s.plicPrio b < s.plicPrio a ∨ (s.plicPrio b = s.plicPrio a ∧ a ≤ b) then a else b

/-- The source a claim of a context would return, 0 when there is none. -/
def State.plicNext (s : State) (ctx : Nat) : Nat :=
  s.plicBest (s.plicPending.filter (fun x => 1 ≤ x && s.plicOn ctx x && s.rn pgPlic (0x100 + 8 * ctx) % 8 < s.plicPrio x))

/-- A claim: the source is no longer pending and is held until its completion. -/
def State.plicTake (s : State) (ctx : Nat) : State × Word :=
  let x := s.plicNext ctx
  if x = 0 then (s, 0)
  else ({ s with plicPending := delN s.plicPending x, plicClaimed := s.plicClaimed ++ [(ctx, x)] }, w32 x)

/-- A completion is ignored unless the source is enabled for the context; a source still asserted is pending again (R78). -/
def State.plicDone (s : State) (ctx src : Nat) : State :=
  if 1 ≤ src ∧ src ≤ 640 ∧ s.plicOn ctx src then
    State.plicSample { s with plicClaimed := s.plicClaimed.filter (fun p => p.2 ≠ src) } (src - 1)
  else s

/-- AX_STATUS [7:0] (R336). -/
def Axis.status (a : Axis) : Nat := b2n a.velValid + 2 * b2n (decide (a.v < 0)) + 4 * b2n a.zSeen + 8 * b2n a.homed

/-- A read of AX_PHASE_LO latches the phase, its time, the velocity and the status. -/
def State.latchAxis (s : State) (n : Nat) : State :=
  let a := s.axis n
  let x := s.interp n s.time
  let p := pgAx n
  let s := (s.setRn p 0x140 (wrapTo 32 x)).setRn p 0x144 (wrapTo 64 x / 2 ^ 32)
  let s := (s.setRn p 0x148 (s.tk / 256)).setRn p 0x14C (wrapTo 32 a.v)
  (s.setRn p 0x150 (wrapTo 64 a.v / 2 ^ 32)).setRn p 0x154 (a.status + 2 ^ 24 * (s.tk % 256))

/-- A read of EVT_W0 latches the head entry; an empty FIFO leaves the words as they are. -/
def State.latchEvt (s : State) : State :=
  match s.evts with
  | [] => s
  | e :: _ => (((s.setReg pgTk 0x120 e.w0).setReg pgTk 0x124 e.w1).setReg pgTk 0x128 e.w2).setReg pgTk 0x12C e.w3

/-- A read of PTP_SEC_LO latches the rest of PTP time. -/
def State.latchPtp (s : State) : State :=
  let s := (s.setRn pgNte 0x120 s.ptpSec).setRn pgNte 0x124 (s.ptpSec / 2 ^ 32 % 65536)
  (s.setRn pgNte 0x128 s.ptpNs).setRn pgNte 0x12C (s.time % 256)

/-- A read of TK_NS latches the fraction. -/
def State.latchTk (s : State) : State := (s.setRn pgTk 0x100 (s.tk / 256)).setRn pgTk 0x104 (s.tk % 256)

/-- A read of a register of a present page: data, and what the read latches or claims (R329, R330, R336, R360, R77). -/
def State.readPage (s : State) (who : Requester) (page off : Nat) (k : Kind) (i : Nat) : State × Word :=
  match k with
  | .tk =>
    if off = 0x100 then (let s := s.latchTk; (s, s.reg pgTk 0x100))
    else if off = 0x120 then (let s := s.latchEvt; (s, s.reg pgTk 0x120))
    else s.readReg who page off k i
  | .axis => if off = 0x140 then (let s := s.latchAxis i; (s, s.reg page 0x140)) else s.readReg who page off k i
  | .nte => if off = 0x120 then (let s := s.latchPtp; (s, s.reg page 0x120)) else s.readReg who page off k i
  | .plic =>
    if 0x100 ≤ off ∧ off < 0x180 ∧ off % 8 = 4 then s.plicTake ((off - 0x100) / 8) else s.readReg who page off k i
  | _ => s.readReg who page off k i

/-! ### Roles of a write (R53, R56) -/

/-- Pointer registers (R56). -/
def isPointer (k : Kind) (off : Nat) : Bool :=
  match k with
  | .reels => 0x100 ≤ off && off < 0x300 && off % 16 == 12
  | .mc => off == 0x164
  | .port => off == 0x16C || off == 0x17C
  | .isp => off == 0x150 || off == 0x170 || off == 0x190
  | .health => off == 0x120
  | .faults => off == 0x10C
  | _ => false

/-- Registers of SEC that a table opens to the operator role on a page locked at installer (R562, R563). -/
def isOpenReg (k : Kind) (off : Nat) : Bool :=
  match k with
  | .sess => off == 0x110 || off == 0x114
  | .keystore => off == 0x100
  | .attest => off == 0x100
  | _ => false

/-- The role of the access meets the lock of the register's region. -/
def State.mayWrite (s : State) (who : Requester) (page off : Nat) (k : Kind) : Bool :=
  let f := s.lock page (regionOf off)
  if isPointer k off || isOpenReg k off then f != 3 else roleMeets (s.roleOf who) f

/-- Runs the effect of an accepted write after its audit entry (R55); one that ends discarded leaves no such entry. -/
def State.audited (s : State) (who : Requester) (page off : Nat) (v : Word) (f : State → State) : State :=
  let t := f s.ok
  if t.rsp.discarded then t else f ((s.auditIfLocked 1 who page (regionOf off) off v 0).ok)

/-! ### Effects of RW registers -/

/-- An RW field with a value outside its range, or reserved (R588). -/
def rwBad (k : Kind) (off v : Nat) : Bool :=
  match k with
  | .tk => off == 0x110 && bits v 26 25 == 3
  | .cuepin => (off == 0x144 && bits v 17 2 == 0) || (off == 0x148 && 999999999 < (sext 32 v).natAbs)
  | .gaffer => off == 0x138 && outside 1 (2 ^ 24 - 1) v
  | .mc => off == 0xD84 && v % 4096 != 0
  | .tc => 0x400 ≤ off && off < 0x410 && 13 < v % 32
  | _ => false

/-- A write of LOG_TAIL counts only from the present tail to LOG_HEAD (R387). -/
def State.logTail (s : State) (page v : Nat) : State :=
  let t := s.rn page 0x164
  let h := s.rn page 0x160
  if (v % 64 + 64 - t) % 64 ≤ (h + 64 - t) % 64 then s.setRn page 0x164 (v % 64) else s

/-- A write of FORCE_2X shows at once in MC_STATUS.REFRESH_2X (R369). -/
def State.force2x (s : State) (m v : Nat) : State :=
  let p := pgMc m
  let s := s.setRn p 0x400 (v % 2)
  let st := s.rn p 0x100
  let t := sext 8 (s.rn p 0x104)
  let twice := v % 2 = 1 ∨ 85 < t ∨ (82 < t ∧ bit st 10)
  s.setMcStatus m (bits st 9 8) (decide twice) (bit st 12)

/-- A write of HEALTH[u]: STATE takes effect at once and PASSES returns to 0 (R489, R490). -/
def State.healthPut (s : State) (u v : Nat) : State :=
  if !s.unitHere u then s
  else
    let s := s.setHealthSt u (v % 4)
    let s := s.setHealth u { s.healthOf u with passes := 0 }
    if v % 4 = 3 then s.retired u else s

/-- A write of REEL_CPTR moves CTAIL; the host's frames move it on a network reel. -/
def State.cptrWrite (s : State) (who : Requester) (off v : Nat) : State :=
  let n := (off - 0x100) / 16
  if s.reelSource n = 2 then (s.errAcc pgReels 0x83 who true off).discard
  else s.modReel n (fun r => { r with ctail := bits v 28 16 })

/-- CUEOUT_CFG: a pin that is enabled or disabled stands at its idle level (R351). -/
def State.pinCfg (s : State) (p : Nat) (v : Word) : State :=
  let moved := bit (s.rn pgPin (0x100 + 4 * p)) 0 != bit v.toNat 0
  let s := s.setReg pgPin (0x100 + 4 * p) (v &&& 7)
  if moved then s.setPin p Pin.reset else s

/-- The effect of a write to an RW register, header registers with rules of their own apart. -/
def State.rwWrite (s : State) (who : Requester) (page off : Nat) (k : Kind) (i : Nat) (r : Row) (v : Word) : State :=
  let n := v.toNat
  let plain := s.setReg page off (v &&& w32 r.mask)
  if off = 0x14 then (s.setReg page 0x14 (v &&& w32 (irqMask k))).plicSample page
  else if rwBad k off n then (s.errAcc page 0x8E who true off).discard
  else if isWindow k ∧ 0x900 ≤ off ∧ s.winBusy.any (·.1 = page) then (s.errAcc page 0x8C who true off).discard
  else
    match k with
    | .plic => if 0x100 ≤ off ∧ off < 0x180 ∧ off % 8 = 4 then s.plicDone ((off - 0x100) / 8) n else plain
    | .reels => s.cptrWrite who off n
    | .mc => if off = 0x164 then s.logTail page n else if off = 0x400 then s.force2x i n else plain
    | .port => if off = 0x17C then s.txQueue i (n % 4096) else plain
    | .sess => match who with | .hart h => s.modSec (fun c => { c with mboxAddr := mapPut c.mboxAddr h.val (v &&& w32 r.mask) }) | _ => s
    | .health => if 0x800 ≤ off then s.healthPut ((off - 0x800) / 4) n else plain
    | .sys => if off = 0x400 then s.bootCtlWrite n else plain
    | .cuepin => if off < 0x140 then s.pinCfg ((off - 0x100) / 4) v else plain
    | _ => plain

/-! ### Effects of WO registers -/

/-- A software sample, on an axis with SOURCE 7 (R331). -/
def State.swSample (s : State) (n v : Nat) : State :=
  if s.axSource n = 7 then s.axSample n (s.reg64 (pgAx n) 0x800) (s.extendNs v) else s

/-- A measurement of the servo, with SOURCE 1 (R357). -/
def State.measT (s : State) (v : Nat) : State :=
  if s.ntSource = 1 then s.ntMeasure (sext 64 (s.servo.measLo.toNat + 2 ^ 32 * s.servo.measHi.toNat)) (s.extendNs v) else s

/-- One re-step is authorised (R358). -/
def State.restepArm (s : State) : State := s.setNt s.ntState (s.ntBit 8) (s.ntBit 9) true

/-- ZERO_FILL (R390). -/
def State.fillWrite (s : State) (who : Requester) (v : Nat) : State :=
  let seg := v % 64
  if !bit v 31 || s.fuse.grade.segments ≤ seg then s
  else if s.segInUse seg then (s.errAcc (pgMc 0) 0x89 who true 0x180).discard
  else s.startFill seg

/-- CNT_CLEAR of a core and of a cluster (R144, R269). -/
def State.tcClear (s : State) (n : Nat) : State :=
  ([0x120, 0x124, 0x128, 0x12C, 0x130, 0x134, 0x138, 0x13C, 0x410, 0x414, 0x418, 0x41C]).foldl (fun s o => s.setRn (pgTc n) o 0) s
def State.clClear (s : State) (c : Nat) : State :=
  ([0x110, 0x114, 0x118, 0x11C]).foldl (fun s o => s.setRn (pgCl c) o 0) s

/-- The head of the event FIFO leaves (R329). -/
def State.evtPop (s : State) : State := { s with evts := s.evts.drop 1 }

/-- The effect of a write to a WO register; COMMIT apart. -/
def State.woWrite (s : State) (who : Requester) (page off : Nat) (k : Kind) (i : Nat) (v : Word) : State :=
  let n := v.toNat
  if isWindow k ∧ off = 0x804 then s.winCommand who page k i n
  else
    match k with
    | .sys => if off = 0x110 then s.deviceResetWrite who n else if off = 0x154 then s.groupWrite who v else s
    | .gaffer => s.standbyWrite who n
    | .sec => if off = 0x104 then s.bootDoneWrite n else if off = 0x108 then s.fwWrite who n else s.tokenWrite who n
    | .sess =>
      if off = 0x108 then s.sessCloseWrite n
      else match who with | .hart h => s.mboxWrite h n | _ => s
    | .keystore => s.enrolWrite who n
    | .fuses => s.fuseWrite who n
    | .attest => if off = 0x100 then s.attWrite n else s.measWrite n
    | .tk => if n = 1 then s.evtPop else s
    | .nte =>
      if off = 0x11C then (if n = 0xC3 then s.restepArm else s)
      else if off = 0x408 then { s with servo := { s.servo with measLo := v } }
      else if off = 0x40C then { s with servo := { s.servo with measHi := v } }
      else s.measT n
    | .axis => if off = 0x808 then s.swSample i n else s.setReg page off v
    | .reels => s.submitWord ((off - 0x800) / 64) (off % 64 / 4) v who
    | .mc => if i = 0 then s.fillWrite who n else (s.errAcc page 0x83 who true off).discard
    | .tc => if n = 1 then s.tcClear i else s
    | .cl => if n = 1 then s.clClear i else s
    | _ => s

/-! ### RWS registers (R57, R62) -/

/-- The implemented bits of an RWS register: segments 32 to 63 exist on the larger grades only (R388). -/
def State.rwsMask (s : State) (k : Kind) (off : Nat) (r : Row) : Nat :=
  match k with
  | .mc => if off = 0x174 ∧ s.fuse.grade = .wq7064 then 0 else r.mask
  | _ => r.mask

/-- A write stages the value. DESIGN CHOICE (log 59): R28 does not say how a discarded write of an absent port's LAT_TARGET shows:
it sets no ERR_INFO, is answered without error, and is audited as an accepted write. -/
def State.rwsWrite (s : State) (who : Requester) (page off : Nat) (k : Kind) (i : Nat) (r : Row) (v : Word) : State :=
  let lat (s : State) : Bool :=
    match k with
    | .mc => decide (0x200 ≤ off ∧ off < 0x260) && s.portAbsent ((off - 0x200) / 4)
    | _ => false
  let keep : Bool := match k with | .mc => i != 0 && (off == 0x170 || off == 0x174) | _ => false
  if keep then (s.errAcc page 0x83 who true off).discard
  else if s.armed page then (s.errAcc page 0x85 who true off).discard
  else if lat s then s
  else
    let m := w32 (s.rwsMask k off r)
    { s with staged := mapPut s.staged (rkey page off) (v &&& m) }

/-! ### Header registers (R46, R48, R53, R54) -/

/-- A write of IRQ_STAT, ERR_INFO or CUE_PEND. -/
def State.w1cWrite (s : State) (page off : Nat) (v : Word) : State :=
  if off = 0x18 then (if bit v.toNat 31 then s.setRn page 0x18 0 else s)
  else s.setReg page off (s.reg page off &&& ~~~v)

/-- A retired ISP or codec holds ENABLE at 0 (R490). -/
def State.heldOff (s : State) (page : Nat) : Bool :=
  (List.range 142).any (fun u => unitPage u == some page && (s.healthOf u).st == 3)

/-- What a change of CTRL.ENABLE does at once. -/
def State.enableChanged (s : State) (page : Nat) (k : Kind) (i : Nat) (on : Bool) : State :=
  let s := if on then s else s.disarm page
  match k with
  | .port => if on then s else linkDown i s
  | .isp =>
    if on then
      let s := (List.range 3).foldl (fun s o => s.setRn page (outOff o 0x14) 0) s
      s.setIsp i { s.isp i with lines := [], lineErr := false, active := false, complete := false, wr := [0, 0, 0] }
    else s.ispOff i
  | .trk => if on then s else { s with trkDue := [] }
  | _ => s

/-- A write to CTRL, field by field; SOFT_RESET alone when it is written 1. -/
def State.ctrlWrite (s : State) (who : Requester) (page : Nat) (k : Kind) (i : Nat) (v : Word) : State :=
  let r := s.roleOf who
  let okB := roleMeets r (s.lock page 0)
  let okE := roleMeets r (s.lock page 1)
  let old := s.rn page 8
  if bit v.toNat 2 then
    if !okB then s.deny page 8 who v
    else if s.unitHeld k i then (s.errAcc page 0x89 who true 8).discard
    else s.audited who page 8 v (fun s => s.softReset page k i)
  else
    let basic (n : Nat) : Nat := b2n (bit n 0) + 8 * b2n (bit n 3) + 16 * b2n (bit n 4)
    let want := if s.heldOff page then v.toNat / 2 * 2 else v.toNat
    let newB := if okB then basic want else basic old
    let newE := if okE then bit want 1 else bit old 1
    let refused := (!okB && basic want != basic old) || (!okE && bit want 1 != bit old 1)
    let seen := (okB && (s.lock page 0 == 1 || s.lock page 0 == 2)) || (okE && (s.lock page 1 == 1 || s.lock page 1 == 2))
    let s := if seen then s.audit 1 who 0 page 8 v 0 else s
    let s := s.setRn page 8 (newB + 2 * b2n newE)
    let s := if bit newB 0 != bit old 0 then s.enableChanged page k i (bit newB 0) else s
    if refused then s.deny page 8 who v else s.ok

/-- A ROLE_LOCK field after a write: it keeps its value where the role does not reach it, or where it reads 3. -/
def lockField (r : Role) (old new f : Nat) : Nat :=
  let o := bits old (2 * f + 1) (2 * f)
  if roleMeets r o then bits new (2 * f + 1) (2 * f) else o

/-- A write to ROLE_LOCK: an operator changes no field, and ROLE_DENIED is set only where a field would have changed (R54). -/
def State.lockWrite (s : State) (who : Requester) (page : Nat) (v : Word) : State :=
  let r := s.roleOf who
  let old := s.rn page 0x28
  let fields := lockField r old v.toNat 0 + 4 * lockField r old v.toNat 1 + 16 * lockField r old v.toNat 2
  let new := if r = .operator then old else fields
  let s := if new ≠ old then (s.audit 1 who 0 page 0x28 v 0).setRn page 0x28 new else s
  if new ≠ v.toNat % 64 then s.deny page 0x28 who v else s.ok

/-! ### One access to a page -/

/-- A 32-bit write to a register of a present page. -/
def State.writePage (s : State) (who : Requester) (page off : Nat) (k : Kind) (i : Nat) (v : Word) : State :=
  if off = 0x28 then s.lockWrite who page v
  else if off = 0x20 then s.commitWrite page who v
  else if off = 8 then s.ctrlWrite who page k i v
  else
    match rowAt k off with
    | none => (s.errAcc page 0x82 who true off).discard
    | some r =>
      if !s.mayWrite who page off k then s.deny page off who v
      else if 0x400 ≤ off ∧ off < 0x800 ∧ !s.expertEn page then (s.errAcc page 0x81 who true off).discard
      else
        match r.acc with
        | .ro =>
          if k = .thermal ∧ off = 0x10C ∧ bit v.toNat 31 then
            s.audited who page off v (fun s => { s with power := { s.power with peak := none } })
          else (s.errAcc page 0x83 who true off).discard
        | .w1c => s.audited who page off v (fun s => s.w1cWrite page off v)
        | .rws => s.audited who page off v (fun s => s.rwsWrite who page off k i r v)
        | .wo =>
          if isWindow k ∧ off = 0x804 ∧ (v = 2 ∨ v = 3) then s.winCommand who page k i v.toNat
          else s.audited who page off v (fun s => s.woWrite who page off k i v)
        | .rw =>
          if isPointer k off then s.ok.rwWrite who page off k i r v
          else s.audited who page off v (fun s => s.rwWrite who page off k i r v)

/-- A write to a fused page (R75). -/
def State.absentWrite (s : State) (who : Requester) (addr : Nat) : State :=
  let s := s.errSys 0x0E who true addr
  (((s.satReg pgSys 0x120).setRn pgSys 0x124 addr).raise pgSys 4).discard

/-- An access of the wrong size or alignment (R42). -/
def State.sizeErr (s : State) (who : Requester) (addr : Nat) (write : Bool) : State :=
  let page := (addr - pageBase) / 4096
  (if s.pagePresent page then s.errAcc page 0x88 who write (addr % 4096) else s.errSys 0x88 who write addr).errorRsp

/-- A write to an address of the register range. -/
def State.pageWrite (s : State) (who : Requester) (addr size : Nat) (v : Word) : State :=
  let page := (addr - pageBase) / 4096
  if !mayReachPages who then (s.errSys 0x8D who true addr).errorRsp
  else if size ≠ 4 ∨ addr % 4 ≠ 0 then s.sizeErr who addr true
  else
    match pageKind page with
    | none => (s.errSys 0x8B who true addr).discard
    | some (k, i) =>
      if unitPresent s.fuse.grade k i then s.writePage who page (addr % 4096) k i v else s.absentWrite who addr

/-- A read of an address of the register range. -/
def State.pageRead (s : State) (who : Requester) (addr size : Nat) : State :=
  let page := (addr - pageBase) / 4096
  if !mayReachPages who then (s.errSys 0x8D who false addr).errorRsp
  else if size ≠ 4 ∨ addr % 4 ≠ 0 then s.sizeErr who addr false
  else
    match pageKind page with
    | none => (s.errSys 0x8B who false addr).discard
    | some (k, i) =>
      if unitPresent s.fuse.grade k i then
        let (s, v) := s.readPage who page (addr % 4096) k i
        s.okData v
      else s.okData (if addr % 4096 = 0 then w32 (idWord k i false) else 0)

/-! ### Other addresses (R32, R33) -/

/-- The refusal of a memory access, answered with an error. -/
def State.memErr (s : State) (r : MemRefusal) (who : Requester) (addr : Nat) (write : Bool) : State :=
  (s.memRefuse r (portOf who) addr write false false (roleNum (s.roleOf who))).errorRsp

/-- A hart's cores reach DRAM through their L2, which no other engine's write updates (R31): a line it holds answers as the L2 has
it; another is read from memory first, and `f` says what to do with the line then. -/
def State.viaL2 (s : State) (who : Requester) (addr : Nat) (write : Bool) (f : State → L2Line → State) : State :=
  let l := lineOf addr
  match mapGet? s.l2 l with
  | some x => f s x
  | none =>
    match s.memCheck 20 l 64 false with
    | some r => s.memErr r who addr write
    | none =>
      let s := s.readNote 20 l 64 false false
      if s.isPoison l 64 then (s.apuPoison 20 l).errorRsp else f s ⟨s.rawBytes l 64, false⟩

/-- A hart's store to DRAM: the line is in the L2, dirty, and memory is as it was until a write-back (R31). -/
def State.l2Store (s : State) (who : Requester) (addr : Nat) (bs : List Byte) : State :=
  let l := lineOf addr
  s.viaL2 who addr true (fun s x =>
    State.ok { s with l2 := mapPut s.l2 l ⟨fitBytes 64 (x.bytes.take (addr - l) ++ bs ++ x.bytes.drop (addr - l + bs.length)), true⟩ })

/-- A hart's load from DRAM. -/
def State.l2Load (s : State) (who : Requester) (addr size : Nat) : State :=
  let l := lineOf addr
  s.viaL2 who addr false (fun s x =>
    State.okData { s with l2 := mapPut s.l2 l x } (w32 (leNat ((x.bytes.drop (addr - l)).take size))))

/-- Whether a requester's accesses to DRAM pass the APU L2. -/
def cached : Requester → Bool
  | .hart _ => true
  | _ => false

/-- A write to an address. -/
def State.busWrite (s : State) (who : Requester) (addr size : Nat) (v : Word) : State :=
  if inPages addr then s.pageWrite who addr size v
  else if secOnly addr && who == .sec then (s.secOwnWrite addr (leBytes size v.toNat)).ok
  else
    match s.memCheck (portOf who) addr size true with
    | some r => s.memErr r who addr true
    | none => if cached who then s.l2Store who addr (leBytes size v.toNat) else (s.writeData addr (leBytes size v.toNat)).ok

/-- A read of an address. -/
def State.busRead (s : State) (who : Requester) (addr size : Nat) : State :=
  if inPages addr then s.pageRead who addr size
  else if secOnly addr && who == .sec then s.okData (w32 (leNat (s.secOwnBytes addr size)))
  else
    match s.memCheck (portOf who) addr size false with
    | some r => s.memErr r who addr false
    | none =>
      if cached who then s.l2Load who addr size
      else
        let s := s.readNote (portOf who) addr size false false
        if s.isPoison addr size then s.errorRsp else s.okData (w32 (leNat (s.rawBytes addr size)))

/-- The address of a register. -/
def regAddr (page off : Nat) : Nat := pageBase + rkey page off

/-- A 32-bit write of a register. -/
def State.put (s : State) (who : Requester) (page off : Nat) (v : Word) : State := s.busWrite who (regAddr page off) 4 v
/-- A 32-bit read of a register. -/
def State.get (s : State) (who : Requester) (page off : Nat) : State := s.busRead who (regAddr page off) 4

end Sys2Proof.Machine
end

