-- ==== Sys2Proof/Machine/Access.lean ====
section
/-! DEFINITION. The commands that are one access to a register, one definition each, and REG_READ and REG_WRITE (R289, R290),
which make up to eight of them with the session's role. -/

namespace Sys2Proof.Machine

/-! ### Any register -/

def execRegisterWrite (who : Requester) (addr : Addr) (size : Nat) (value : Word) (s : State) :
    Host.Outcome State Fault Refusal := .next (s.busWrite who addr.toNat size value)

/-! ### The header and staged configuration (R48, R54, R59 to R65) -/

def execRoleLockWrite (who : Requester) (page : BitVec 16) (value : Word) (s : State) : Host.Outcome State Fault Refusal :=
  .next (s.put who page.toNat 0x28 value)

def execSoftReset (who : Requester) (page : BitVec 16) (s : State) : Host.Outcome State Fault Refusal :=
  .next (s.put who page.toNat 8 4)

def execCommit (who : Requester) (page : BitVec 16) (key : Word) (s : State) : Host.Outcome State Fault Refusal :=
  .next (s.put who page.toNat 0x20 key)

def execAbort (who : Requester) (page : BitVec 16) (s : State) : Host.Outcome State Fault Refusal :=
  .next (s.put who page.toNat 0x20 0xA5)

def execGroupCommit (who : Requester) (key : Word) (s : State) : Host.Outcome State Fault Refusal :=
  .next (s.put who pgSys 0x154 key)

/-! ### Window commands (R66 to R69) -/

def execWinLoad (who : Requester) (page : BitVec 16) (s : State) : Host.Outcome State Fault Refusal :=
  .next (s.put who page.toNat 0x804 1)

def execWinStore (who : Requester) (page : BitVec 16) (s : State) : Host.Outcome State Fault Refusal :=
  .next (s.put who page.toNat 0x804 2)

def execWinStoreIfGen (who : Requester) (page : BitVec 16) (s : State) : Host.Outcome State Fault Refusal :=
  .next (s.put who page.toNat 0x804 3)

def execWinLoadNext (who : Requester) (page : BitVec 16) (s : State) : Host.Outcome State Fault Refusal :=
  .next (s.put who page.toNat 0x804 4)

/-! ### PLIC (R77, R78) -/

def execPlicClaim (who : Requester) (ctx : Fin 16) (s : State) : Host.Outcome State Fault Refusal :=
  .next (s.get who pgPlic (0x104 + 8 * ctx.val))

def execPlicComplete (who : Requester) (ctx : Fin 16) (source : Word) (s : State) : Host.Outcome State Fault Refusal :=
  .next (s.put who pgPlic (0x104 + 8 * ctx.val) source)

/-! ### Counters and the error log (R144, R269, R387) -/

def execTcCntClear (who : Requester) (core : Fin 128) (value : Word) (s : State) : Host.Outcome State Fault Refusal :=
  .next (s.put who (pgTc core.val) 0x140 value)

def execClCntClear (who : Requester) (cl : Fin 8) (value : Word) (s : State) : Host.Outcome State Fault Refusal :=
  .next (s.put who (pgCl cl.val) 0x140 value)

def execLogTailWrite (who : Requester) (mc : Fin 8) (value : Word) (s : State) : Host.Outcome State Fault Refusal :=
  .next (s.put who (pgMc mc.val) 0x164 value)

/-- REEL_SUBMIT: word 0x3C of the submit window (R282, R283). -/
def execReelSubmit (who : Requester) (reel : Fin 32) (value : Word) (s : State) : Host.Outcome State Fault Refusal :=
  .next (s.put who pgReels (0x800 + 64 * reel.val + 0x3C) value)

/-! ### Power, reset, boot (R526, R532, R535, R572, R575) -/

def execStandbyRequest (who : Requester) (value : Word) (s : State) : Host.Outcome State Fault Refusal :=
  .next (s.put who pgGaffer 0x130 value)

def execTjPeakClear (who : Requester) (value : Word) (s : State) : Host.Outcome State Fault Refusal :=
  .next (s.put who pgThermal 0x10C value)

def execDeviceReset (who : Requester) (value : Word) (s : State) : Host.Outcome State Fault Refusal :=
  .next (s.put who pgSys 0x110 value)

def execDramOpen (who : Requester) (value : Word) (s : State) : Host.Outcome State Fault Refusal :=
  .next (s.put who pgSys 0x400 value)

def execBootDone (who : Requester) (value : Word) (s : State) : Host.Outcome State Fault Refusal :=
  .next (s.put who pgSec 0x104 value)

/-! ### Time, events and axes (R329 to R331, R336, R357, R358, R360) -/

def execTkNsRead (who : Requester) (s : State) : Host.Outcome State Fault Refusal := .next (s.get who pgTk 0x100)

def execEvtW0Latch (who : Requester) (s : State) : Host.Outcome State Fault Refusal := .next (s.get who pgTk 0x120)

def execEvtPop (who : Requester) (value : Word) (s : State) : Host.Outcome State Fault Refusal :=
  .next (s.put who pgTk 0x130 value)

def execAxSwSample (who : Requester) (axis : Fin 8) (value : Word) (s : State) : Host.Outcome State Fault Refusal :=
  .next (s.put who (pgAx axis.val) 0x808 value)

def execAxPhaseRead (who : Requester) (axis : Fin 8) (s : State) : Host.Outcome State Fault Refusal :=
  .next (s.get who (pgAx axis.val) 0x140)

def execNtMeasurement (who : Requester) (value : Word) (s : State) : Host.Outcome State Fault Refusal :=
  .next (s.put who pgNte 0x410 value)

def execRestep (who : Requester) (value : Word) (s : State) : Host.Outcome State Fault Refusal :=
  .next (s.put who pgNte 0x11C value)

def execPtpSecRead (who : Requester) (s : State) : Host.Outcome State Fault Refusal := .next (s.get who pgNte 0x120)

/-! ### Memory and health (R390, R489) -/

def execZeroFill (who : Requester) (value : Word) (s : State) : Host.Outcome State Fault Refusal :=
  .next (s.put who (pgMc 0) 0x180 value)

def execHealthWrite (who : Requester) (unit : Fin 142) (value : Word) (s : State) : Host.Outcome State Fault Refusal :=
  .next (s.put who pgHealth (0x800 + 4 * unit.val) value)

/-! ### Security (R538, R543, R545, R550, R552, R554, R559, R563) -/

def execSessClose (who : Requester) (value : Word) (s : State) : Host.Outcome State Fault Refusal :=
  .next (s.put who pgSess 0x108 value)

def execAttReq (who : Requester) (value : Word) (s : State) : Host.Outcome State Fault Refusal :=
  .next (s.put who pgAttest 0x100 value)

def execMboxCmd (who : Requester) (value : Word) (s : State) : Host.Outcome State Fault Refusal :=
  .next (s.put who pgSess 0x114 value)

def execEnrol (who : Requester) (value : Word) (s : State) : Host.Outcome State Fault Refusal :=
  .next (s.put who pgKeys 0x100 value)

def execFwInstall (who : Requester) (value : Word) (s : State) : Host.Outcome State Fault Refusal :=
  .next (s.put who pgSec 0x108 value)

/-- DEBUG_TOKEN: through the register, or through the JTAG data register DBG_TOKEN. -/
def execDebugToken (jtag : Option (List Byte)) (who : Requester) (value : Word) (s : State) : Host.Outcome State Fault Refusal :=
  .next (match jtag with
    | some b => s.presentToken .sec (some b)
    | none => s.put who pgSec 0x130 value)

def execMeasExtend (who : Requester) (value : Word) (s : State) : Host.Outcome State Fault Refusal :=
  .next (s.put who pgAttest 0x108 value)

def execFuseProgOemHash (who : Requester) (value : Word) (s : State) : Host.Outcome State Fault Refusal :=
  .next (s.put who pgFuses 0x128 value)

def execFuseRevokeRoot (who : Requester) (value : Word) (s : State) : Host.Outcome State Fault Refusal :=
  .next (s.put who pgFuses 0x128 value)

def execFuseRevokeOem (who : Requester) (value : Word) (s : State) : Host.Outcome State Fault Refusal :=
  .next (s.put who pgFuses 0x128 value)

/-! ### REG_READ and REG_WRITE (R289, R290) -/

/-- The result byte of a word: 1 error response, 2 an ERR_INFO was set, 0 done. -/
def Rsp.byte (r : Rsp) : Nat := if r.error then 1 else if r.discarded then 2 else 0

/-- `n` reads at consecutive addresses: the words and their result bytes. -/
def State.regReads (s : State) (who : Requester) : Nat → Nat → State × List Word × List Nat
  | _, 0 => (s, [], [])
  | a, n + 1 =>
    let s := s.busRead who a 4
    let r := s.rsp
    let (s, ws, bs) := State.regReads s who (a + 4) n
    (s, (if r.error then 0 else r.data) :: ws, r.byte :: bs)

/-- Writes at consecutive addresses: their result bytes. -/
def State.regWrites (s : State) (who : Requester) : Nat → List Word → State × List Nat
  | _, [] => (s, [])
  | a, w :: ws =>
    let s := s.busWrite who a 4 w
    let r := s.rsp
    let (s, bs) := State.regWrites s who (a + 4) ws
    (s, r.byte :: bs)

/-- The completion: words read, and the result bytes. -/
def State.regDone (s : State) (c : Cmd) (ws : List Word) (bs : List Nat) : State :=
  let res := fitBytes 32 (ws.flatMap (fun w => leBytes 4 w.toNat)) ++ bs.flatMap (leBytes 1)
  (s.done c (if bs.any (· != 0) then 0x60 else 0) 0 res).ok

def Cmd.regAddr (c : Cmd) : Nat := fld c.bytes 16 5

def regReadCmd (c : Cmd) (s : State) : State :=
  let (s, ws, bs) := s.regReads (.jsc c.session) c.regAddr (fld c.bytes 8 1)
  s.regDone c ws bs

def execRegRead (reel : Fin 32) (s : State) : Host.Outcome State Fault Refusal :=
  .next (s.takeCmd reel.val (opIs 0x07) regReadCmd)

def regWriteCmd (c : Cmd) (s : State) : State :=
  let ws := (List.range (fld c.bytes 8 1)).map (fun i => w32 (fld c.bytes (24 + 4 * i) 4))
  let (s, bs) := s.regWrites (.jsc c.session) c.regAddr ws
  s.regDone c [] bs

def execRegWrite (reel : Fin 32) (s : State) : Host.Outcome State Fault Refusal :=
  .next (s.takeCmd reel.val (opIs 0x08) regWriteCmd)

end Sys2Proof.Machine
end

