-- ==== Sys2Proof/Machine/Clock.lean ====
section
/-! DEFINITION. The time commands of the reels (R361, R362). -/

namespace Sys2Proof.Machine

/-- TIME_GET. -/
def timeGetCmd (c : Cmd) (s : State) : State :=
  s.done c 0 0 (leBytes 5 s.tk ++ leBytes 1 s.ntState ++ leBytes 2 0 ++ leBytes 6 s.ptpSec ++ leBytes 2 0 ++ leBytes 4 s.ptpNs ++
    leBytes 4 (s.rn pgNte 0x114) ++ leBytes 4 (s.rn pgNte 0x110))

def execTimeGet (reel : Fin 32) (s : State) : Host.Outcome State Fault Refusal :=
  .next (s.takeCmd reel.val (opIs 0x20) timeGetCmd)

/-- AXIS_GET. -/
def axisGetCmd (c : Cmd) (s : State) : State :=
  let n := fld c.bytes 8 1
  if 7 < n then s.refuse c 0x90 8
  else
    let a := s.axis n
    s.done c 0 0 (leBytes 8 (wrapTo 64 (s.interp n s.time)) ++ leBytes 8 (wrapTo 64 a.v) ++ leBytes 5 s.tk ++ leBytes 1 a.status)

def execAxisGet (reel : Fin 32) (s : State) : Host.Outcome State Fault Refusal :=
  .next (s.takeCmd reel.val (opIs 0x21) axisGetCmd)

/-- A commit of one slot's staged values: `vals` by register offset; other staged values of the page stay staged, and those of
the slot too when a rule refuses them. Answers the RESULT with the state. -/
def State.cueCommit (s : State) (who : Requester) (n : Nat) (vals : List (Nat × Word)) : State × Nat :=
  let keys := vals.map (fun v => rkey pgCue (cueOff n v.1))
  let rest := s.staged.filter (fun p => !keys.contains p.1)
  let only : SMap Word := vals.foldl (fun (m : SMap Word) (v : Nat × Word) => mapPut m (rkey pgCue (cueOff n v.1)) v.2) (dropPage s.staged pgCue (fun _ => false))
  let t := { s with staged := only }
  match firstFail t.cueFails with
  | some (off, b) =>
    let s := { s with staged := vals.foldl (fun (m : SMap Word) (v : Nat × Word) => mapPut m (rkey pgCue (cueOff n v.1)) v.2) rest }
    (s.commitRes pgCue 3 off b false, 3)
  | none =>
    let u := ((t.applyStaged pgCue).commitRes pgCue 1 0 0 false).auditCommit t pgCue who
    ({ u with staged := rest }, 1)

/-- COMMIT_RES as bytes. -/
def State.cueRes (s : State) : List Byte := leBytes 4 (s.rn pgCue 0x24)

/-- CUE_SET. -/
def cueSetCmd (c : Cmd) (s : State) : State :=
  let n := fld c.bytes 8 1
  if 63 < n then s.refuse c 0x91 8
  else
    let f (o : Nat) : Word := w32 (fld c.bytes o 4)
    let vals := [(0, f 12 &&& 0xF3FFF), (4, f 16), (8, f 20), (0xC, f 24), (0x10, f 28), (0x14, f 32)]
    let (s, r) := s.cueCommit (.jsc c.session) n vals
    s.done c (if r = 3 then 0x92 else 0) 0 s.cueRes

def execCueSet (reel : Fin 32) (s : State) : Host.Outcome State Fault Refusal := .next (s.takeCmd reel.val (opIs 0x22) cueSetCmd)

/-- CUE_DISARM: the slot is committed with ARM cleared (R348). -/
def cueDisarmCmd (c : Cmd) (s : State) : State :=
  let n := fld c.bytes 8 1
  if 63 < n then s.refuse c 0x91 8
  else
    let mine := s.staged.filter (fun p => (List.range 6).any (fun i => p.1 == rkey pgCue (cueOff n (4 * i))))
    let t := { s with staged := s.staged.filter (fun p => !mine.contains p) }
    let ctl := t.cueWill n 0
    let (u, r) := t.cueCommit (.jsc c.session) n [(0, w32 (ctl.toNat / 2 * 2) &&& 0xF3FFF)]
    let back := mine.reverse.foldl (fun m p => mapPut m p.1 p.2) (u.staged.filter (fun p => p.1 ≠ rkey pgCue (cueOff n 0)))
    let u := { u with staged := back }
    if r = 3 then u.done c 0x92 0 u.cueRes
    else u.done c 0 0 (leBytes 4 (u.cueReg n 0x18) ++ leBytes 4 ((u.cueView (cueOff n 0x1C)).getD 0))

def execCueDisarm (reel : Fin 32) (s : State) : Host.Outcome State Fault Refusal :=
  .next (s.takeCmd reel.val (opIs 0x23) cueDisarmCmd)

/-- AXIS_SAMPLE. -/
def axisSampleCmd (c : Cmd) (s : State) : State :=
  let n := fld c.bytes 8 1
  if 7 < n ∨ s.axSource n ≠ 7 then s.refuse c 0x90 8
  else (s.axSample n (fldS c.bytes 16 8) (s.extendTk (fld c.bytes 24 5))).done c 0 0 []

def execAxisSample (reel : Fin 32) (s : State) : Host.Outcome State Fault Refusal :=
  .next (s.takeCmd reel.val (opIs 0x24) axisSampleCmd)

/-- RESTEP_AUTH: only while a master jump is held (R358, R362). -/
def restepAuthCmd (c : Cmd) (s : State) : State :=
  if !s.ntBit 8 then s.refuse c 0x93 0
  else
    let s := s.restepArm
    s.done c 0 0 (leBytes 1 (s.rn pgNte 0x10C % 256))

def execRestepAuth (reel : Fin 32) (s : State) : Host.Outcome State Fault Refusal :=
  .next (s.takeCmd reel.val (opIs 0x25) restepAuthCmd)

/-- TIME_SET: one step, in FREERUN only. -/
def timeSetCmd (c : Cmd) (s : State) : State :=
  if s.ntState ≠ 0 then s.refuse c 0x93 0
  else
    let dest : Nat := 256 * (fld c.bytes 8 6 * 1000000000 + fld c.bytes 16 4)
    let s := { s with servo := { s.servo with setOnce := true } }.stepTime ((dest : Int) - s.time)
    s.done c 0 0 (leBytes 5 s.tk)

def execTimeSet (reel : Fin 32) (s : State) : Host.Outcome State Fault Refusal := .next (s.takeCmd reel.val (opIs 0x26) timeSetCmd)

/-- An entry as 16 bytes. -/
def Evt.bytes (e : Evt) : List Byte := leBytes 4 e.w0.toNat ++ leBytes 4 e.w1.toNat ++ leBytes 4 e.w2.toNat ++ leBytes 4 e.w3.toNat

/-- EVT_READ: as many entries as asked for, or as there are. -/
def evtReadCmd (c : Cmd) (s : State) : State :=
  let n := fld c.bytes 8 1
  let es := s.evts.take n
  let s := { s with evts := s.evts.drop n }
  s.done c 0 0 (fitBytes 32 (es.flatMap Evt.bytes) ++ leBytes 2 s.evts.length)

def execEvtRead (reel : Fin 32) (s : State) : Host.Outcome State Fault Refusal := .next (s.takeCmd reel.val (opIs 0x27) evtReadCmd)

end Sys2Proof.Machine
end

