-- ==== Sys2Proof/Machine/Service.lean ====
section
/-! DEFINITION. What the SEC management core and the APU's DMA engine do on their own: the delay codes of a new temperature
band (R372, R373) and the end of a DMA transfer (R29, R471). -/

namespace Sys2Proof.Machine

/-- The fused delay codes of a band, staged on a controller's page: 352 words of four lanes. -/
def State.stageDly (s : State) (m band : Nat) : State :=
  (List.range 352).foldl (fun s i =>
    { s with staged := mapPut s.staged (rkey (pgMc m) (0x800 + 4 * i)) (Config.fusedDly m i band &&& 0x7F7F7F7F) }) s

/-- BAND_CHANGE_SERVICE: the procedure of R372, when BAND_CHANGE is set. -/
def bandChangeService (m : Nat) (s : State) : State :=
  let p := pgMc m
  if !s.pagePresent p || !bit (s.rn p 0x10) 2 then s
  else
    let band := bits (s.rn p 0x100) 9 8
    let clear (s : State) : State := s.setReg p 0x10 (s.reg p 0x10 &&& ~~~4)
    if s.armed p then clear (s.errAcc p 0x85 .sec true 0x800)
    else
      (clear ((s.stageDly m band).commit5A p .sec)).ok

def execBandChangeService (mc : Fin 8) (s : State) : Host.Outcome State Fault Refusal := .next (bandChangeService mc.val s)

/-- A line of DRAM, which one a free value. -/
def State.freeLine (s : State) : State × Nat :=
  let (s, n) := s.drawNat 40
  (s, dramBase + 64 * (n % ((s.fuse.grade.dramEnd - dramBase) / 64)))

/-- What MEM records of the line whose read gave the DMA engine a response that ECC corrected or could not correct (R382, R383). -/
def State.dmaFinds (s : State) (r : Resp) : State × Nat :=
  let (s, l) := s.freeLine
  ((s.lineFinds l r).lineNote 21 (logFlags false false false) l, l)

/-- DMA_TRANSFER_DONE: a transfer that read poison stops with its error reported, and the poison is recorded. -/
def dmaTransferDone (r : Resp) (s : State) : State :=
  match r with
  | .ok | .corrupt => { s with dma := ⟨true, false⟩ }
  | .corrected => { (s.dmaFinds .corrected).1 with dma := ⟨true, false⟩ }
  | .error => { s with dma := ⟨false, true⟩ }
  | .poisoned =>
    let (s, l) := s.dmaFinds .poisoned
    State.dramUe { s with dma := ⟨false, true⟩ } 0x0A2 l

def execDmaTransferDone (resp : Resp) (s : State) : Host.Outcome State Fault Refusal := .next (dmaTransferDone resp s)

end Sys2Proof.Machine
end

