-- ==== Sys2Proof/Machine/Vector.lean ====
section
/-! DEFINITION. The vector unit (R111 to R116, R213, R214): the VOP functions, vector loads and stores (R209, R212),
accumulator rows (R245 to R250), SCALE_UPDATE (R179 to R181, R215) and activation tables (R115, R118). -/

namespace Sys2Proof.Machine

/-! ### Lanes -/

/-- The 16 signed 64-bit lanes of 32 words, low half in the even lane. -/
def pairs : List Word → List Int
  | a :: b :: r => sext 64 (a.toNat + b.toNat * 2 ^ 32) :: pairs r
  | _ => []

/-- Words of signed 64-bit lanes, modulo 2^64. -/
def unpairs (l : List Int) : List Word :=
  l.flatMap (fun x => let n := wrapTo 64 x; [w32 n, w32 (n / 2 ^ 32)])

def Core.vrAt (c : Core) (i : Nat) : List Word := c.vr.getD (i % 32) (List.replicate 32 0)
def Core.setVr (c : Core) (i : Nat) (v : List Word) : Core := { c with vr := c.vr.set (i % 32) v }

/-- Operands of a vector operation: the registers, the shared operand, TYPE, SAT, SBWORD. -/
structure VArg where
  va : List Word
  vb : List Word
  vd : List Word
  sh : List Word
  ty : Nat
  sat : Bool
  sbw : Nat
  deriving DecidableEq, Repr

/-- A result: the lanes of VD, invalid operations, overflows, and whether a 64-bit add or subtract saturated (R246). -/
structure VRes where
  vd : List Word
  inv : Nat := 0
  ovf : Nat := 0
  comb : Bool := false
  deriving DecidableEq, Repr

/-- The shared operand of R111: a scalar register or a short-buffer word, else VB; an invalid entry raises
SCHEDULE_OVERRUN, a poisoned one POISON_CONSUMED (R135, R136). In 64-bit paired lanes the 32-bit operand stands in both
halves (DESIGN CHOICE, log 39). -/
def State.useShared (s : State) (n w : Nat) (k : List Word → State) : State :=
  let c := s.core n
  match bits w 29 28 with
  | 1 => k (List.replicate 32 (c.sr.getD (bits w 27 23 % 16) 0))
  | 2 =>
    let e := c.sbAt (bits w 27 23)
    if !e.valid then s.overrun n
    else match e.poison with
      | some p => s.poisonFault n p
      | none => k (List.replicate 32 (w32 (fld e.bytes (4 * bits w 22 19) 4)))
  | _ => k (c.vrAt (bits w 34 30))

/-- A vector operation of function `fn`. -/
def State.vop (s : State) (n fn : Nat) (f : VArg → VRes) : State :=
  s.issue n .xe (fun w => isOp 0x23 w && bits w 52 45 == fn) (fun w s =>
    s.useShared n w (fun sh =>
      let c := s.core n
      let r := f ⟨c.vrAt (bits w 39 35), c.vrAt (bits w 34 30), c.vrAt (bits w 44 40), sh, bits w 18 17, bit w 16,
        bits w 22 19⟩
      (s.modCore n (fun c => { (c.setVr (bits w 44 40) r.vd).addFp r.inv r.ovf with
        combineSat := c.combineSat || r.comb })).adv n .xe))

/-! ### Arithmetic by TYPE -/

/-- FP32 lanes with R112's counts. -/
def fpLanes (f : Word → Word → FR) (a b : List Word) : VRes :=
  let l := List.zipWith f a b
  { vd := l.map (·.val), inv := (l.filter (·.invalid)).length, ovf := (l.filter (·.overflow)).length }

/-- Wraps or saturates an exact result to `w` bits of two's complement (R113). -/
def wrapSat (w : Nat) (sat : Bool) (x : Int) : Int :=
  if sat then clampI (-(2 ^ (w - 1))) (2 ^ (w - 1) - 1) x else sext w (wrapTo w x)

/-- INT32 lanes. -/
def intLanes (sat : Bool) (f : Int → Int → Int) (a b : List Word) : VRes :=
  { vd := List.zipWith (fun x y => BitVec.ofInt 32 (wrapSat 32 sat (f x.toInt y.toInt))) a b }

/-- 64-bit paired lanes. -/
def pairLanes (sat : Bool) (f : Int → Int → Int) (a b : List Word) : VRes :=
  { vd := unpairs (List.zipWith (fun x y => wrapSat 64 sat (f x y)) (pairs a) (pairs b)) }

/-- Paired add or subtract of accumulator values: saturating to 56 bits (R113, R246). -/
def accLanes (sat : Bool) (f : Int → Int → Int) (a b : List Word) : VRes :=
  let l := List.zipWith f (pairs a) (pairs b)
  if sat then { vd := unpairs (l.map (clampI accMin accMax)), comb := l.any (fun x => x < accMin || accMax < x) }
  else { vd := unpairs l }

/-- Addition or subtraction by TYPE. -/
def addLike (fp : Word → Word → FR) (i : Int → Int → Int) (a b : List Word) (ty : Nat) (sat : Bool) : VRes :=
  match ty with | 0 => fpLanes fp a b | 1 => intLanes sat i a b | _ => accLanes sat i a b

def vaddFn (x : VArg) : VRes := addLike fadd (· + ·) x.va x.sh x.ty x.sat
def vsubFn (x : VArg) : VRes := addLike fsub (· - ·) x.va x.sh x.ty x.sat

def vmulFn (x : VArg) : VRes :=
  match x.ty with | 0 => fpLanes fmul x.va x.sh | 1 => intLanes x.sat (· * ·) x.va x.sh | _ => pairLanes x.sat (· * ·) x.va x.sh

/-- VA × sh + VD, in FP32 with one rounding. -/
def vfmaFn (x : VArg) : VRes :=
  match x.ty with
  | 0 =>
    let l := List.zipWith (fun (p : Word × Word) d => ffma p.1 p.2 d) (List.zip x.va x.sh) x.vd
    { vd := l.map (·.val), inv := (l.filter (·.invalid)).length, ovf := (l.filter (·.overflow)).length }
  | 1 => { vd := List.zipWith (fun (p : Word × Word) d =>
      BitVec.ofInt 32 (wrapSat 32 x.sat (p.1.toInt * p.2.toInt + d.toInt))) (List.zip x.va x.sh) x.vd }
  | _ => { vd := unpairs (List.zipWith (fun (p : Int × Int) d => wrapSat 64 x.sat (p.1 * p.2 + d))
      (List.zip (pairs x.va) (pairs x.sh)) (pairs x.vd)) }

/-- Maximum or minimum by TYPE (R214); never counted. -/
def pickLike (fp : Word → Word → Word) (i : Int → Int → Int) (a b : List Word) (ty : Nat) : List Word :=
  match ty with
  | 0 => List.zipWith fp a b
  | 1 => List.zipWith (fun x y => BitVec.ofInt 32 (i x.toInt y.toInt)) a b
  | _ => unpairs (List.zipWith i (pairs a) (pairs b))

def vmaxFn (x : VArg) : VRes := { vd := pickLike fmaxNum max x.va x.sh x.ty }
def vminFn (x : VArg) : VRes := { vd := pickLike fminNum min x.va x.sh x.ty }
def vandFn (x : VArg) : VRes := { vd := List.zipWith (· &&& ·) x.va x.sh }
def vorFn (x : VArg) : VRes := { vd := List.zipWith (· ||| ·) x.va x.sh }
def vxorFn (x : VArg) : VRes := { vd := List.zipWith (· ^^^ ·) x.va x.sh }
def vmovFn (x : VArg) : VRes := { vd := x.sh }

/-- Left shift of a `w`-bit lane (R214). -/
def shiftL (w : Nat) (sat : Bool) (x : Int) (n : Nat) : Int :=
  if !sat && w ≤ n then 0 else wrapSat w sat (x * 2 ^ n)

/-- Arithmetic right shift. -/
def shiftR (x : Int) (n : Nat) : Int := x / 2 ^ n

/-- Shifts by TYPE: the count is bits [5:0] of the lane, of its low half when paired. -/
def shiftLike (f32 f64 : Int → Nat → Int) (x : VArg) : VRes :=
  if x.ty = 2 then
    { vd := unpairs (List.zipWith (fun a b => f64 a (wrapTo 6 b)) (pairs x.va) (pairs x.sh)) }
  else { vd := List.zipWith (fun (a b : Word) => BitVec.ofInt 32 (f32 a.toInt (b.toNat % 64))) x.va x.sh }

def vshlFn (x : VArg) : VRes := shiftLike (shiftL 32 x.sat) (shiftL 64 x.sat) x
def vshrFn (x : VArg) : VRes := shiftLike shiftR shiftR x

/-- All-ones where VA < sh. -/
def vcmpltFn (x : VArg) : VRes :=
  let m (b : Bool) : Word := if b then 0xFFFFFFFF else 0
  match x.ty with
  | 0 => { vd := List.zipWith (fun a b => m (flt (fflush a) (fflush b))) x.va x.sh }
  | 1 => { vd := List.zipWith (fun (a b : Word) => m (a.toInt < b.toInt)) x.va x.sh }
  | _ => { vd := (List.zipWith (fun (a b : Int) => m (a < b)) (pairs x.va) (pairs x.sh)).flatMap (fun w => [w, w]) }

/-- VD = mask VA ? VB : VD, lane by lane. -/
def vselFn (x : VArg) : VRes :=
  { vd := List.zipWith (fun (m : Word) (p : Word × Word) => if m ≠ 0 then p.1 else p.2) x.va (List.zip x.vb x.vd) }

/-- FP32 to INT32 of one lane: value, invalid, overflow (R214). -/
def toI32 (mode : Nat) (a : Word) : Word × Nat × Nat :=
  match fdecode a with
  | .nan => (0, 1, 0)
  | .inf s => (if s then 0x80000000 else 0x7FFFFFFF, 0, 1)
  | .fin s m e =>
    let v := roundInt mode s m e
    let r := clampI (-(2 ^ 31)) (2 ^ 31 - 1) v
    (BitVec.ofInt 32 r, 0, b2n (r != v))

/-- VCVT: TYPE 1 to INT32, TYPE 0 to FP32. -/
def vcvtFn (x : VArg) : VRes :=
  if x.ty = 1 then
    let l := x.va.map (toI32 (x.sbw % 4))
    { vd := l.map (·.1), inv := (l.map (·.2.1)).foldl (· + ·) 0, ovf := (l.map (·.2.2)).foldl (· + ·) 0 }
  else { vd := x.va.map (fun (a : Word) => (froundInt a.toInt 0).val) }

/-- One step of the reduction of R114: the first half combined with the second. -/
def halve {α : Type} (f : α → α → α) (l : List α) : List α :=
  List.zipWith f (l.take (l.length / 2)) (l.drop (l.length / 2))

/-- The fixed-order reduction to one lane; 5 stages at most. -/
def reduce5 {α : Type} (f : α → α → α) (stages : Nat) (l : List α) : List α := iterate (fun _ l => halve f l) stages 0 l

/-- Addition with counts carried along the lanes. -/
def faddC (a b : FC) : FC := fc (fadd a.1 b.1) (a.2.1 + b.2.1, a.2.2 + b.2.2)

/-- VREDADD into lane 0. In 64-bit lanes with SAT each addition saturates as VADD64 does, to 56 bits with the
combine-saturation bit (DESIGN CHOICE, log 39). -/
def vredaddFn (x : VArg) : VRes :=
  match x.ty with
  | 0 => match reduce5 faddC 5 (x.va.map (fun w => (w, 0, 0))) with
    | r :: _ => { vd := r.1 :: x.vd.drop 1, inv := r.2.1, ovf := r.2.2 }
    | [] => { vd := x.vd }
  | 1 => match reduce5 (fun a b => wrapSat 32 x.sat (a + b)) 5 (x.va.map (·.toInt)) with
    | r :: _ => { vd := BitVec.ofInt 32 r :: x.vd.drop 1 }
    | [] => { vd := x.vd }
  | _ =>
    let add (a b : Int × Bool) : Int × Bool :=
      let v := a.1 + b.1
      if x.sat then (clampI accMin accMax v, a.2 || b.2 || v < accMin || accMax < v)
      else (wrapSat 64 false v, false)
    match reduce5 add 4 ((pairs x.va).map (fun v => (v, false))) with
    | r :: _ => { vd := unpairs [r.1] ++ x.vd.drop 2, comb := r.2 }
    | [] => { vd := x.vd }

/-- VREDMAX into lane 0. -/
def vredmaxFn (x : VArg) : VRes :=
  match x.ty with
  | 0 => { vd := (reduce5 fmaxNum 5 x.va).take 1 ++ x.vd.drop 1 }
  | 1 => { vd := ((reduce5 max 5 (x.va.map (·.toInt))).take 1).map (BitVec.ofInt 32) ++ x.vd.drop 1 }
  | _ => { vd := unpairs ((reduce5 max 4 (pairs x.va)).take 1) ++ x.vd.drop 2 }

def vadd64Fn (x : VArg) : VRes := accLanes x.sat (· + ·) x.va x.sh
def vsub64Fn (x : VArg) : VRes := accLanes x.sat (· - ·) x.va x.sh

def execVmov (core : Fin 128) (s : State) : Host.Outcome State Fault Refusal := .next (s.vop core.val 0x00 vmovFn)
def execVadd (core : Fin 128) (s : State) : Host.Outcome State Fault Refusal := .next (s.vop core.val 0x01 vaddFn)
def execVsub (core : Fin 128) (s : State) : Host.Outcome State Fault Refusal := .next (s.vop core.val 0x02 vsubFn)
def execVmul (core : Fin 128) (s : State) : Host.Outcome State Fault Refusal := .next (s.vop core.val 0x03 vmulFn)
def execVfma (core : Fin 128) (s : State) : Host.Outcome State Fault Refusal := .next (s.vop core.val 0x04 vfmaFn)
def execVmax (core : Fin 128) (s : State) : Host.Outcome State Fault Refusal := .next (s.vop core.val 0x05 vmaxFn)
def execVmin (core : Fin 128) (s : State) : Host.Outcome State Fault Refusal := .next (s.vop core.val 0x06 vminFn)
def execVand (core : Fin 128) (s : State) : Host.Outcome State Fault Refusal := .next (s.vop core.val 0x07 vandFn)
def execVor (core : Fin 128) (s : State) : Host.Outcome State Fault Refusal := .next (s.vop core.val 0x08 vorFn)
def execVxor (core : Fin 128) (s : State) : Host.Outcome State Fault Refusal := .next (s.vop core.val 0x09 vxorFn)
def execVshl (core : Fin 128) (s : State) : Host.Outcome State Fault Refusal := .next (s.vop core.val 0x0A vshlFn)
def execVshr (core : Fin 128) (s : State) : Host.Outcome State Fault Refusal := .next (s.vop core.val 0x0B vshrFn)
def execVcmplt (core : Fin 128) (s : State) : Host.Outcome State Fault Refusal := .next (s.vop core.val 0x0C vcmpltFn)
def execVsel (core : Fin 128) (s : State) : Host.Outcome State Fault Refusal := .next (s.vop core.val 0x0D vselFn)
def execVcvt (core : Fin 128) (s : State) : Host.Outcome State Fault Refusal := .next (s.vop core.val 0x0E vcvtFn)
def execVredadd (core : Fin 128) (s : State) : Host.Outcome State Fault Refusal := .next (s.vop core.val 0x11 vredaddFn)
def execVredmax (core : Fin 128) (s : State) : Host.Outcome State Fault Refusal := .next (s.vop core.val 0x12 vredmaxFn)
def execVadd64 (core : Fin 128) (s : State) : Host.Outcome State Fault Refusal := .next (s.vop core.val 0x13 vadd64Fn)
def execVsub64 (core : Fin 128) (s : State) : Host.Outcome State Fault Refusal := .next (s.vop core.val 0x14 vsub64Fn)

/-- VLUT (R115): table SBWORD[1:0] of the core. -/
def vlut (n : Nat) (s : State) : State :=
  s.vop n 0x10 (fun x =>
    let tb := (s.core n).tables.getD (x.sbw % 4) ActTable.reset
    let l := x.va.map (fun a => tableLookup tb a (0, 0))
    { vd := l.map (·.1), inv := (l.map (·.2.1)).foldl (· + ·) 0, ovf := (l.map (·.2.2)).foldl (· + ·) 0 })

def execVlut (core : Fin 128) (s : State) : Host.Outcome State Fault Refusal := .next (vlut core.val s)

/-- VQNT (R175): the stored bits of the format in SBWORD in each lane; the lane's bits above them are free. -/
def vqnt (n : Nat) (s : State) : State :=
  let s' := s.vop n 0x0F (fun x =>
    { vd := (x.va.zipIdx).map (fun a =>
        let q := (quantise x.sbw 0 a.1 a.1).bits
        let w := fmtBits x.sbw
        w32 (q % 2 ^ w + 2 ^ w * (Config.freeNat s.free / 2 ^ (32 * a.2)))) })
  { s' with free := s'.free + 1 }

def execVqnt (core : Fin 128) (s : State) : Host.Outcome State Fault Refusal := .next (vqnt core.val s)

/-! ### Loads, stores, accumulator rows -/

/-- 128 bytes as lanes, and back. -/
def lanesOf (b : List Byte) : List Word := (List.range 32).map (fun i => w32 (fld b (4 * i) 4))
def laneBytes (l : List Word) : List Byte := l.flatMap (fun w => leBytes 4 w.toNat)

/-- VLD: 128 bytes of the slot's data, which begins after the slot header (R202, R249). -/
def vld (n : Nat) (s : State) : State :=
  s.issue n .xe (isOp 0x24) (fun w s =>
    match s.coreJob n with
    | none => s
    | some j =>
      s.useToken n (bits w 52 51) (bit w 50) (bit w 49) (fun t s =>
        let a := s.slotAt j.slot.val (bits w 52 51) t.slot + 64 + 128 * bits w 43 30
        if 786432 < a + 128 then s.xlateFault n
        else s.readSpad n a 128 (fun b => (s.modCore n (·.setVr (bits w 48 44) (lanesOf b))).adv n .xe)))

def execVld (core : Fin 128) (s : State) : Host.Outcome State Fault Refusal := .next (vld core.val s)

/-- VST (R212): into the current result slot; with CLAIM the next slot becomes current first. -/
def vst (n : Nat) (s : State) : State :=
  s.issue n .xe (isOp 0x25) (fun w s =>
    match s.coreJob n with
    | none => s
    | some j =>
      let c := s.core n
      let claim := bit w 21
      if (claim && c.slotBusy 3 (c.nextOf 3)) || (bit w 20 && 16 ≤ c.tq3.length) then s
      else
        match (if claim then some (c.nextOf 3) else c.curSlot) with
        | none => s.overrun n
        | some sl =>
          let c := if claim then c.takeSlot 3 (s.ring j.slot.val 3).2.2 else c
          let a := s.slotAt j.slot.val 3 sl + 128 * bits w 43 30
          if 786432 < a + 128 then s.xlateFault n
          else
            let c := c.spadWrite a (laneBytes (c.vrAt (bits w 48 44)))
            (s.setCore n { c with curSlot := some sl, tq3 := if bit w 20 then c.tq3 ++ [sl] else c.tq3 }).adv n .xe)

def execVst (core : Fin 128) (s : State) : Host.Outcome State Fault Refusal := .next (vst core.val s)

/-- A tile's flag word (R169, R244). -/
def Tile.flagWord (t : Tile) : Nat := b2n t.trunc + 2 * b2n t.sat + 4 * b2n t.valid + 65536 * t.allowance

/-- The rows of the whole-tile read so far, after reading a row. DESIGN CHOICE (log 39): a whole-tile read is rows 0 to 31
of one tile in order, checked after row 31; what a row written in between holds is read without a check. -/
def seqNext (q : Option (Nat × Nat)) (t r : Nat) : Option (Nat × Nat) :=
  if r = 0 then some (t, 1) else match q with
    | some (u, k) => if u = t ∧ k = r then some (t, k + 1) else none
    | none => none

/-- VACC_READ (R245); the 32nd row of a whole-tile read is followed by the check of R96. -/
def vaccRead (n : Nat) (s : State) : State :=
  s.issue n .xe (fun w => isOp 0x26 w && !bit w 52) (fun w s =>
    let c := s.core n
    let t := bits w 51 48
    let r := bits w 47 43
    let v := bits w 42 38
    if s.accTiles n ≤ t then s.accRange n
    else if c.tileBusy t then s
    else
      let x := c.tile t
      let row := (List.range 32).map (fun q => x.at_ r q)
      let fl := unpairs (List.replicate 16 ((x.flagWord : Nat) : Int))
      let sq := seqNext c.vaccSeq t r
      let c := (((c.setVr v (unpairs (row.take 16))).setVr (v + 1) fl).setVr (v + 2) (unpairs (row.drop 16))).setVr (v + 3) fl
      let s := (s.setCore n { c with vaccSeq := if sq = some (t, 32) then none else sq }).adv n .xe
      if sq = some (t, 32) then s.readTile n t id else s)

def execVaccRead (core : Fin 128) (s : State) : Host.Outcome State Fault Refusal := .next (vaccRead core.val s)

/-- Values for a row of 56 bits each; one that does not fit is a free value. -/
def State.fitRow (s : State) : List Int → State × List Int
  | [] => (s, [])
  | x :: l =>
    let (s, y) := s.fitS 56 x
    let (s, r) := s.fitRow l
    (s, y :: r)

/-- Checksums of a tile's values (R97). -/
def Tile.rechecked (t : Tile) : Tile :=
  let sumI (l : List Int) : Int := l.foldl (· + ·) 0
  let rows := (List.range 32).map (fun i => sumI ((List.range 32).map (fun q => t.at_ i q)))
  { t with rowChk := rows, colChk := (List.range 32).map (fun q => sumI ((List.range 32).map (fun i => t.at_ i q))),
           corner := sumI rows, m := 32, n := 32, rowsOn := true }

/-- A tile after one row is written (R97, R247). DESIGN CHOICE (log 39): the row 31 write with WHOLE recomputes the checksums
whether or not the other rows were written so before it. -/
def Tile.putRow (t : Tile) (r : Nat) (row : List Int) (whole : Bool) (flags : Nat) (comb : Bool) : Tile :=
  let vals := (List.range 1024).map (fun p => if p / 32 = r then row.getD (p % 32) 0 else t.vals.getD p 0)
  let t := { t with vals := vals, valid := false }
  if !whole then t
  else
    let tr := if r = 0 then bit flags 0 else t.trunc || bit flags 0
    let sa := (if r = 0 then bit flags 1 else t.sat || bit flags 1) || (r == 31 && comb)
    let t := { t with trunc := tr, sat := sa }
    if r = 31 then { t.rechecked with valid := !sa, allowance := 0, rowSums := none, noSide := false } else t

/-- VACC_WRITE (R97, R247). -/
def vaccWrite (n : Nat) (s : State) : State :=
  s.issue n .xe (fun w => isOp 0x26 w && bit w 52) (fun w s =>
    let c := s.core n
    let t := bits w 51 48
    let r := bits w 47 43
    let v := bits w 42 38
    if s.accTiles n ≤ t then s.accRange n
    else if c.tileBusy t || c.osTile t then s
    else
      let whole := bit w 37
      let fl := ((c.vrAt (v + 1)).getD 0 0).toNat
      let (s, row) := s.fitRow (pairs (c.vrAt v) ++ pairs (c.vrAt (v + 2)))
      let x := (c.tile t).putRow r row whole fl c.combineSat
      (s.setCore n { c.setTile t x with combineSat := c.combineSat && !(whole && r == 31) }).adv n .xe)

def execVaccWrite (core : Fin 128) (s : State) : Host.Outcome State Fault Refusal := .next (vaccWrite core.val s)

/-- TLD: 257 entries, X0 and INV_STEP of the slot's data (R115, R118, R186, R197). It waits for the passes that the output
stage holds. -/
def tld (n : Nat) (s : State) : State :=
  s.issue n .xe (isOp 0x28) (fun w s =>
    match s.coreJob n with
    | none => s
    | some j =>
      if !(s.core n).osq.isEmpty then s
      else s.useToken n (bits w 52 51) (bit w 50) (bit w 49) (fun t s =>
        s.readSpad n (s.slotAt j.slot.val (bits w 52 51) t.slot + 64) 1036 (fun b =>
          let tb : ActTable := ⟨w32 (fld b 1028 4), w32 (fld b 1032 4), (List.range 257).map (fun i => w32 (fld b (4 * i) 4))⟩
          (s.modCore n (fun c => { c with tables := c.tables.set (bits w 48 47) tb })).adv n .xe)))

def execTld (core : Fin 128) (s : State) : Host.Outcome State Fault Refusal := .next (tld core.val s)

/-! ### SCALE_UPDATE (R179 to R181, R215) -/

/-- The sums of a frame's statistics records. -/
structure FrameSum where
  mx : Word
  sat : Nat
  ufl : Nat
  elems : Nat
  nt : Nat
  ntr : Nat
  nas : Nat
  retried : Bool
  deriving DecidableEq, Repr

def frameSum (recs : List (List Byte)) : FrameSum :=
  recs.foldl (fun a r =>
    let m := w32 (fld r 0 4)
    let f := fld r 10 1
    { mx := if flt a.mx m then m else a.mx, sat := a.sat + fld r 4 2, ufl := a.ufl + fld r 6 2,
      elems := a.elems + fld r 8 2, nt := a.nt + 1, ntr := a.ntr + b2n (bit f 0), nas := a.nas + b2n (bit f 1),
      retried := a.retried || bit f 2 }) ⟨0, 0, 0, 0, 0, 0, 0, false⟩

/-- CAUSE [3:0] of R179. -/
def excCause (a : FrameSum) (t : Nat) : Nat :=
  b2n (a.elems / 2 ^ t < a.sat) + 2 * b2n (a.elems / 2 ^ t < a.ufl) + 4 * b2n (a.nt / 2 ^ t < a.ntr) + 8 * b2n (0 < a.nas)

/-- SCALE2 after SCALE_UPDATE, with the invalid operations and overflows met (R112, R180). The scalings by powers of two
are exact: each stands inside the one rounding of its line. -/
def newScale (d : List Byte) (a : FrameSum) (fmt : Nat) : FC :=
  let ctl := fld d 4 4
  let cause := excCause a (bits ctl 23 19)
  let s2 := w32 (fld d 8 4)
  if bit ctl 4 && flt 0 a.mx then
    let (q, c) := fc (fdiv a.mx (qmax fmt)) (0, 0)
    let (obs, c) := fc (fldexp q (127 - ((bits ctl 15 8 : Nat) : Int))) c
    if cause % 4 ≠ 0 then (obs, c)
    else
      let (df, c) := fc (fsub obs s2) c
      fc (ffma df (froundDy false 1 (-((bits ctl 18 16 : Nat) : Int))).val s2) c
  else (s2, 0, 0)

/-- The scale descriptor after SCALE_UPDATE (R180). -/
def scaleUpdated (d : List Byte) (a : FrameSum) (fmt : Nat) : List Byte :=
  setFld (setFld (setFld d 8 4 (newScale d a fmt).1.toNat) 12 4 a.mx.toNat) 18 2 (fld d 18 2 + 1)

/-- A SCALE_EXCURSION record (R181). -/
def excursionRecord (cause sd : Nat) (job : BitVec 16) (frames tk : Nat) (a : FrameSum) : List Byte :=
  leBytes 1 0x40 ++ leBytes 1 (cause + 16 * b2n a.retried) ++ leBytes 2 sd ++ leBytes 2 job.toNat ++ leBytes 2 frames ++
    leBytes 5 tk ++ leBytes 3 0 ++ leBytes 4 a.sat ++ leBytes 4 a.ufl ++ leBytes 2 a.ntr ++ leBytes 2 a.nas ++
    leBytes 4 a.mx.toNat

/-- SUPD: the records are the slot's data in order; the working copy is read and written back through the short path, on
which it waits for a request and for the meters (R134, R377). Its read comes back as memory has it. -/
def supd (n : Nat) (s : State) : State :=
  s.issue n .xe (isOp 0x27) (fun w b =>
    match b.coreJob n with
    | none => b
    | some j =>
      b.useToken n (bits w 52 51) (bit w 50) (bit w 49) (fun t s =>
        let nrec := bits w 33 24
        let sd := bits w 45 34
        s.readSpad n (s.slotAt j.slot.val (bits w 52 51) t.slot + 64) (16 * nrec) (fun recs =>
          let addr := s.descAddr j sd
          match if s.shortBusy n then none else s.passKeys n [lineOf addr] with
          | none => b
          | some s =>
            let (s, r, p) := (s.perf n 12 1).lineResp n addr .ok
            if r = .poisoned ∨ r = .error then s.poisonFault n p
            else
              let d := s.rawBytes addr 64
              let a := frameSum ((List.range nrec).map (fun i => (recs.drop (16 * i)).take 16))
              let fmt := s.outFmt j.slot.val sd
              let d' := scaleUpdated d a fmt
              let c := (newScale d a fmt).2
              let cause := excCause a (bits (fld d 4 4) 23 19)
              let s := (s.modCore n (·.addFp c.1 c.2)).keyWrite ⟨n, .xe, true, []⟩ addr (d'.take 48) true
              let s := if cause = 0 then s
                else s.modJob j.id (fun j => { j with records := j.records ++
                  [excursionRecord cause sd j.id (fld d' 18 2) s.tk a] })
              s.adv n .xe)))

def execSupd (core : Fin 128) (s : State) : Host.Outcome State Fault Refusal := .next (supd core.val s)

end Sys2Proof.Machine
end

