-- ==== Sys2Proof/Machine/Dispatch.lean ====
section
/-! DEFINITION. One arm per command: the meaning it calls. -/

namespace Sys2Proof.Machine

/-- What a command does to everything but the queue. -/
def exec (i : Instr) (s : State) : Host.Outcome State Fault Refusal :=
  match i with
  | .registerWrite who addr size value => Sys2Proof.Machine.execRegisterWrite who addr size value s
  | .roleLockWrite who page value => Sys2Proof.Machine.execRoleLockWrite who page value s
  | .softReset who page => Sys2Proof.Machine.execSoftReset who page s
  | .commit who page key => Sys2Proof.Machine.execCommit who page key s
  | .abort who page => Sys2Proof.Machine.execAbort who page s
  | .armedCommitApply page => Sys2Proof.Machine.execArmedCommitApply page s
  | .groupCommit who key => Sys2Proof.Machine.execGroupCommit who key s
  | .winLoad who page => Sys2Proof.Machine.execWinLoad who page s
  | .winStore who page => Sys2Proof.Machine.execWinStore who page s
  | .winStoreIfGen who page => Sys2Proof.Machine.execWinStoreIfGen who page s
  | .winLoadNext who page => Sys2Proof.Machine.execWinLoadNext who page s
  | .windowCmdDone page => Sys2Proof.Machine.execWindowCmdDone page s
  | .plicClaim who ctx => Sys2Proof.Machine.execPlicClaim who ctx s
  | .plicComplete who ctx source => Sys2Proof.Machine.execPlicComplete who ctx source s
  | .tcCntClear who core value => Sys2Proof.Machine.execTcCntClear who core value s
  | .clCntClear who cl value => Sys2Proof.Machine.execClCntClear who cl value s
  | .logTailWrite who mc value => Sys2Proof.Machine.execLogTailWrite who mc value s
  | .loadImage reel => Sys2Proof.Machine.execLoadImage reel s
  | .loadImageVerified slot => Sys2Proof.Machine.execLoadImageVerified slot s
  | .bind reel => Sys2Proof.Machine.execBind reel s
  | .rebind reel => Sys2Proof.Machine.execRebind reel s
  | .run reel => Sys2Proof.Machine.execRun reel s
  | .arm reel => Sys2Proof.Machine.execArm reel s
  | .cancel reel => Sys2Proof.Machine.execCancel reel s
  | .cancelPending reel => Sys2Proof.Machine.execCancelPending reel s
  | .cancelUnbind reel => Sys2Proof.Machine.execCancelUnbind reel s
  | .cancelDone job => Sys2Proof.Machine.execCancelDone job s
  | .query reel => Sys2Proof.Machine.execQuery reel s
  | .regRead reel => Sys2Proof.Machine.execRegRead reel s
  | .regWrite reel => Sys2Proof.Machine.execRegWrite reel s
  | .flowGateClose reel => Sys2Proof.Machine.execFlowGateClose reel s
  | .flowGateOpen reel => Sys2Proof.Machine.execFlowGateOpen reel s
  | .setCap reel => Sys2Proof.Machine.execSetCap reel s
  | .timeGet reel => Sys2Proof.Machine.execTimeGet reel s
  | .axisGet reel => Sys2Proof.Machine.execAxisGet reel s
  | .cueSet reel => Sys2Proof.Machine.execCueSet reel s
  | .cueDisarm reel => Sys2Proof.Machine.execCueDisarm reel s
  | .axisSample reel => Sys2Proof.Machine.execAxisSample reel s
  | .restepAuth reel => Sys2Proof.Machine.execRestepAuth reel s
  | .timeSet reel => Sys2Proof.Machine.execTimeSet reel s
  | .evtRead reel => Sys2Proof.Machine.execEvtRead reel s
  | .poisonedCmd reel => Sys2Proof.Machine.execPoisonedCmd reel s
  | .reelSubmit who reel value => Sys2Proof.Machine.execReelSubmit who reel value s
  | .takeStart job => Sys2Proof.Machine.execTakeStart job s
  | .feRelease job => Sys2Proof.Machine.execFeRelease job s
  | .autoRearm job => Sys2Proof.Machine.execAutoRearm job s
  | .spill job => Sys2Proof.Machine.execSpill job s
  | .spillDone job => Sys2Proof.Machine.execSpillDone job s
  | .restoreDone job resp => Sys2Proof.Machine.execRestoreDone job resp s
  | .xeStart core => Sys2Proof.Machine.execXeStart core s
  | .holdExpire core => Sys2Proof.Machine.execHoldExpire core s
  | .nop core eng => Sys2Proof.Machine.execNop core eng s
  | .loop core eng => Sys2Proof.Machine.execLoop core eng s
  | .endl core eng => Sys2Proof.Machine.execEndl core eng s
  | .bar core eng => Sys2Proof.Machine.execBar core eng s
  | .barrierArrive core eng => Sys2Proof.Machine.execBarrierArrive core eng s
  | .jobBarrierRelease job bid => Sys2Proof.Machine.execJobBarrierRelease job bid s
  | .cuewait core eng => Sys2Proof.Machine.execCuewait core eng s
  | .slate core eng => Sys2Proof.Machine.execSlate core eng s
  | .slateCommit job => Sys2Proof.Machine.execSlateCommit job s
  | .yield core eng => Sys2Proof.Machine.execYield core eng s
  | .phase core => Sys2Proof.Machine.execPhase core s
  | .endRun core eng => Sys2Proof.Machine.execEndRun core eng s
  | .setsr core => Sys2Proof.Machine.execSetsr core s
  | .ld core => Sys2Proof.Machine.execLd core s
  | .mcastSourceIssue core => Sys2Proof.Machine.execMcastSourceIssue core s
  | .rcv core => Sys2Proof.Machine.execRcv core s
  | .gather core => Sys2Proof.Machine.execGather core s
  | .st core => Sys2Proof.Machine.execSt core s
  | .scatter core => Sys2Proof.Machine.execScatter core s
  | .srd core => Sys2Proof.Machine.execSrd core s
  | .swr core => Sys2Proof.Machine.execSwr core s
  | .ldp core => Sys2Proof.Machine.execLdp core s
  | .wcnt core => Sys2Proof.Machine.execWcnt core s
  | .wcntResponse core sb parityOk => Sys2Proof.Machine.execWcntResponse core sb parityOk s
  | .tileResponse core q line resp => Sys2Proof.Machine.execTileResponse core q line resp s
  | .shortResponse core sb resp => Sys2Proof.Machine.execShortResponse core sb resp s
  | .icacheFill core eng resp => Sys2Proof.Machine.execIcacheFill core eng resp s
  | .ticketedStoreAccept core => Sys2Proof.Machine.execTicketedStoreAccept core s
  | .mm core => Sys2Proof.Machine.execMm core s
  | .cv core => Sys2Proof.Machine.execCv core s
  | .arrayDrain core upset => Sys2Proof.Machine.execArrayDrain core upset s
  | .os core => Sys2Proof.Machine.execOs core s
  | .vmov core => Sys2Proof.Machine.execVmov core s
  | .vadd core => Sys2Proof.Machine.execVadd core s
  | .vsub core => Sys2Proof.Machine.execVsub core s
  | .vmul core => Sys2Proof.Machine.execVmul core s
  | .vfma core => Sys2Proof.Machine.execVfma core s
  | .vmax core => Sys2Proof.Machine.execVmax core s
  | .vmin core => Sys2Proof.Machine.execVmin core s
  | .vand core => Sys2Proof.Machine.execVand core s
  | .vor core => Sys2Proof.Machine.execVor core s
  | .vxor core => Sys2Proof.Machine.execVxor core s
  | .vshl core => Sys2Proof.Machine.execVshl core s
  | .vshr core => Sys2Proof.Machine.execVshr core s
  | .vcmplt core => Sys2Proof.Machine.execVcmplt core s
  | .vsel core => Sys2Proof.Machine.execVsel core s
  | .vcvt core => Sys2Proof.Machine.execVcvt core s
  | .vqnt core => Sys2Proof.Machine.execVqnt core s
  | .vlut core => Sys2Proof.Machine.execVlut core s
  | .vredadd core => Sys2Proof.Machine.execVredadd core s
  | .vredmax core => Sys2Proof.Machine.execVredmax core s
  | .vadd64 core => Sys2Proof.Machine.execVadd64 core s
  | .vsub64 core => Sys2Proof.Machine.execVsub64 core s
  | .vld core => Sys2Proof.Machine.execVld core s
  | .vst core => Sys2Proof.Machine.execVst core s
  | .vaccRead core => Sys2Proof.Machine.execVaccRead core s
  | .vaccWrite core => Sys2Proof.Machine.execVaccWrite core s
  | .supd core => Sys2Proof.Machine.execSupd core s
  | .tld core => Sys2Proof.Machine.execTld core s
  | .c1Stop core => Sys2Proof.Machine.execC1Stop core s
  | .c2Stop => Sys2Proof.Machine.execC2Stop s
  | .tensorComplexReset => Sys2Proof.Machine.execTensorComplexReset s
  | .jobRestart job => Sys2Proof.Machine.execJobRestart job s
  | .gafferUpdate => Sys2Proof.Machine.execGafferUpdate s
  | .opSwitch cl => Sys2Proof.Machine.execOpSwitch cl s
  | .opChangeEnd cl => Sys2Proof.Machine.execOpChangeEnd cl s
  | .gatingSlot => Sys2Proof.Machine.execGatingSlot s
  | .barWaitWindow waits => Sys2Proof.Machine.execBarWaitWindow waits s
  | .calibrationUpdate meas => Sys2Proof.Machine.execCalibrationUpdate meas s
  | .droopDetect cl => Sys2Proof.Machine.execDroopDetect cl s
  | .droopRecover cl stretched => Sys2Proof.Machine.execDroopRecover cl stretched s
  | .sagWarn rail => Sys2Proof.Machine.execSagWarn rail s
  | .sagReset rail => Sys2Proof.Machine.execSagReset rail s
  | .thermalSample readings => Sys2Proof.Machine.execThermalSample readings s
  | .thermalCeilingWindow long => Sys2Proof.Machine.execThermalCeilingWindow long s
  | .thermalTrip sensor => Sys2Proof.Machine.execThermalTrip sensor s
  | .prochotAssert => Sys2Proof.Machine.execProchotAssert s
  | .prochotRelease => Sys2Proof.Machine.execProchotRelease s
  | .standbyRequest who value => Sys2Proof.Machine.execStandbyRequest who value s
  | .wakeFrame f => Sys2Proof.Machine.execWakeFrame f s
  | .wakeTimer => Sys2Proof.Machine.execWakeTimer s
  | .coldReset => Sys2Proof.Machine.execColdReset s
  | .poresetAssert => Sys2Proof.Machine.execPoresetAssert s
  | .poresetRelease straps => Sys2Proof.Machine.execPoresetRelease straps s
  | .sysreset straps => Sys2Proof.Machine.execSysreset straps s
  | .deviceReset who value => Sys2Proof.Machine.execDeviceReset who value s
  | .internalReset code index => Sys2Proof.Machine.execInternalReset code index s
  | .dramOpen who value => Sys2Proof.Machine.execDramOpen who value s
  | .bootDone who value => Sys2Proof.Machine.execBootDone who value s
  | .tkWrap => Sys2Proof.Machine.execTkWrap s
  | .tkNsRead who => Sys2Proof.Machine.execTkNsRead who s
  | .inputEdge pin rising t => Sys2Proof.Machine.execInputEdge pin rising t s
  | .evtW0Latch who => Sys2Proof.Machine.execEvtW0Latch who s
  | .evtPop who value => Sys2Proof.Machine.execEvtPop who value s
  | .ssiRead axis t lineLow raw => Sys2Proof.Machine.execSsiRead axis t lineLow raw s
  | .axSwSample who axis value => Sys2Proof.Machine.execAxSwSample who axis value s
  | .axisFilterUpdate axis => Sys2Proof.Machine.execAxisFilterUpdate axis s
  | .axisStall axis => Sys2Proof.Machine.execAxisStall axis s
  | .axPhaseRead who axis => Sys2Proof.Machine.execAxPhaseRead who axis s
  | .cueHandoff slot => Sys2Proof.Machine.execCueHandoff slot s
  | .cueFire slot => Sys2Proof.Machine.execCueFire slot s
  | .pulseEnd pin => Sys2Proof.Machine.execPulseEnd pin s
  | .remoteCaptureSend slot => Sys2Proof.Machine.execRemoteCaptureSend slot s
  | .ppsOutPulse start => Sys2Proof.Machine.execPpsOutPulse start s
  | .ntMeasurement who value => Sys2Proof.Machine.execNtMeasurement who value s
  | .servoRateUpdate => Sys2Proof.Machine.execServoRateUpdate s
  | .ntHoldover => Sys2Proof.Machine.execNtHoldover s
  | .restep who value => Sys2Proof.Machine.execRestep who value s
  | .ptpSecRead who => Sys2Proof.Machine.execPtpSecRead who s
  | .memRequestIssue req => Sys2Proof.Machine.execMemRequestIssue req s
  | .meterRefill port => Sys2Proof.Machine.execMeterRefill port s
  | .memReadComplete ch ecc syndrome => Sys2Proof.Machine.execMemReadComplete ch ecc syndrome s
  | .memWrite ch => Sys2Proof.Machine.execMemWrite ch s
  | .cmdParityError ch recent => Sys2Proof.Machine.execCmdParityError ch recent s
  | .refresh ch => Sys2Proof.Machine.execRefresh ch s
  | .dramTempRead mc degC => Sys2Proof.Machine.execDramTempRead mc degC s
  | .bandChangeService mc => Sys2Proof.Machine.execBandChangeService mc s
  | .zeroFill who value => Sys2Proof.Machine.execZeroFill who value s
  | .zeroFillDone seg => Sys2Proof.Machine.execZeroFillDone seg s
  | .linkUp p => Sys2Proof.Machine.execLinkUp p s
  | .linkDown p => Sys2Proof.Machine.execLinkDown p s
  | .frameReceive p f => Sys2Proof.Machine.execFrameReceive p f s
  | .pfcRefresh p => Sys2Proof.Machine.execPfcRefresh p s
  | .pfcReceive p enable quanta => Sys2Proof.Machine.execPfcReceive p enable quanta s
  | .apuRxFrame p => Sys2Proof.Machine.execApuRxFrame p s
  | .txFrameDone p => Sys2Proof.Machine.execTxFrameDone p s
  | .flowFrame p => Sys2Proof.Machine.execFlowFrame p s
  | .phaseFrame p => Sys2Proof.Machine.execPhaseFrame p s
  | .handshakeFrame p => Sys2Proof.Machine.execHandshakeFrame p s
  | .attach p => Sys2Proof.Machine.execAttach p s
  | .detach p => Sys2Proof.Machine.execDetach p s
  | .cmdFrame p => Sys2Proof.Machine.execCmdFrame p s
  | .ackFrame p => Sys2Proof.Machine.execAckFrame p s
  | .ackSend reel => Sys2Proof.Machine.execAckSend reel s
  | .cmplSend reel => Sys2Proof.Machine.execCmplSend reel s
  | .cmplRetry reel => Sys2Proof.Machine.execCmplRetry reel s
  | .sessionLost session => Sys2Proof.Machine.execSessionLost session s
  | .csiPacket port pkt => Sys2Proof.Machine.execCsiPacket port pkt s
  | .ispParamLoad isp resp => Sys2Proof.Machine.execIspParamLoad isp resp s
  | .ispFrameDone isp => Sys2Proof.Machine.execIspFrameDone isp s
  | .decodePicture vc => Sys2Proof.Machine.execDecodePicture vc s
  | .encodeFrame vc ctx => Sys2Proof.Machine.execEncodeFrame vc ctx s
  | .trkFrame feed => Sys2Proof.Machine.execTrkFrame feed s
  | .dailyStart unit => Sys2Proof.Machine.execDailyStart unit s
  | .dailyComplete unit result tests durationUs => Sys2Proof.Machine.execDailyComplete unit result tests durationUs s
  | .packVerify => Sys2Proof.Machine.execPackVerify s
  | .healthWrite who unit value => Sys2Proof.Machine.execHealthWrite who unit value s
  | .tjPeakClear who value => Sys2Proof.Machine.execTjPeakClear who value s
  | .hello origin => Sys2Proof.Machine.execHello origin s
  | .offer origin hsId => Sys2Proof.Machine.execOffer origin hsId s
  | .accept origin => Sys2Proof.Machine.execAccept origin s
  | .done origin hsId => Sys2Proof.Machine.execDone origin hsId s
  | .hsTimeout origin hsId => Sys2Proof.Machine.execHsTimeout origin hsId s
  | .close origin => Sys2Proof.Machine.execClose origin s
  | .sessClose who value => Sys2Proof.Machine.execSessClose who value s
  | .sessionLifetimeExpiry session => Sys2Proof.Machine.execSessionLifetimeExpiry session s
  | .attestReq origin => Sys2Proof.Machine.execAttestReq origin s
  | .attReq who value => Sys2Proof.Machine.execAttReq who value s
  | .attestRsp => Sys2Proof.Machine.execAttestRsp s
  | .rekey p => Sys2Proof.Machine.execRekey p s
  | .rekeyTxSwitch p => Sys2Proof.Machine.execRekeyTxSwitch p s
  | .mboxCmd who value => Sys2Proof.Machine.execMboxCmd who value s
  | .enrol who value => Sys2Proof.Machine.execEnrol who value s
  | .fwInstall who value => Sys2Proof.Machine.execFwInstall who value s
  | .debugToken jtag who value => Sys2Proof.Machine.execDebugToken jtag who value s
  | .jtagInstruction ins => Sys2Proof.Machine.execJtagInstruction ins s
  | .measExtend who value => Sys2Proof.Machine.execMeasExtend who value s
  | .fuseProgOemHash who value => Sys2Proof.Machine.execFuseProgOemHash who value s
  | .fuseRevokeRoot who value => Sys2Proof.Machine.execFuseRevokeRoot who value s
  | .fuseRevokeOem who value => Sys2Proof.Machine.execFuseRevokeOem who value s
  | .auditFlashProgram ok => Sys2Proof.Machine.execAuditFlashProgram ok s
  | .dmaTransferDone resp => Sys2Proof.Machine.execDmaTransferDone resp s
  | .pfcPauseExpiry p cls => Sys2Proof.Machine.execPfcPauseExpiry p cls s
  | .dailyOverdue unit => Sys2Proof.Machine.execDailyOverdue unit s
  | .clkLoss port => Sys2Proof.Machine.execClkLoss port s

end Sys2Proof.Machine
end

