-- ==== Sys2Proof/Safety.lean ====
section
/-! DEFINITION. What counts as a safe run: a step that answers a next state. -/

namespace Sys2Proof.Machine

/-- The command completes. -/
def Completes (i : Instr) (s : State) : Prop := ∃ t, exec i s = .next t

/-- The step completes. -/
def StepCompletes (s : State) : Prop := ∃ t, step s = .next t

/-- What fuses may still do: a grade, a temperature grade, repair, the root key's digest and the device secret stay; a revocation
and a validity stay once they are burnt; a security version never falls (R5, R536, R548, R563). -/
structure FuseLe (a b : Fuses) : Prop where
  grade : b.grade = a.grade
  tempX : b.tempX = a.tempX
  bankOut : b.bankOut = a.bankOut
  rootHash : b.rootHash = a.rootHash
  rootValid : b.rootValid = a.rootValid
  dus : b.dus = a.dus
  rootRevoked : a.rootRevoked = true → b.rootRevoked = true
  oemValid : a.oemValid = true → b.oemValid = true
  oemRevoked : a.oemRevoked = true → b.oemRevoked = true
  svnStage1 : a.svnStage1.toNat ≤ b.svnStage1.toNat
  svnApu : a.svnApu.toNat ≤ b.svnApu.toNat
  svnTc : a.svnTc.toNat ≤ b.svnTc.toNat

/-! ### The invariant -/

/-- The invariant of every step: the memory's form is canonical. -/
def MemCanonical (s : State) : Prop := mapWf 0 s.dram = true

/-! ### Accesses -/

/-- A requester reaches a register of a present page of a kind and number (R42 to R44, R49, R75). -/
structure Reaches (s : State) (who : Requester) (page off : Nat) (k : Kind) (i : Nat) : Prop where
  may : mayReachPages who = true
  low : off < 4096
  aligned : off % 4 = 0
  kind : pageKind page = some (k, i)
  here : unitPresent s.fuse.grade k i = true

/-- A register of a reached page admits a write: it is listed, its region's lock admits the role (R53, R56), and its region is
open when it is the expert region (R50). -/
structure Opens (s : State) (who : Requester) (page off : Nat) (k : Kind) (i : Nat) (r : Row) : Prop where
  reach : Reaches s who page off k i
  header : off ≠ 0x28 ∧ off ≠ 0x20 ∧ off ≠ 8
  row : rowAt k off = some r
  role : s.mayWrite who page off k = true
  expert : 0x400 ≤ off → off < 0x800 → s.expertEn page = true

/-- What R55 asks after an accepted access to a region: one more audit entry where the region is locked at installer or maker,
and nothing of SEC changed elsewhere. -/
def AuditTrail (s t : State) (event page region off : Nat) (v : Word) : Prop :=
  if s.lock page region = 1 ∨ s.lock page region = 2 then
    ∃ e : AuditEntry, e.event = event ∧ e.page = page ∧ e.offset = off ∧ e.value = v ∧ e.result = 0 ∧
      t.sec = { s.sec with staged := s.sec.staged ++ [e], auditSeq := s.sec.auditSeq + 1, chain := e.chain }
  else t.sec = s.sec

/-- The answer of an access that was accepted, discarded with an ERR_INFO, or refused with an error response. -/
def State.accepted (t : State) : Prop := t.rsp.error = false ∧ t.rsp.discarded = false
def State.discarded (t : State) : Prop := t.rsp.error = false ∧ t.rsp.discarded = true

/-- An error of an access is recorded on a page (R46, R47): VALID, CODE, ROLE, WRITE and the requester's port when none was
recorded before, else MORE alone. -/
def ErrorRecorded (s t : State) (page code : Nat) (who : Requester) (write : Bool) : Prop :=
  if bit (s.rn page 0x18) 31 then
    t.reg page 0x18 = s.reg page 0x18 ||| 0x40000000 ∧ t.reg page 0x1C = s.reg page 0x1C
  else
    bit (t.rn page 0x18) 31 = true ∧ bit (t.rn page 0x18) 30 = false ∧ bits (t.rn page 0x18) 7 0 = code ∧
      bits (t.rn page 0x18) 9 8 = roleNum (s.roleOf who) ∧ bits (t.rn page 0x18) 14 10 = portOf who ∧
      bit (t.rn page 0x18) 15 = write

/-- Registers whose write does nothing but put the value into force: every RW register above the header but the ones with a
rule of their own (PLIC completion, reel pointers, LOG_TAIL, FORCE_2X, queue heads, mailbox addresses, HEALTH, BOOT_CTL,
CUEOUT_CFG). -/
def plainReg (k : Kind) (off : Nat) : Bool :=
  decide (0x100 ≤ off) && !isPointer k off &&
    (match k with
     | .plic => !(decide (0x100 ≤ off) && decide (off < 0x180))
     | .reels => false
     | .mc => off != 0x400
     | .port => off != 0x17C
     | .sess => false
     | .health => decide (off < 0x800)
     | .sys => off != 0x400
     | .cuepin => decide (0x140 ≤ off)
     | _ => true)

/-- The staged set of a page is in force (R57, R59): every staged register holds its value, and the others theirs. The cue slots
are the exception of R348, where a slot that has been handed off keeps its words for the firing in progress; the delay codes stand
in DLY of the controller; and TBL_LOAD of an ISP reads 0 once the tables are loaded. -/
def InForce (s t : State) (page : Nat) (k : Kind) (i : Nat) : Prop :=
  (∀ off r, 0x100 ≤ off → rowAt k off = some r → r.acc = .rws → (k, off) ≠ (.isp, 0x10C) → (k = .cue → off < 0x800) →
    (k = .mc → off < 0x800 ∨ 0xD80 ≤ off) → t.rn page off = s.next page off) ∧
  (k = .isp → t.rn page 0x10C % 2 ^ 31 = s.next page 0x10C % 2 ^ 31) ∧
  (k = .mc → ∀ w, w < 352 → t.dlyCode i w = mapGet s.staged (rkey page (0x800 + 4 * w)) (s.dlyCode i w)) ∧
  (k = .cue → ∀ n, n < 64 → ∀ o ∈ cueRegs,
    if (s.cue n).handed then
      t.reg page (cueOff n o) = s.reg page (cueOff n o) ∧
        mapGet? (t.cue n).later o = (mapGet? s.staged (rkey page (cueOff n o))).or (mapGet? (s.cue n).later o)
    else t.rn page (cueOff n o) = s.next page (cueOff n o))

/-- Pages whose commit does nothing but put the staged values into force: every page but the ones whose unit acts on the new
values at once (health, sessions, network time, axes, cues, ports, ISPs, reels, fault ring, memory controllers). -/
def commitsPlainly : Kind → Bool
  | .health => false | .sess => false | .nte => false | .axis => false | .cue => false | .port => false | .isp => false
  | .reels => false | .faults => false | .mc => false | _ => true

/-- Every register word in force but the listed ones (page, offset) is as before. -/
def OtherRegs (s t : State) (l : List (Nat × Nat)) : Prop :=
  ∀ page off, off < 4096 → (page, off) ∉ l → t.reg page off = s.reg page off

/-- A byte of DRAM. -/
def State.byte (s : State) (a : Nat) : Byte := mapGet s.dram a 0

/-! ### Reel commands -/

/-- No line of the range is poisoned, and ECC finds nothing in its cells (R382 to R384). -/
def State.linesClean (s : State) (a n : Nat) : Bool :=
  (unitsTouched 64 a n).all (fun l => !s.poison.contains (64 * l) && (mapGet? s.cellErr (64 * l)).isNone)

/-- JSC takes the command at HEAD of a reel and finds nothing to refuse before its own checks (R285 to R289, R539): it may take
one, its turn come and nothing holding it back; its 64 bytes read clean; its opcode, role and lock are in order, and every
reserved byte is 0. -/
structure Takes (s : State) (n : Nat) (c : Cmd) : Prop where
  may : s.mayTake n = true
  read : s.memCheck 19 (s.headAddr n) 64 false = none
  clean : s.linesClean (s.headAddr n) 64 = true
  cmd : c = s.headCmd n (s.rawBytes (s.headAddr n) 64)
  known : knownOp c.op = true
  role : c.atLeast (cmdRole c.bytes) = true
  lock : s.lockOk c = true
  zeros : reservedAt c.bytes = none

/-- Where the next completion entry of a reel goes. -/
def State.entryAddr (s : State) (n : Nat) : Nat :=
  s.reelBase n + 64 * 2 ^ s.reelLog n + 64 * ((s.reel n).chead % 2 ^ s.reelLog n)

/-- A completion entry stands at CHEAD of a reel (R290): CHEAD moves on, the reel's interrupt cause sets, and the 64 bytes hold the
entry where the controllers accept the write. -/
def EntryAt (s t : State) (n type status seq : Nat) (job : BitVec 16) (opcode detail : Nat) (result : List Byte) : Prop :=
  (t.reel n).chead = ringNext (s.reelLog n) (s.reel n).chead ∧ bit (t.rn pgReels 0x10) n = true ∧
    (t.memCheck 19 (s.entryAddr n) 64 true = none →
      t.rawBytes (s.entryAddr n) 16 = leBytes 1 type ++ leBytes 1 status ++ leBytes 2 seq ++ leBytes 2 job.toNat ++
        leBytes 1 opcode ++ leBytes 1 n ++ leBytes 5 s.tk ++ leBytes 3 detail ∧
      t.rawBytes (s.entryAddr n + 16) 48 = fitBytes 48 result)

/-- A completion entry is written, and no other byte of memory changes. -/
def EntryWritten (s t : State) (n type status seq : Nat) (job : BitVec 16) (opcode detail : Nat) (result : List Byte) : Prop :=
  EntryAt s t n type status seq job opcode detail result ∧
    ∀ x, x < s.entryAddr n ∨ s.entryAddr n + 64 ≤ x → t.byte x = s.byte x

/-- The command at HEAD leaves its ring, and its CMD_DONE is written; other reels stay as they are. -/
def CommandDone (s t : State) (c : Cmd) (status detail : Nat) (result : List Byte) : Prop :=
  (t.reel c.reel).head = ringNext (s.reelLog c.reel) (s.reel c.reel).head ∧
    EntryWritten s t c.reel 1 status c.seq c.job c.op detail result ∧ (∀ m, m ≠ c.reel → t.reel m = s.reel m)

/-- Nothing but a reel's ring and completion changed: the reel and JSC's turn, memory and its tags at the entry, IRQ_STAT of the
reels page, and the error registers and logs of the memory controllers where they refuse the entry. -/
def ReelFrame (s t : State) : Prop :=
  t = { s with reels := t.reels, turn := t.turn, regs := t.regs, plicPending := t.plicPending, dram := t.dram, tags := t.tags,
               poison := t.poison, cellErr := t.cellErr }

/-- An accepted RUN or ARM joins the pending runs of its job (R289, R308, R309): its loop counts and tag, the reserved completion entry,
and for ARM the cue slot, now the job's own. No completion is written; nothing else but the session's accounting changed. -/
def RunQueued (s t : State) (c : Cmd) (j : Job) (arm : Bool) : Prop :=
  (∃ r : Run, t.job? c.job = some { j with runs := j.runs ++ [r], st := if j.st = .idle then .queued else j.st } ∧
    r.reel = c.reel ∧ r.seq = c.seq ∧ r.opcode = c.op ∧ r.session = c.session ∧ r.gen = c.gen ∧ r.acc = s.runCount ∧
    r.armed = arm ∧ r.tag = fld c.bytes 32 8 ∧ r.start = none ∧ r.restarts = 0 ∧ r.preempts = 0 ∧
    (∀ m, m < 4 → r.lcnt.getD m 0 =
      if bit (fld c.bytes 8 1) m then fld c.bytes (16 + 4 * m) 3 else s.sheet j.slot.val (96 + 4 * m) 4) ∧
    (arm = true → r.cue = fld c.bytes 9 1) ∧ r.autoRearm = (arm && bit (fld c.bytes 8 1) 4)) ∧
  (∀ id, id ≠ c.job → t.job? id = s.job? id) ∧ t.runCount = s.runCount + 1 ∧
  (t.reel c.reel).reserved = (s.reel c.reel).reserved + 1 ∧ (t.reel c.reel).chead = (s.reel c.reel).chead ∧
  (t.reel c.reel).head = ringNext (s.reelLog c.reel) (s.reel c.reel).head ∧ (∀ m, m ≠ c.reel → t.reel m = s.reel m) ∧
  (∀ q, (t.cue q).owner = if arm = true ∧ q = fld c.bytes 9 1 ∧ q < 64 then some c.job else (s.cue q).owner) ∧
  t = { s with reels := t.reels, turn := t.turn, jobs := t.jobs, runCount := t.runCount, cues := t.cues, winTab := t.winTab,
               winGen := t.winGen }

/-- What every CANCEL does (R315): the pending runs are gone, the reel is busy until CANCEL_DONE, and the job notes the reel, SEQ and
SCOPE; a FAILED job is IDLE again, and a QUEUED one without its runs too. -/
def Cancelling (s t : State) (c : Cmd) (j k : Job) (scope : Nat) : Prop :=
  t.job? c.job = some k ∧ k.runs = [] ∧ k.cancel = some (c.reel, c.seq, scope) ∧ k.slot = j.slot ∧ k.placed = j.placed ∧
    (t.reel c.reel).busy = true ∧ (t.reel c.reel).head = ringNext (s.reelLog c.reel) (s.reel c.reel).head ∧
    (∀ id, id ≠ c.job → (t.job? id).isSome = (s.job? id).isSome)

/-- SCOPE 0 or 2 stops the current take (R316, R317): with none nothing more happens; an armed or spilled one ends at once, its cores
free; the cores of another stop and the job is CANCELLING until CANCEL_DONE. -/
def TakeCancelled (s t : State) (j k : Job) : Prop :=
  k.rearm = none ∧
    (j.cur = none → k.cur = none ∧ k.cores = j.cores ∧ t.cores = s.cores) ∧
    (j.cur ≠ none → j.cores = [] ∨ j.isArmed = true → k.cur = none ∧ k.cores = [] ∧ k.st = .idle ∧ k.spillSaves = [] ∧
      ∀ n ∈ j.cores, n < 128 → (s.core n).job = j.id → (t.core n).mode = .idle ∧ (t.core n).job = 0) ∧
    (j.cur ≠ none → j.cores ≠ [] → j.isArmed = false → k.st = .cancelling ∧ k.cores = j.cores ∧ k.cur = j.cur ∧
      k.records = [] ∧ k.claimed = [] ∧
      ∀ n ∈ j.cores, n < 128 → (t.core n).mode = .stopped ∧ (t.core n).tq0 = [] ∧ (t.core n).sets = [] ∧ (t.core n).xfers = [])

/-- The image of a slot lies in it, header, section table and streams, so that the lock of a bound slot keeps them (R187, R191). -/
def ImageInSlot (s : State) (slot : Nat) : Prop :=
  256 + 16 * s.imgN slot 9 1 ≤ s.slotBytes ∧
    ∀ e : Engine, s.secOff slot (streamTy e) + 8 * s.streamLen slot e ≤ s.slotBytes

/-! ### Instructions of a core -/

/-- The run of a core's take has had its first FE instruction, which is its START and the resumption of a restarted job (R290, R482).
What that instruction writes beside its own effect, `TakesAreReleasedAndRearmed` states. -/
def Started (s : State) (n : Nat) (e : Engine) : Prop :=
  e = .fe → ∀ j, s.coreJob n = some j → j.resuming = false ∧ ∀ r, j.cur = some r → r.start ≠ none

/-- An engine issues a word whose condition holds (R81, R133, R139, R208): the core runs, its cluster is not gated, nothing holds
the engine, and the word stands at its program counter in the instruction cache. -/
structure Issues (s : State) (n : Nat) (e : Engine) (w : Nat) : Prop where
  core : n < 128
  ready : s.engReady n e = true
  word : ((s.core n).word? e).map BitVec.toNat = some w
  cond : condHolds ((s.core n).eng e) w = true
  started : Started s n e

/-- A core becomes `c`, its cached lines the same ones in another order of use; every other core stays. -/
def NewCore (s t : State) (n : Nat) (c : Core) : Prop :=
  t.core n = { c with icache := (t.core n).icache } ∧ (∀ l, l ∈ (t.core n).icache ↔ l ∈ (s.core n).icache) ∧
    ∀ m, m ≠ n → t.core m = s.core m

/-- The engine stands after its instruction. -/
def Eng.after (g : Eng) : Eng := { g with pc := g.pc + 1, missed := false }

/-- A descriptor's 64 bytes as a core reads them (R198): tag 0 is none, a cached one comes from the program slot, another from a
short read of memory that neither waits nor comes back bad. `u` is the state after it. -/
def DescReads (s : State) (n : Nat) (j : Job) (td : Nat) (d : List Byte) (u : State) : Prop :=
  if td = 0 then d = List.replicate 64 0 ∧ u = s
  else if (s.core n).dcache.contains td then d = s.descImg j.slot.val td ∧ u = s
  else s.shortReads n [lineOf (s.descAddr j td)] = some (u, none) ∧ d = s.rawBytes (s.descAddr j td) 64

/-- Every short-buffer entry that drives a map is valid and not poisoned (R135, R136). -/
def DriversReady (s : State) (n : Nat) (rs : List MapRec) : Prop :=
  ∀ r ∈ rs, r.drv = 6 → ∀ e, (s.core n).sb[r.sb]? = some e → e.valid = true ∧ e.poison = none

/-- A line that a core reads is clean: its scratchpad check holds, memory answers and ECC finds nothing, or cluster memory holds
no poison. -/
def LineClean (s : State) (n l : Nat) : Prop :=
  if isSpadKey l then (s.core n).spadChk (l - 2 ^ 41) 64 = .ok
  else if isDramKey l then s.memCheck (clusterOf n) (lineOf l) 64 false = none ∧ s.linesClean (lineOf l) 64 = true
  else (s.cluster (clOfKey l)).memPoison.contains (lineOf (l % 2 ^ 24)) = false

/-- A vector instruction's shared operand (R111): a scalar register in every lane, a word of a valid short-buffer entry in every
lane, or VB. -/
def Shared (c : Core) (w : Nat) (sh : List Word) : Prop :=
  match bits w 29 28 with
  | 1 => sh = List.replicate 32 (c.sr.getD (bits w 27 23 % 16) 0)
  | 2 => (c.sbAt (bits w 27 23)).valid = true ∧ (c.sbAt (bits w 27 23)).poison = none ∧
      sh = List.replicate 32 (w32 (fld (c.sbAt (bits w 27 23)).bytes (4 * bits w 22 19) 4))
  | _ => sh = c.vrAt (bits w 34 30)

/-- A core raised a fault (R141): it stops, drops its queues, transfers and sets, and TC_FAULT holds the code. -/
def CoreStopped (t : State) (n code : Nat) : Prop :=
  (t.core n).mode = .stopped ∧ (t.core n).sets = [] ∧ (t.core n).tq0 = [] ∧ (t.core n).tq1 = [] ∧ (t.core n).tq2 = [] ∧
    (t.core n).tq3 = [] ∧ (t.core n).xfers = [] ∧ bits (t.rn (pgTc n) 0x11C) 7 0 = code

/-- Nothing but the cores, the core's event counters and their wrap cause changed. -/
def CoreFrame (s t : State) (n : Nat) : Prop :=
  t = { s with cores := t.cores, regs := t.regs, plicPending := t.plicPending } ∧
    OtherRegs s t [(pgTc n, 0x10), (pgTc n, 0x410), (pgTc n, 0x414), (pgTc n, 0x418), (pgTc n, 0x41C)]

/-- An instruction that read descriptors or an index through the short path, and nothing else, changed beside the cores: what
the controllers keep of a read (meters, the error log and its times) and the free value that says how it came back. -/
def ReadFrame (s t : State) (n : Nat) : Prop :=
  t = { s with cores := t.cores, regs := t.regs, plicPending := t.plicPending, meters := t.meters, free := t.free,
               ceLast := t.ceLast } ∧
    ∀ page off, off < 4096 → page ∉ (List.range 8).map pgMc →
      (page, off) ∉ [(pgTc n, 0x10), (pgTc n, 0x410), (pgTc n, 0x414), (pgTc n, 0x418), (pgTc n, 0x41C)] →
      t.reg page off = s.reg page off

/-- The boxed tensor of a fetch instruction: its map's records, whose drivers are ready, and its tensor descriptor as read. -/
structure BoxReady (s : State) (n : Nat) (j : Job) (td m : Nat) (t : Tensor) (rs : List MapRec) (u : State) : Prop where
  map : rs = mapRecs (s.mapBytes j.slot.val m)
  drivers : DriversReady s n rs
  desc : ∃ d, DescReads s n j td d u ∧ t = tensorOf (s.lcnt n) d

/-- The index values of a GATHER or SCATTER as read (R205): the index tensor's descriptor, GRAN's positions along it, every one
at an address or outside it, its lines read clean by the short path or from the scratchpad; a value outside the indexed dimension
is none. `u` is the state after the reads. -/
def IdxReads (s : State) (n : Nat) (j : Job) (gran itd : Nat) (t : Tensor) (origin : List Int) (ext : List Nat) (ix : Idx)
    (u : State) : Prop :=
  ∃ d v, DescReads s n j itd d v ∧
    let it := tensorOf (s.lcnt n) d
    let cells := (idxPos gran origin ext).map (fun p => s.cell n j it false [p, 0, 0, 0, 0])
    let ls := ((cells.filterMap Cell.bit?).map (fun b => b / 8 / 64 * 64)).eraseDups
    Cell.bad ∉ cells ∧ (s.core n).linesChk ((ls.filter isSpadKey).map (· - 2 ^ 41)) = .ok ∧
      v.shortReads n (ls.filter (fun l => !isSpadKey l)) = some (u, none) ∧
      ix = ⟨gran, s.idxVals n (fmtBits it.fmt) (t.dims.getD (if gran = 0 then 0 else 1) 1) cells⟩

/-- What a load of a box reads before it is issued: its map, its tensor descriptor, the scale descriptor that names, and the
index of a GATHER. `v` is the state after the reads. -/
def LoadReads (s : State) (n w : Nat) (j : Job) (t : Tensor) (rs : List MapRec) (sc : List Byte) (ix : Option Idx) (v : State) : Prop :=
  ∃ a b, BoxReady s n j (bits w 45 34) (bits w 33 26) t rs a ∧ DescReads a n j t.scale sc b ∧
    match ix with
    | none => v = b
    | some x => IdxReads b n j (bits w 50 49) (bits w 25 14) t (s.feOrigin n j rs) (rs.map (·.ext)) x v

/-- What a store of a box reads before it is issued: its map, its tensor descriptor and the index of a SCATTER. -/
def StoreReads (s : State) (n w : Nat) (j : Job) (t : Tensor) (rs : List MapRec) (ix : Option Idx) (v : State) : Prop :=
  ∃ a, BoxReady s n j (bits w 45 34) (bits w 33 26) t rs a ∧
    match ix with
    | none => v = a
    | some x => IdxReads a n j (bits w 50 49) (bits w 25 14) t (s.feOrigin n j rs) (rs.map (·.ext)) x v

/-- What a LDP reads before it is issued: its map, the parameter descriptor and the five descriptors that one names. -/
def ParamReads (s : State) (n w : Nat) (j : Job) (rs : List MapRec) (p : ParamDescs) (v : State) : Prop :=
  rs = mapRecs (s.mapBytes j.slot.val (bits w 33 26)) ∧ DriversReady s n rs ∧
    ∃ a b c d e, DescReads s n j (bits w 45 34) p.pd a ∧ DescReads a n j (fld p.pd 4 2 % 4096) p.sa b ∧
      DescReads b n j (fld p.pd 6 2 % 4096) p.sw c ∧ DescReads c n j (fld p.pd 8 2 % 4096) p.so d ∧
      DescReads d n j (fld p.pd 10 2 % 4096) p.bd e ∧ DescReads e n j (fld p.pd 20 2 % 4096) p.wd v

/-- The core after a load of a box has been issued (R123, R128, R195): one more token in the queue, incomplete, for the ring's
next slot, which is busy; the transfer `x` outstanding. -/
def loadIssued (c : Core) (q count : Nat) (x : Transfer) (outOfRange : Nat) : Core :=
  { c.setTq q (c.tq q ++ [⟨c.nextOf q, false, x.isParam, x.rwBlk⟩]) with
    fe := c.fe.after
    busy := c.busy ++ [(q, c.nextOf q)]
    nextSlot := c.nextSlot.set q ((c.nextOf q + 1) % count)
    xfers := c.xfers ++ [{ x with slot := c.nextOf q }]
    status := { c.status with outOfRange := sat32 c.status.outOfRange outOfRange } }

/-- A transfer whose lines are all here is delivered (R123, R202): its slot at `a` holds its content, the token of the slot is
complete, and nothing else of the core `c` changes. -/
def DeliveredAt (s u : State) (n : Nat) (c : Core) (y : Transfer) (a : Nat) : Prop :=
  NewCore s u n { c.setTq y.q (completeToken (c.tq y.q) y.slot y.rwBlk) with
    spad := (u.core n).spad, spadBad := (u.core n).spadBad, spadPoison := (u.core n).spadPoison } ∧
    (u.core n).spadBytes a (y.content (fun k => y.readByte (s.core n) k)).length = y.content (fun k => y.readByte (s.core n) k) ∧
    ∀ k, k < a ∨ a + (y.content (fun k => y.readByte (s.core n) k)).length ≤ k → mapGet (u.core n).spad k 0 = mapGet (s.core n).spad k 0

/-- A transfer that its core issues (R123, R128, R132, R202): a slot too small raises SCHEDULE_OVERRUN, a scratchpad line that fails
its check CHECKSUM_LANE; else it takes a token and a slot and is outstanding, or is delivered when nothing outside the core
is read. `c` is the core's status with what the load counted. -/
def XferIssues (s u : State) (n : Nat) (j : Job) (x : Transfer) (st : TakeStatus) : Prop :=
  let c := { loadIssued (s.core n) x.q (s.ring j.slot.val x.q).2.2 (x.takeSpad (s.core n)) 0 with status := st }
  ((s.ring j.slot.val x.q).2.1 < x.bytes → CoreStopped u n 4) ∧
    (x.bytes ≤ (s.ring j.slot.val x.q).2.1 → (∃ l ∈ x.spadLines, l ∈ (s.core n).spadBad) → CoreStopped u n 1) ∧
    (x.bytes ≤ (s.ring j.slot.val x.q).2.1 → (∀ l ∈ x.spadLines, l ∉ (s.core n).spadBad) → ReadFrame s u n ∧
      (x.lines ≠ [] → NewCore s u n c) ∧
      (x.lines = [] → DeliveredAt s u n { c with xfers := (s.core n).xfers }
        { x.takeSpad (s.core n) with slot := (s.core n).nextOf x.q } (s.slotAt j.slot.val x.q ((s.core n).nextOf x.q))))

/-- A load of a box as it is issued: a byte without a translation raises XLATE; else its elements outside the tensor and its
index values out of range are counted, and its transfer is issued. -/
def LoadIssues (s u : State) (n w : Nat) (j : Job) (t : Tensor) (rs : List MapRec) (sc : List Byte) (ix : Option Idx) : Prop :=
  let origin := s.feOrigin n j rs
  let ext := rs.map (·.ext)
  let cells := s.boxCells n j t false ix origin ext
  (s.boxBad n j t sc cells ix origin ext = true → CoreStopped u n 7) ∧
    (s.boxBad n j t sc cells ix origin ext = false →
      XferIssues s u n j (s.tileXfer n j (bits w 52 51) t sc cells ix origin ext)
        { (s.core n).status with
          outOfRange := sat32 (s.core n).status.outOfRange
            ((if bit (fld (s.mapBytes j.slot.val (bits w 33 26)) 0 4) 0 then 0 else countOut cells) +
              (match ix with | some i => (i.vals.filter (·.isNone)).length | none => 0)) })

/-- A load of a multicast group as it is issued (R255): it reserves as a load does and waits with the number of its core's issue
in the group, which the cluster counts. -/
def GroupIssues (s u : State) (n w : Nat) (j : Job) (t : Tensor) (rs : List MapRec) (sc : List Byte) (source : Bool) : Prop :=
  let origin := s.feOrigin n j rs
  let ext := rs.map (·.ext)
  let cells := s.boxCells n j t false none origin ext
  let x := s.tileXfer n j (bits w 52 51) t sc cells none origin ext
  let g := bits w 49 46
  let k := (((s.cluster (clusterOf n)).groups.find? (fun y => y.job == j.id && y.gid == g)).map
    (fun y => mapGet y.counts (s.localIdx n j) 0)).getD 0
  (s.boxBad n j t sc cells none origin ext = true → CoreStopped u n 7) ∧
    (s.boxBad n j t sc cells none origin ext = false → (s.ring j.slot.val x.q).2.1 < x.bytes → CoreStopped u n 4) ∧
    (s.boxBad n j t sc cells none origin ext = false → x.bytes ≤ (s.ring j.slot.val x.q).2.1 →
      ReadFrame { s with clusters := u.clusters } u n ∧
      NewCore s u n (loadIssued (s.core n) x.q (s.ring j.slot.val x.q).2.2
        { x with group := some (g, k), waiting := true, source := source }
        (if bit (fld (s.mapBytes j.slot.val (bits w 33 26)) 0 4) 0 then 0 else countOut cells)) ∧
      u.cluster (clusterOf n) = { s.cluster (clusterOf n) with
        groups := (s.cluster (clusterOf n)).groups.map (fun y =>
          if y.job = j.id ∧ y.gid = g then { y with counts := mapSet y.counts (s.localIdx n j) 0 (k + 1) } else y) } ∧
      ∀ c, c ≠ clusterOf n → u.cluster c = s.cluster c)

/-- A response that reached cores, and nothing else, changed what the controllers keep of a read beside them: meters, what ECC
found, the error registers, log and its times, and the free values that say what was found. -/
def ResponseFrame (s t : State) (l : List (Nat × Nat)) : Prop :=
  t = { s with cores := t.cores, regs := t.regs, plicPending := t.plicPending, meters := t.meters, free := t.free,
               ceLast := t.ceLast, cellErr := t.cellErr } ∧
    ∀ page off, off < 4096 → page ∉ (List.range 8).map pgMc → (page, off) ∉ l → t.reg page off = s.reg page off

/-- A request that entered its channel's queue, or that its port now holds, for an engine's store. -/
def SentStore (s t : State) (r : MemReq) (o : Owner) : Prop :=
  (∃ q ∈ t.queue.drop s.queue.length, q.req = r ∧ q.own = some o) ∨ ∃ h ∈ t.held.drop s.held.length, h.req = r ∧ h.own = some o

/-- The write requests that leave for the bytes of DRAM among those `want` names, each with the nibbles it covers and its value
(R204, R587, R596): of the cluster's port, for the engine, and no other request among them. -/
structure Sends (s t : State) (n : Nat) (e : Engine) (short merge : Bool) (want : Nat → Option (Nat × Nat)) : Prop where
  waiting : s.queue <+: t.queue ∧ s.held <+: t.held
  sent : ∀ k v, isDramKey k = true → want k = some v → ∃ r o, SentStore s t r o ∧ r.addr.toNat ≤ k ∧
    r.data[k - r.addr.toNat]? = some (BitVec.ofNat 8 v.2) ∧ (o.nib = [] ∧ v.1 = 3 ∨ o.nib[k - r.addr.toNat]? = some v.1)
  only : ∀ r o, SentStore s t r o → o.core = n ∧ o.eng = e ∧ o.short = short ∧ r.write = true ∧ r.port.val = clusterOf n ∧
    r.merge = merge ∧ r.metered = true ∧ r.slateClass = false ∧ r.poisoned = false ∧
    ∀ i, i < r.data.length → (want (r.addr.toNat + i)).isSome = true

/-- An engine's store: bytes of cluster memory and of the core's scratchpad are written, the others there stay; DRAM itself is
as before until the controllers serve the requests. -/
structure Stored (s t : State) (n : Nat) (e : Engine) (short merge : Bool) (want : Nat → Option (Nat × Nat)) : Prop where
  sends : Sends s t n e short merge want
  dram : t.dram = s.dram
  near : ∀ k, isDramKey k = false → isSpadKey k = true ∨ clOfKey k < 8 →
    t.keyByte n k = (match want k with | some v => mergeNib (s.keyByte n k) v | none => s.keyByte n k)
  clusters : ∀ c, t.cluster c = { s.cluster c with
    mem := (t.cluster c).mem, memPoison := (t.cluster c).memPoison, tags := (t.cluster c).tags }

/-- A run of bytes at an address, as a store covers them. -/
def bytesAt (a : Nat) (bs : List Byte) (k : Nat) : Option (Nat × Nat) :=
  if a ≤ k then (bs[k - a]?).map (fun b => (3, b.toNat)) else none

/-- An instruction that stored, and read descriptors, changed nothing beside the cores, clusters and requests but what
`ReadFrame` names. -/
def StoreFrame (s t : State) (n : Nat) : Prop :=
  ReadFrame { s with clusters := t.clusters, queue := t.queue, held := t.held } t n

/-- The elements a store writes: each at its bit, taken from the result slot's rows (R202, R204). -/
def storedElems (t : Tensor) (ext : List Nat) (cells : List (List Cell)) (data : List Byte) : List (Nat × Nat) :=
  (cells.zipIdx).flatMap (fun r => (r.1.zipIdx).filterMap (fun e =>
    (e.1.bit?).map (fun b => (b, elemAt (fun k => data.getD k 0) (fmtBits t.fmt)
      (8 * r.2 * rowBytes t.fmt (ext.headD 1) + e.2 * fmtBits t.fmt)))))

/-- The bytes a store covers, with the nibbles of each. -/
def storedBytes (t : Tensor) (l : List (Nat × Nat)) : WMap :=
  l.foldl (fun m p => WMap.put m (fmtBits t.fmt) p.1 p.2) []

/-- A store of a box (R126, R128, R204 to R206, R265, R587): a byte without a translation raises XLATE; else the slot at the head of
TQ3 is freed, its elements leave for their places, and the tickets of the entries that drove the map wait for acceptance. With
TAG_MODE 0 a block partly covered raises SCHEDULE_OVERRUN. -/
def StoreIssues (s u : State) (n : Nat) (j : Job) (sl : Nat) (rest : List Nat) (t : Tensor) (rs : List MapRec) (ix : Option Idx) : Prop :=
  let ext := rs.map (·.ext)
  let cells := s.boxCells n j t true ix (s.feOrigin n j rs) ext
  let len := rowBytes t.fmt (ext.headD 1) * boxRows ext
  let data := (s.core n).spadBytes (s.slotAt j.slot.val 3 sl) len
  let wm := storedBytes t (storedElems t ext cells data)
  let whole := ∀ p ∈ storedElems t ext cells data, covered wm (p.1 / 8 / 1024) = true
  ((∃ r ∈ cells, Cell.bad ∈ r) → CoreStopped u n 7) ∧
    ((∀ r ∈ cells, Cell.bad ∉ r) → (s.core n).spadChk (s.slotAt j.slot.val 3 sl) len = .ok →
      (t.region = 2 ∨ t.merge = true ∨ whole → StoreFrame s u n ∧
        Stored s u n .fe false (decide (t.region = 2) || t.merge) (mapGet? wm) ∧
        NewCore s u n { s.core n with
          fe := (s.core n).fe.after
          tq3 := rest
          busy := (s.core n).busy.filter (· ≠ (3, sl))
          tickets := (s.core n).tickets ++ s.ticketsOf n rs
          status := { (s.core n).status with
            outOfRange := sat32 (s.core n).status.outOfRange
              (match ix with | some i => (i.vals.filter (·.isNone)).length | none => 0) }
          spad := (u.core n).spad, spadBad := (u.core n).spadBad, spadPoison := (u.core n).spadPoison }) ∧
      (t.region ≠ 2 → t.merge = false → ¬ whole → CoreStopped u n 4))

/-- The controllers accept a core's writes to the line of a key. -/
def LineWritable (s : State) (n k : Nat) : Prop :=
  ∀ a len, lineOf a = lineOf k → 0 < len → lineOf (a + len - 1) = lineOf k → s.memCheck (clusterOf n) a len true = none

/-- A core after the head of a load queue has been used (R125, R211): kept, or taken with its slot freed on release. -/
def tokenUsed (c : Core) (q : Nat) (keep rel : Bool) : Core :=
  match c.tq q with
  | [] => c
  | t :: rest => if keep then c else if rel then (c.setTq q rest).freeSlot q t.slot else c.setTq q rest

/-- Row `i` of an array instruction's A operand: a slot row, or with CV a patch (R236, R272). -/
def operandRow (cv : Bool) (c : Core) (ba : Nat) (h : SlotHdr) (v : Conv) (i k : Nat) : List Op × Nat × Bool :=
  if cv then patchRow (fun b => mapGet c.spad (ba + b) 0) h v i k else slotRow (fun b => mapGet c.spad (ba + b) 0) h i k

/-- The operands of an array instruction fit its shape and the take's mode (R98, R237, R271). -/
def OperandsFit (cv wq3 : Bool) (ha hw : SlotHdr) (v : Conv) (m nn k : Nat) : Prop :=
  (if cv then ha.rows = v.pw * v.ph ∧ ha.k = v.cblk * 32 ∧ ha.beMode ≠ 1 ∧ fmtBytes ha.fmt (v.cblk * 32) ≤ v.units * 64
   else m ≤ ha.rows ∧ k ≤ ha.k) ∧
    nn ≤ hw.rows ∧ k ≤ hw.k ∧ arrayFmt wq3 ha.fmt = true ∧ arrayFmt wq3 hw.fmt = true

/-- MM and CV with a free accumulator set (R85, R98, R125, R156, R157, R211, R237, R271): a tile the core lacks raises ACC_RANGE;
tokens not there or operands that do not fit SCHEDULE_OVERRUN; else the tokens are used and one set more holds, for every
row and column, the sum of the products of the converted elements at the instruction's anchor. -/
def ArrayIssues (s u : State) (n w : Nat) (j : Job) (cv : Bool) : Prop :=
  (s.accTiles n ≤ bits w 44 41 → CoreStopped u n 6) ∧
    (bits w 44 41 < s.accTiles n →
      ((s.core n).tq (bits w 52 51) = [] → CoreStopped u n 4) ∧
      (∀ (ta tw : Token) (c1 c2 : Core) (ba bw m nn k : Nat) (ha hw : SlotHdr) (v : Conv),
        ((s.core n).tq (bits w 52 51)).head? = some ta → ta.complete = true →
        c1 = tokenUsed (s.core n) (bits w 52 51) (bit w 50) (bit w 49) →
        (c1.tq (bits w 48 47)).head? = some tw → tw.complete = true →
        c2 = tokenUsed c1 (bits w 48 47) (bit w 46) (bit w 45) →
        ba = s.slotAt j.slot.val (bits w 52 51) ta.slot → bw = s.slotAt j.slot.val (bits w 48 47) tw.slot →
        (m, nn) = shapeOf (bits w 39 37) → k = 32 * bits w 25 16 →
        ha = slotHdr ((s.core n).spadBytes ba 64) → hw = slotHdr ((s.core n).spadBytes bw 64) →
        v = convEntry (s.secBytes j.slot.val 9 (16 * bits w 15 10) 16) →
        (¬ OperandsFit cv (s.core n).wq3 ha hw v m nn k → CoreStopped u n 4) ∧
        (OperandsFit cv (s.core n).wq3 ha hw v m nn k → (s.core n).spadBad = [] → (s.core n).spadPoison = [] →
          u = { s with cores := u.cores } ∧
          ∃ x nf, nf = (((List.range m).map (fun i => operandRow cv (s.core n) ba ha v i k) ++
              (List.range nn).map (fun i => operandRow false (s.core n) bw hw v i k)).foldl (fun a r => a + r.2.1) 0) ∧
            NewCore s u n { c2 with
              xe := c2.xe.after
              nextSet := !c2.nextSet
              sets := (s.core n).sets ++ [x]
              status := { c2.status with nonfinite := sat32 c2.status.nonfinite nf } } ∧
            x.tile = bits w 44 41 ∧ x.acc = bit w 40 ∧ x.m = m ∧ x.n = nn ∧ x.k = k ∧
            x.anchor = sext 11 (bits w 36 26) ∧ x.vals.length = m * nn ∧
            ∀ i q, i < m → q < nn → x.vals[nn * i + q]? =
              some (cellSum (sext 11 (bits w 36 26)) (operandRow cv (s.core n) ba ha v i k).1
                (operandRow false (s.core n) bw hw v q k).1).1)))

/-- What an OS notes as it is accepted (R88, R131, R178, R210): its word, its parameter block, Kt, its statistics slot, and the
result slot it claims. -/
def osEntry (c : Core) (w : Nat) (b : List Byte) : OsEnt :=
  ⟨w, b, sext 32 (c.sr.getD (bits w 24 21) 0).toNat, bits w 35 26 + (if bit w 25 then c.xe.idx (bits w 54 53) else 0),
   if osClaims w then some (c.nextOf 3) else none⟩

/-- The core after an OS has been accepted: its token used, and its result slot claimed and current. -/
def osAccepted (c : Core) (w count : Nat) : Core :=
  let d := tokenUsed c (bits w 48 47) (bit w 46) (bit w 45)
  if osClaims w then { d.takeSlot 3 count with curSlot := some (c.nextOf 3) } else d

/-- A tile's whole-tile check finds no difference, or is not made (R96, R97, R169). -/
def TileReads (c : Core) (t : Nat) : Prop :=
  c.wq3 = true ∨ (c.tile t).valid = false ∨
    failing (c.tile t).allowance (c.tile t).m (c.tile t).n (c.tile t).rowsOn (c.tile t).shaped (c.tile t).rowChk
      (c.tile t).colChk (c.tile t).corner = ([], [], false)

/-! ### Memory requests -/

/-- A channel serves a request of a direction (R367, R376): a waiting one whose bank is ready, as soon as one is, and of those the
first in the order of the slot. It leaves the queue, and its bank is busy for a cycle. -/
structure Served (s u : State) (ch : Nat) (w : Bool) (q : Queued) : Prop where
  waited : q ∈ s.waitingOn ch w
  left : u.queue = s.queue.erase q
  ready : s.readyAt q ≤ u.uptime
  soon : s.uptime ≤ u.uptime ∧ ∀ x ∈ s.waitingOn ch w, u.uptime ≤ max s.uptime (s.readyAt x)
  first : ∀ x ∈ s.waitingOn ch w, s.readyAt x ≤ u.uptime →
    State.slotRank { u with queue := s.queue } q ≤ State.slotRank { u with queue := s.queue } x
  busy : mapGet u.bankFree (s.bankOfQ q) 0 = u.uptime + (if w then 12288 else 10752)
  others : ∀ k, k ≠ s.bankOfQ q → mapGet u.bankFree k 0 = mapGet s.bankFree k 0
  frame : u = { s with queue := u.queue, bankFree := u.bankFree, time := u.time, uptime := u.uptime, regs := u.regs,
                       plicPending := u.plicPending }
  regs : OtherRegs s u [(pgTk, 0x10)]

/-- A request enters its channel's queue and takes a credit of every meter it passes, or its port holds it (R376, R377). -/
def Requested (s t : State) (r : MemReq) : Prop :=
  let ch := chanOf s.fuse.grade r.addr.toNat
  let bk := bankKey ch (bankOf s.fuse.grade r.addr.toNat)
  if s.meterOk r then
    t.queue = s.queue ++ [⟨r, ch, s.uptime, none⟩] ∧ t.held = s.held ∧
      (isMetered r = false → t.meters = s.meters) ∧
      (isMetered r = true →
        credits (t.meter r.port.val).chan ch 8 = credits (s.meter r.port.val).chan ch 8 - 1 ∧
        credits (t.meter r.port.val).bank bk 2 = credits (s.meter r.port.val).bank bk 2 - 1 ∧
        (∀ c, c ≠ ch → credits (t.meter r.port.val).chan c 8 = credits (s.meter r.port.val).chan c 8) ∧
        (∀ b, b ≠ bk → credits (t.meter r.port.val).bank b 2 = credits (s.meter r.port.val).bank b 2) ∧
        ∀ p, p ≠ r.port.val → t.meter p = s.meter p)
  else t.held = s.held ++ [⟨r, none⟩] ∧ t.queue = s.queue ∧ t.meters = s.meters

/-- The nibbles a queued write covers; none where it covers whole bytes. -/
def Queued.nibs (q : Queued) : List Nat := (q.own.map (·.nib)).getD []

/-! ### Frames of the reel protocol -/

/-- A PFC frame with every class of PFC_MASK enters a port's egress queue as MAC control, and counts (R396). -/
def PfcSent (s t : State) (p quanta : Nat) : Prop :=
  (∃ e : TxFrame, (t.port p).egress = (s.port p).egress ++ [e] ∧ e.cls = 8 ∧ e.desc = none ∧ e.toMac = 0x0180C2000001 ∧
    e.payload = .other (pfcBody (bits (s.rn (pgPort p) 0x100) 13 8) quanta)) ∧
  t.rn (pgPort p) 0x154 = (s.rn (pgPort p) 0x154 + 1) % 2 ^ 32

/-- A well-formed reel frame of a type stands at the front of a port's command buffer (R398, R403, R420). -/
structure ReelFront (s : State) (p : Fin 4) (ty : Nat) (f : Frame) (h : ReelHdr) (body : List Byte) : Prop where
  front : (s.port p.val).cmdBuf.head? = some f
  payload : f.payload = .reel h body
  port : s.isReel f = true
  ip : ipBad f = false
  header : hdrOk h body = true
  type : h.type.toNat = ty

/-- Such a frame names an open session whose binding it matches (R421). -/
structure SessionFront (s : State) (p : Fin 4) (ty : Nat) (h : ReelHdr) (body : List Byte) (i : Fin 256) : Prop where
  front : ∃ f, ReelFront s p ty f h body ∧ s.boundTo p f h = some i
  reel : h.reel.toNat < 32

/-- One frame of the reel protocol enters a port's egress queue in the command class, for a session's peer (R403, R421). -/
def SentTo (s t : State) (p : Fin 4) (i : Fin 256) (type reel count : Nat) (seq : Option Word) (body : List Byte) : Prop :=
  ∃ (e : TxFrame) (h : ReelHdr), (t.port p.val).egress = (s.port p.val).egress ++ [e] ∧ e.cls = 7 ∧ e.desc = none ∧
    e.payload = .reel h body ∧ h.type.toNat = type ∧ h.session.toNat = i.val ∧ h.gen = (s.session i.val).gen ∧
    h.reel.toNat = reel ∧ h.count.toNat = count ∧ (∀ q, seq = some q → h.seq = q) ∧ e.toMac = (s.session i.val).mac ∧
    e.toIp = (s.session i.val).ip ∧ e.toUdp = (s.session i.val).udp

/-! ### Sessions -/

/-- A message of a kind from an origin is the oldest of them that waits for the management core (R540, R545). -/
structure MsgFront (s : State) (o : HsOrigin) (kind : Nat) (m : HsMsg) (rest : List HsMsg) : Prop where
  first : ∃ xs ys, s.sec.inbox = xs ++ m :: ys ∧ rest = xs ++ ys ∧ ∀ x ∈ xs, x.origin ≠ o ∨ x.msg.toNat ≠ kind
  origin : m.origin = o
  kind : m.msg.toNat = kind

/-- The first handshake of an origin and HS_ID with a property. -/
def HandFront (s : State) (o : HsOrigin) (id : Byte) (p : Handshake → Prop) (h : Handshake) (rest : List Handshake) : Prop :=
  ∃ xs ys, s.sec.hands = xs ++ h :: ys ∧ rest = xs ++ ys ∧ h.origin = o ∧ h.hsId = id ∧ p h ∧
    ∀ x ∈ xs, ¬ (x.origin = o ∧ x.hsId = id ∧ p x)

/-- A message of `n` bytes has left for its origin: in fragments of at most 1,400 bytes through the port, or in the hart's
buffer, with REPLY set (R540, R545). -/
def MessageSent (s t : State) (o : HsOrigin) (n : Nat) : Prop :=
  match o with
  | .port p => (t.port p.val).egress.length = (s.port p.val).egress.length + (n + 1399) / 1400
  | .hart h => h.val ∈ t.sec.mboxReply

/-- A session has closed (R428, R543, R555): its reels are detached, no hart acts with it, and the closing is in the audit log
with its cause. -/
structure SessionClosed (s t : State) (i : Fin 256) (cause : Nat) : Prop where
  closed : t.session i.val = { s.session i.val with isOpen := false }
  others : ∀ k, k ≠ i.val → t.session k = s.session k
  reels : ∀ m, m < 32 → (t.reel m).attached ≠ some i
  harts : ∀ h, t.hartSession h ≠ i
  log : ∃ es e, t.sec.staged = s.sec.staged ++ es ++ [e] ∧ e.event = 6 ∧ e.session = i.val ∧ e.value = w32 cause
  change : bit (t.rn pgSess 0x10) 0 = true

/-! ### Resets -/

/-- The device has been reset with a RESET_CAUSE (R572 to R574): every unit at its reset state, every register outside the
system, SEC, fault and first port's pages at its reset value (but MC_STATUS and the shares, which stage 1 sets, R576), the fuses no weaker, the enrolled keys as they were, and the
queue of commands still waiting. -/
structure WasReset (s t : State) (cause : Nat) : Prop where
  cause : t.rn pgSys 0x104 = cause
  cores : t.cores = State.reset.cores
  clusters : t.clusters = State.reset.clusters
  slots : t.slots = State.reset.slots
  reels : t.reels = State.reset.reels
  axes : t.axes = State.reset.axes
  cues : t.cues = State.reset.cues
  jobs : t.jobs = []
  evts : t.evts = []
  staged : t.staged = []
  queue : t.queue = []
  faults : t.faults = []
  dram : t.dram = []
  time : t.time = 0
  regs : ∀ page off, off < 4096 → page ∉ [pgSys, pgSec, pgFaults, pgPort 0] →
    (∀ m, m < 8 → page = pgMc m → off ≠ 0x100 ∧ (off < 0x110 ∨ 0x150 ≤ off)) → t.reg page off = resetVal t.fuse (rkey page off)
  fuse : FuseLe s.fuse t.fuse
  operators : t.sec.keys.operators = s.sec.keys.operators
  installer : t.sec.keys.installer = s.sec.keys.installer
  pending : t.pending = s.pending

/-- The device has left standby (R527, R580): RESET_CAUSE names the wake, the tensor complex is at its reset state, every segment
is ready again, those that were kept with what they held and the others 0. -/
structure Woken (s t : State) : Prop where
  standby : t.power.standby = false
  cause : t.rn pgSys 0x104 = 0x23 + 2 ^ 24 * min 255 (bits (s.rn pgSys 0x104) 31 24 + 1)
  fuse : t.fuse = s.fuse
  cores : t.cores = State.reset.cores
  jobs : t.jobs = []
  segs : t.segInit = s.allSegs
  dram : ∀ a, dramBase ≤ a → t.byte a = if segKey (mcOf s.fuse.grade a) (segOf a) ∈ s.segInit then s.byte a else 0
  pending : t.pending = s.pending

/-- RESET_CAUSE after a cause: CODE, INDEX, and COUNT one higher, up to 255 (R574). -/
def nextCause (s : State) (code idx : Nat) : Nat := code + 256 * idx + 2 ^ 24 * min 255 (bits (s.rn pgSys 0x104) 31 24 + 1)

end Sys2Proof.Machine
end

