-- ==== Sys2Proof/Certificates/Slice0/Obligations.lean ====
section
/-! DEFINITION. The statements. -/

open Sys2Proof Sys2Proof.Machine

/-- The front of the queue is what a step runs, on the state with the rest of the queue; with nothing waiting time passes by
1/256 ns, and WRAP sets when timekeeper bits [39:38] change (R327; that an idle step is a tick is the model's choice, log
1). -/
def Obligations.StepRunsTheFrontCommand : Prop :=
  ∀ s : State,
    (∀ c rest, s.pending = c :: rest → step s = exec c { s with pending := rest }) ∧
    (s.pending = [] → ∃ t, step s = .next t ∧ t.time = s.time + 1 ∧ t.uptime = s.uptime + 1 ∧
      t = { s with time := t.time, uptime := t.uptime, regs := t.regs, plicPending := t.plicPending } ∧
      OtherRegs s t [(pgTk, 0x10)] ∧
      (if (s.time + 1) / 2 ^ 38 = s.time / 2 ^ 38 then t.reg pgTk 0x10 = s.reg pgTk 0x10
       else t.reg pgTk 0x10 = s.reg pgTk 0x10 ||| 1))

/-- The state after reset (R46, R572, R574): no command, every register word at the reset value of its table but RESET_CAUSE,
nothing staged, no page armed, every core idle, every session but session 0 closed, no job, no slot, empty memory in
canonical form. Where it rests on the model's choices: log 2, 3, 42. -/
def Obligations.ResetStateIsAsTheTablesSay : Prop :=
  (∀ page off, off < 4096 → (page, off) ≠ (pgSys, 0x104) → State.reset.reg page off = resetVal Fuses.reset (rkey page off)) ∧
  State.reset.reg pgSys 0x104 = 0x20 ∧ (∀ page, State.reset.stagedOf page = [] ∧ State.reset.armed page = false) ∧
  (∀ n, n < 128 → (State.reset.core n).mode = .idle) ∧
  (∀ i, i < 256 → ((State.reset.session i).isOpen = true ↔ i = 0)) ∧
  State.reset.jobs = [] ∧ (∀ n, n < 64 → (State.reset.slot n).loaded = false) ∧
  State.reset.pending = [] ∧ MemCanonical State.reset

/-- No step stops, and every step keeps the canonical form of memory, leaves the queue but for the command it took, and never
takes back a fuse: grade, repair, root digest and device secret stay, a revocation stays, a security version never falls
(R389, R536, R548, R563). -/
def Obligations.EveryStepKeepsTheInvariant : Prop :=
  ∀ s : State, ∃ t, step s = .next t ∧ (MemCanonical s → MemCanonical t) ∧ FuseLe s.fuse t.fuse ∧ t.pending = s.pending.tail

/-- A write of a staged register stages the value and leaves every value in force (R57); a read then gives the staged value, or
the value in force where READ_ACTIVE is set (R58), CUE_CTL with its OWNER (R345); the write is audited where its region is
locked (R55). PASR_KEEP is read-only but on controller 0 (R391). A write of an absent port's LAT_TARGET is discarded (R28);
that it is answered without an error is the model's choice (log 59). While a commit is armed, a write of a staged register
is discarded with STAGED_LOCKED and changes nothing else (R62). Where it rests on the model's choices: log 9, 59. -/
def Obligations.StagedRegistersStageAndLock : Prop :=
  (∀ (s : State) (who : Requester) (page off : Nat) (k : Kind) (i : Nat) (r : Row) (v : Word) (a : Addr),
     Opens s who page off k i r → r.acc = .rws → a.toNat = regAddr page off →
     ((k = .mc → i ≠ 0 → off ≠ 0x170 ∧ off ≠ 0x174) → s.armed page = false →
       (k = .mc → 0x200 ≤ off → off < 0x260 → s.portAbsent ((off - 0x200) / 4) = false) →
       ∃ t, exec (.registerWrite who a 4 v) s = .next t ∧
         t = { s with staged := t.staged, rsp := t.rsp, sec := t.sec } ∧ t.accepted ∧
         mapGet? t.staged (rkey page off) = some (v &&& w32 (s.rwsMask k off r)) ∧
         (∀ key, key ≠ rkey page off → mapGet? t.staged key = mapGet? s.staged key) ∧
         (s.readActive page = false →
           (t.get who page off).rsp = ⟨false, false, if k = .cue ∧ 0x800 ≤ off ∧ off % 32 = 0 then
             (v &&& w32 r.mask) ||| w32 (2 ^ 14 * s.cueOwner ((off - 0x800) / 32)) else v &&& w32 (s.rwsMask k off r)⟩) ∧
         (s.readActive page = true → (t.get who page off).rsp.data = (t.regValue who page off k i).2) ∧
         AuditTrail s t 1 page (regionOf off) off v) ∧
     (k = .mc → i ≠ 0 → off = 0x170 ∨ off = 0x174 →
       ∃ t, exec (.registerWrite who a 4 v) s = .next t ∧ t = { s with regs := t.regs, rsp := t.rsp } ∧ t.discarded ∧
         OtherRegs s t [(page, 0x18), (page, 0x1C)] ∧ ErrorRecorded s t page 0x83 who true) ∧
     (k = .mc → 0x200 ≤ off → off < 0x260 → s.portAbsent ((off - 0x200) / 4) = true → s.armed page = false →
       ∃ t, exec (.registerWrite who a 4 v) s = .next t ∧ t = { s with rsp := t.rsp, sec := t.sec } ∧ t.accepted)) ∧
  (∀ (s : State) (who : Requester) (page off : Nat) (k : Kind) (i : Nat) (r : Row) (v : Word) (a : Addr),
     Opens s who page off k i r → r.acc = .rws → a.toNat = regAddr page off → s.armed page = true →
     (k = .mc → i ≠ 0 → off ≠ 0x170 ∧ off ≠ 0x174) →
     ∃ t, exec (.registerWrite who a 4 v) s = .next t ∧ t = { s with regs := t.regs, rsp := t.rsp } ∧ t.discarded ∧
       OtherRegs s t [(page, 0x18), (page, 0x1C)] ∧ ErrorRecorded s t page 0x85 who true)

/-- A write of a plain register in range puts the value into force at once and changes no other register; a write outside the
stated range is discarded as a whole with VALUE_RANGE (R588); a write of IRQ_STAT clears the causes written as 1. Where it
rests on the model's choices: log 9. -/
def Obligations.WriteOfPlainRegister : Prop :=
  ∀ (s : State) (who : Requester) (page off : Nat) (k : Kind) (i : Nat) (r : Row) (v : Word) (a : Addr),
    Opens s who page off k i r → a.toNat = regAddr page off →
    (r.acc = .rw → plainReg k off = true → s.winBusy = [] →
      if rwBad k off v.toNat then
        ∃ t, exec (.registerWrite who a 4 v) s = .next t ∧ t = { s with regs := t.regs, rsp := t.rsp } ∧ t.discarded ∧
          OtherRegs s t [(page, 0x18), (page, 0x1C)] ∧ ErrorRecorded s t page 0x8E who true
      else
        ∃ t, exec (.registerWrite who a 4 v) s = .next t ∧ t = { s with regs := t.regs, rsp := t.rsp, sec := t.sec } ∧
          t.accepted ∧ t.reg page off = v &&& w32 r.mask ∧ OtherRegs s t [(page, off)] ∧
          AuditTrail s t 1 page (regionOf off) off v) ∧
    (off = 0x10 →
      ∃ t, exec (.registerWrite who a 4 v) s = .next t ∧ t = { s with regs := t.regs, rsp := t.rsp, sec := t.sec } ∧
        t.accepted ∧ t.reg page off = s.reg page off &&& ~~~v ∧ OtherRegs s t [(page, off)] ∧
        AuditTrail s t 1 page (regionOf off) off v)

/-- What refuses a write of a register: an offset no table lists (UNMAPPED), a role below the region's lock (ROLE_DENIED, R53),
the expert region while EXPERT_EN is 0 (EXPERT_DISABLED, R50), a read-only register (READ_ONLY). It is discarded, no
register but ERR_INFO and ERR_ADDR of the page changes, and nothing else of the block but the audit of a claim. Accesses
that reach no register: a requester without a way to register pages and a wrong size or alignment get an error response
(R43, R42), a write to an unassigned page is discarded with BAD_PAGE recorded on SYS (R34), and a write to a fused unit's
page is discarded with ABSENT_TARGET, counted, its address kept and IRQ_STAT.ABSENT set (R75). Where it rests on the model's
choices: log 9. -/
def Obligations.RefusedAccesses : Prop :=
  (∀ (s : State) (who : Requester) (page off : Nat) (k : Kind) (i : Nat) (v : Word) (a : Addr),
     Reaches s who page off k i → off ≠ 0x28 → off ≠ 0x20 → off ≠ 8 → a.toNat = regAddr page off →
     ∀ code, (match rowAt k off with
       | none => code = 0x82
       | some r =>
         if s.mayWrite who page off k = false then code = 0x80
         else if 0x400 ≤ off ∧ off < 0x800 ∧ s.expertEn page = false then code = 0x81
         else r.acc = .ro ∧ (k, off) ≠ (.thermal, 0x10C) ∧ code = 0x83) →
     ∃ t, exec (.registerWrite who a 4 v) s = .next t ∧ t = { s with regs := t.regs, rsp := t.rsp, sec := t.sec } ∧
       t.discarded ∧ OtherRegs s t [(page, 0x18), (page, 0x1C)] ∧ ErrorRecorded s t page code who true ∧
       (code ≠ 0x80 → t.sec = s.sec)) ∧
  (∀ (s : State) (who : Requester) (page off size : Nat) (v : Word) (a : Addr),
     page < 0x10000 → off < 4096 → a.toNat = regAddr page off →
     ∃ t, exec (.registerWrite who a size v) s = .next t ∧
       (mayReachPages who = false →
         t = { s with regs := t.regs, rsp := t.rsp } ∧ t.rsp.error = true ∧ ErrorRecorded s t pgSys 0x8D who true ∧
           OtherRegs s t [(pgSys, 0x18), (pgSys, 0x1C)]) ∧
       (mayReachPages who = true → (size ≠ 4 ∨ off % 4 ≠ 0) →
         t = { s with regs := t.regs, rsp := t.rsp } ∧ t.rsp.error = true ∧
           ErrorRecorded s t (if s.pagePresent page then page else pgSys) 0x88 who true) ∧
       (mayReachPages who = true → size = 4 → off % 4 = 0 → pageKind page = none →
         t = { s with regs := t.regs, rsp := t.rsp } ∧ t.discarded ∧ ErrorRecorded s t pgSys 0x8B who true ∧
           OtherRegs s t [(pgSys, 0x18), (pgSys, 0x1C)]) ∧
       (mayReachPages who = true → size = 4 → off % 4 = 0 → ∀ k i, pageKind page = some (k, i) →
         unitPresent s.fuse.grade k i = false →
         t = { s with regs := t.regs, rsp := t.rsp, plicPending := t.plicPending } ∧ t.discarded ∧
           ErrorRecorded s t pgSys 0x0E who true ∧ t.reg pgSys 0x120 = satInc (s.reg pgSys 0x120) ∧
           t.reg pgSys 0x124 = w32 (regAddr page off) ∧ bit (t.rn pgSys 0x10) 4 = true ∧
           OtherRegs s t [(pgSys, 0x18), (pgSys, 0x1C), (pgSys, 0x120), (pgSys, 0x124), (pgSys, 0x10)]))

/-- ROLE_LOCK (R54). -/
def Obligations.RoleLockRule : Prop :=
  ∀ (s : State) (who : Requester) (page : BitVec 16) (k : Kind) (i : Nat) (v : Word),
    Reaches s who page.toNat 0x28 k i →
    (∃ t, exec (.roleLockWrite who page v) s = .next t ∧ t = { s with regs := t.regs, rsp := t.rsp, sec := t.sec } ∧
      OtherRegs s t [(page.toNat, 0x28), (page.toNat, 0x18), (page.toNat, 0x1C)] ∧
      (∀ f, f < 3 → t.lock page.toNat f =
        if s.roleOf who ≠ .operator ∧ s.lock page.toNat f ≤ roleNum (s.roleOf who) ∧ s.lock page.toNat f ≠ 3 then
          bits v.toNat (2 * f + 1) (2 * f)
        else s.lock page.toNat f) ∧
      ((∃ f, f < 3 ∧ t.lock page.toNat f ≠ bits v.toNat (2 * f + 1) (2 * f)) →
        ErrorRecorded s t page.toNat 0x80 who true ∧ t.discarded) ∧
      ((∀ f, f < 3 → t.lock page.toNat f = bits v.toNat (2 * f + 1) (2 * f)) →
        t.reg page.toNat 0x18 = s.reg page.toNat 0x18 ∧ t.accepted)) ∧
    (∃ t, exec (.softReset who page) s = .next t ∧ t.reg page.toNat 0x28 = s.reg page.toNat 0x28)

/-- SOFT_RESET (R48, R147, R392): the page's registers return to their reset values but ROLE_LOCK, ERR_INFO and ERR_ADDR (and
the ones that tell of the last device reset), its staged values and its armed commit go, no other page's staged values; or
it is refused with UNIT_BUSY while the unit holds something of a bound job. The unit goes back to its reset state: a core
but for what health counts of it (R147), an axis, the cue slots, an image pipeline, a codec, the event FIFO, a controller's
queue. Where it rests on the model's choices: log 14. -/
def Obligations.SoftResetReturnsThePage : Prop :=
  ∀ (s : State) (who : Requester) (page : BitVec 16) (k : Kind) (i : Nat),
    Reaches s who page.toNat 8 k i → roleMeets (s.roleOf who) (s.lock page.toNat 0) = true →
    (s.unitHeld k i = false →
      ∃ t, exec (.softReset who page) s = .next t ∧ t.accepted ∧ t.stagedOf page.toNat = [] ∧
        (∀ q, q ≠ page.toNat → t.stagedOf q = s.stagedOf q) ∧ t.armed page.toNat = false ∧
        t.winBusy = s.winBusy.filter (fun p => p.1 ≠ page.toNat) ∧
        (∀ off, off < 4096 → off ≠ 0x24 → keptReg k off = false → (off = 8 → k ≠ .tc) →
          t.reg page.toNat off = resetVal s.fuse (rkey page.toNat off)) ∧
        (∀ off ∈ [0x18, 0x1C, 0x28], t.reg page.toNat off = s.reg page.toNat off) ∧
        bits (t.rn page.toNat 0x24) 3 0 = (if s.armed page.toNat then 6 else 0) ∧ t.dram = s.dram ∧
        (k = .tc → t.core i = { Core.reset with faultTimes := (s.core i).faultTimes } ∧ ∀ m, m ≠ i → t.core m = s.core m) ∧
        (k = .axis → t.axis i = Axis.reset ∧ ∀ m, m ≠ i → t.axis m = s.axis m) ∧
        (k = .cue → ∀ m, m < 64 → t.cue m = Cue.reset) ∧ (k = .isp → t.isp i = Isp.reset) ∧
        (k = .codec → t.vcIds i = []) ∧ (k = .tk → t.evts = []) ∧
        (k = .mc → t.queue = s.queue.filter (fun q => q.ch / 8 ≠ i))) ∧
    (s.unitHeld k i = true →
      ∃ t, exec (.softReset who page) s = .next t ∧ t = { s with regs := t.regs, rsp := t.rsp } ∧ t.discarded ∧
        OtherRegs s t [(page.toNat, 0x18), (page.toNat, 0x1C)] ∧ ErrorRecorded s t page.toNat 0x89 who true)

/-- A commit whose role, staged set and rules hold (R59, R60): at once, with RESULT 1 and the whole staged set in force, or
armed for the unit's boundary with RESULT 2; it counts in SEQ (R63) and leaves one audit entry for the set where a staged
value lies in a locked region (R55). Delay codes of a memory controller do not wait for its boundary (R372). What a commit
is refused for (R59, R60, R62): nothing staged (RESULT 7), a role below the lock of a region with a staged value (RESULT 4
and ROLE_DENIED), a broken rule (RESULT 3 at the first failing field), a commit already armed (STAGED_LOCKED and no RESULT);
the configuration in force and the staged values stay. Where it rests on the model's choices: log 12, 59. -/
def Obligations.CommitAppliesOrIsRefused : Prop :=
  (∀ (s : State) (who : Requester) (page : BitVec 16) (k : Kind) (i : Nat),
     Reaches s who page.toNat 0x20 k i → s.armed page.toNat = false → s.stagedOf page.toNat ≠ [] →
     s.commitRole page.toNat (s.roleOf who) = true → firstFail (s.commitFails page.toNat) = none →
     ∃ t, exec (.commit who page 0x5A) s = .next t ∧ t.accepted ∧
       bits (t.rn page.toNat 0x24) 31 24 = (bits (s.rn page.toNat 0x24) 31 24 + 1) % 256 ∧
       (k ≠ .sess → k ≠ .health →
         if s.commitLocked page.toNat then
           ∃ e : AuditEntry, e.event = 2 ∧ e.page = page.toNat ∧ e.offset = 0x20 ∧ e.result = 0 ∧
             t.sec = { s.sec with staged := s.sec.staged ++ [e], auditSeq := s.sec.auditSeq + 1, chain := e.chain }
         else t.sec = s.sec) ∧
       (s.atBoundary page.toNat = false ∨ s.boundaryNow page.toNat = true →
         t.stagedOf page.toNat = [] ∧ (∀ q, q ≠ page.toNat → t.stagedOf q = s.stagedOf q) ∧ t.armed page.toNat = false ∧
         bits (t.rn page.toNat 0x24) 3 0 = 1 ∧ InForce s t page.toNat k i ∧
         (k = .axis → t = { s with regs := t.regs, staged := t.staged, rsp := t.rsp, sec := t.sec, axes := t.axes, cues := t.cues }) ∧
         (k = .cue → t = { s with regs := t.regs, staged := t.staged, rsp := t.rsp, sec := t.sec, cues := t.cues }) ∧
         (k = .isp → t = { s with regs := t.regs, staged := t.staged, rsp := t.rsp, sec := t.sec, isps := t.isps }) ∧
         (k = .mc → t = { s with regs := t.regs, staged := t.staged, rsp := t.rsp, sec := t.sec, dly := t.dly,
                                 dlyBand := t.dlyBand, bandInForce := t.bandInForce }) ∧
         (commitsPlainly k = true →
           (∀ off, 0x100 ≤ off → off < 4096 → t.rn page.toNat off = s.next page.toNat off) ∧
           (∀ off, off < 0x100 → off ≠ 0xC → off ≠ 0x24 → t.reg page.toNat off = s.reg page.toNat off) ∧
           (∀ q off, off < 4096 → q ≠ page.toNat → t.reg q off = s.reg q off) ∧
           t = { s with regs := t.regs, staged := t.staged, rsp := t.rsp, sec := t.sec })) ∧
       (s.atBoundary page.toNat = true → s.boundaryNow page.toNat = false →
         (k ≠ .mc → t.armed page.toNat = true ∧ bits (t.rn page.toNat 0x24) 3 0 = 2 ∧
           OtherRegs s t [(page.toNat, 0xC), (page.toNat, 0x24)] ∧ t = { s with regs := t.regs, rsp := t.rsp, sec := t.sec }) ∧
         (k = .mc →
           (∀ w, w < 352 → t.dlyCode i w = mapGet s.staged (rkey page.toNat (0x800 + 4 * w)) (s.dlyCode i w)) ∧
           (∀ off, off < 4096 → mapGet? t.staged (rkey page.toNat off) =
             if 0x800 ≤ off ∧ off < 0xD80 then none else mapGet? s.staged (rkey page.toNat off)) ∧
           t.armed page.toNat = !(t.stagedOf page.toNat).isEmpty ∧
           bits (t.rn page.toNat 0x24) 3 0 = (if (t.stagedOf page.toNat).isEmpty then 1 else 2) ∧
           OtherRegs s t [(page.toNat, 0xC), (page.toNat, 0x24), (page.toNat, 0x100)] ∧
           t = { s with regs := t.regs, staged := t.staged, rsp := t.rsp, sec := t.sec, dly := t.dly, dlyBand := t.dlyBand,
                        bandInForce := t.bandInForce }))) ∧
  (∀ (s : State) (who : Requester) (page : BitVec 16) (k : Kind) (i : Nat),
     Reaches s who page.toNat 0x20 k i →
     ∃ t, exec (.commit who page 0x5A) s = .next t ∧
       (s.armed page.toNat = true →
         OtherRegs s t [(page.toNat, 0x18), (page.toNat, 0x1C)] ∧ t.discarded ∧ t.staged = s.staged ∧
         ErrorRecorded s t page.toNat 0x85 who true) ∧
       (s.armed page.toNat = false → s.stagedOf page.toNat = [] →
         OtherRegs s t [(page.toNat, 0x24)] ∧ bits (t.rn page.toNat 0x24) 3 0 = 7 ∧
         t = { s with regs := t.regs, rsp := t.rsp } ∧ t.accepted) ∧
       (s.armed page.toNat = false → s.stagedOf page.toNat ≠ [] → s.commitRole page.toNat (s.roleOf who) = false →
         OtherRegs s t [(page.toNat, 0x24), (page.toNat, 0x18), (page.toNat, 0x1C)] ∧ t.staged = s.staged ∧ t.discarded ∧
         bits (t.rn page.toNat 0x24) 3 0 = 4 ∧ ErrorRecorded s t page.toNat 0x80 who true) ∧
       (s.armed page.toNat = false → s.stagedOf page.toNat ≠ [] → s.commitRole page.toNat (s.roleOf who) = true →
         ∀ off b, firstFail (s.commitFails page.toNat) = some (off, b) → off < 4096 → b < 32 →
         OtherRegs s t [(page.toNat, 0x24)] ∧ t = { s with regs := t.regs, rsp := t.rsp } ∧
         bits (t.rn page.toNat 0x24) 3 0 = 3 ∧ bits (t.rn page.toNat 0x24) 15 4 = off ∧
         bits (t.rn page.toNat 0x24) 20 16 = b))

/-- At the unit's boundary an armed commit is applied: RESULT 1, SEQ as it was, the staged set in force, nothing staged (R59). A
group commit applies every selected page's staged set or none (R65): with no refusal every selected page ends with nothing
staged, its values in force and RESULT 1 where it had something, and other pages keep theirs; with nothing staged anywhere
it answers RESULT 7; where pages refuse, nothing of any page is applied, every refusing page reports its own RESULT, and
GROUP_RES the first one's. Where it rests on the model's choices: log 13. -/
def Obligations.ArmedAndGroupCommits : Prop :=
  (∀ (s : State) (page : BitVec 16) (k : Kind) (i : Nat),
     pageKind page.toNat = some (k, i) → unitPresent s.fuse.grade k i = true → s.armed page.toNat = true →
     ∃ t, exec (.armedCommitApply page) s = .next t ∧ t.stagedOf page.toNat = [] ∧
       (∀ q, q ≠ page.toNat → t.stagedOf q = s.stagedOf q) ∧ t.armed page.toNat = false ∧
       bits (t.rn page.toNat 0x24) 3 0 = 1 ∧ bits (t.rn page.toNat 0x24) 31 24 = bits (s.rn page.toNat 0x24) 31 24 ∧
       InForce s t page.toNat k i ∧
       (k = .axis → t = { s with regs := t.regs, staged := t.staged, axes := t.axes, cues := t.cues }) ∧
       (k = .isp → t = { s with regs := t.regs, staged := t.staged, isps := t.isps }) ∧
       (k = .mc → t = { s with regs := t.regs, staged := t.staged, dly := t.dly, dlyBand := t.dlyBand,
                               bandInForce := t.bandInForce }) ∧
       (commitsPlainly k = true →
         (∀ off, 0x100 ≤ off → off < 4096 → t.rn page.toNat off = s.next page.toNat off) ∧
         (∀ off, off < 0x100 → off ≠ 0xC → off ≠ 0x24 → t.reg page.toNat off = s.reg page.toNat off) ∧
         (∀ q off, off < 4096 → q ≠ page.toNat → t.reg q off = s.reg q off) ∧
         t = { s with regs := t.regs, staged := t.staged })) ∧
  (∀ (s : State) (who : Requester),
     Opens s who pgSys 0x154 .sys 0 ⟨0x154, 1, 4, .wo, 0, 0xFFFFFFFF⟩ →
     ∃ t, exec (.groupCommit who 0x5A) s = .next t ∧
       (s.groupFailures (s.roleOf who) s.groupPages = [] →
         (∀ p ∈ s.groupPages, t.stagedOf p = []) ∧ (∀ p, p ∉ s.groupPages → t.stagedOf p = s.stagedOf p) ∧ t.accepted ∧
         (∀ p ∈ s.groupPages, s.stagedOf p ≠ [] →
           t.rn pgSys 0x158 = 1 ∧ bits (t.rn p 0x24) 3 0 = 1 ∧ ∀ k i, pageKind p = some (k, i) → InForce s t p k i) ∧
         ((∀ p ∈ s.groupPages, s.stagedOf p = []) → t.rn pgSys 0x158 = 7 ∧ OtherRegs s t [(pgSys, 0x158)] ∧
           t = { s with regs := t.regs, rsp := t.rsp, sec := t.sec })) ∧
       (∀ p r o b fs, s.groupFailures (s.roleOf who) s.groupPages = (p, r, o, b) :: fs → pgSys ∉ s.groupPages →
         t = { s with regs := t.regs, rsp := t.rsp, sec := t.sec } ∧ t.rn pgSys 0x158 = r + 65536 * p ∧
         OtherRegs s t ((pgSys, 0x158) :: (p, 0x18) :: (p, 0x1C) ::
           (s.groupFailures (s.roleOf who) s.groupPages).map (fun f => (f.1, 0x24))) ∧
         (∀ f ∈ s.groupFailures (s.roleOf who) s.groupPages, bits (t.rn f.1 0x24) 3 0 = f.2.1) ∧
         (if r = 4 then t.discarded ∧ ErrorRecorded s t p 0x80 who true else t.accepted)))

/-- Aborts (R61). -/
def Obligations.AbortRule : Prop :=
  ∀ (s : State) (who : Requester) (page : BitVec 16) (k : Kind) (i : Nat),
    Reaches s who page.toNat 0x20 k i →
    (∃ t, exec (.abort who page) s = .next t ∧
      (s.stagedOf page.toNat = [] →
        bits (t.rn page.toNat 0x24) 3 0 = 7 ∧ OtherRegs s t [(page.toNat, 0x24)] ∧
        t = { s with regs := t.regs, rsp := t.rsp } ∧ t.accepted) ∧
      (s.stagedOf page.toNat ≠ [] → s.commitRole page.toNat (s.roleOf who) = true →
        t.stagedOf page.toNat = [] ∧ (∀ q, q ≠ page.toNat → t.stagedOf q = s.stagedOf q) ∧ t.armed page.toNat = false ∧
        bits (t.rn page.toNat 0x24) 3 0 = 5 ∧ OtherRegs s t [(page.toNat, 0xC), (page.toNat, 0x24)] ∧ t.accepted ∧
        t = { s with regs := t.regs, staged := t.staged, rsp := t.rsp }) ∧
      (s.stagedOf page.toNat ≠ [] → s.commitRole page.toNat (s.roleOf who) = false →
        bits (t.rn page.toNat 0x24) 3 0 = 4 ∧ ErrorRecorded s t page.toNat 0x80 who true ∧
        OtherRegs s t [(page.toNat, 0x24), (page.toNat, 0x18), (page.toNat, 0x1C)] ∧ t.staged = s.staged ∧ t.discarded)) ∧
    (∀ key : Word, key ≠ 0x5A → key ≠ 0xA5 →
      ∃ t, exec (.commit who page key) s = .next t ∧ t.discarded ∧ OtherRegs s t [(page.toNat, 0x18), (page.toNat, 0x1C)] ∧
        ErrorRecorded s t page.toNat 0x84 who true ∧ t = { s with regs := t.regs, rsp := t.rsp })

/-- A LOAD copies the selected entry and its generation into the window as one snapshot and makes the window busy (R66, R67);
LOAD_NEXT does it with the next entry. No generation changes, but that of a track context that fails its read and so becomes
FREE (R459), and that of a residency entry, counted as the window looks at it (the model's choice, log 16). BUSY clears at
the end of a window command, DONE sets, and FAIL when the command failed (R72); while it is busy a command is discarded with
WINDOW_BUSY, and a command on an entry beyond the table fails with WINDOW_INDEX. A STORE whose content breaks no rule of its
chapter writes the entry in one step, increments its generation, and counts in COMMIT_RES (R68, R70, R71); one that breaks a
rule writes nothing, and reports the first failing field. Bits that the entry's table does not list are not written (R13). A
phase entry takes only its preference byte (R529). A table that takes no store refuses every one. Where it rests on the
model's choices: log 15, 16, 59. -/
def Obligations.WindowCommands : Prop :=
  (∀ (s : State) (who : Requester) (page : BitVec 16) (k : Kind) (i : Nat) (r : Row),
     Opens s who page.toNat 0x804 k i r → isWindow k = true → s.winBusy = [] →
     (s.rn page.toNat 0x800 < (winShape k).1 →
       ∃ t, exec (.winLoad who page) s = .next t ∧ t.accepted ∧ t.winBusy = [(page.toNat, false)] ∧
         t.reg page.toNat 0x808 = 0 ∧ t.reg page.toNat 0x80C = t.winGenOf page.toNat (s.rn page.toNat 0x800) ∧
         t.reg page.toNat 0x800 = s.reg page.toNat 0x800 ∧ t.staged = s.staged ∧
         t.winTab = s.winTab ∧ (k ≠ .tracks → k ≠ .residency → t.winGen = s.winGen) ∧
         (∀ w, 4 * w < (winShape k).2 → ∀ b, b < 4 → bits (t.rn page.toNat (0x900 + 4 * w)) (8 * b + 7) (8 * b) =
           (match k with
            | .residency => (s.residency (s.rn page.toNat 0x800)).getD (4 * w + b) 0
            | .tracks => ((s.getTrk (s.rn page.toNat 0x800)).2.listed.bytes (s.rn page.toNat 0x800)).getD (4 * w + b) 0
            | _ => mapGet s.winTab (winKey page.toNat (winShape k).2 (s.rn page.toNat 0x800) (4 * w + b)) 0).toNat)) ∧
     ((s.rn page.toNat 0x800 + 1) % 2 ^ 24 < (winShape k).1 →
       ∃ t, exec (.winLoadNext who page) s = .next t ∧ t.accepted ∧ t.winBusy = [(page.toNat, false)] ∧
         t.rn page.toNat 0x800 = (s.rn page.toNat 0x800 + 1) % 2 ^ 24 ∧
         t.reg page.toNat 0x80C = t.winGenOf page.toNat ((s.rn page.toNat 0x800 + 1) % 2 ^ 24) ∧
         t.winTab = s.winTab ∧ (k ≠ .tracks → k ≠ .residency → t.winGen = s.winGen) ∧
         (∀ w, 4 * w < (winShape k).2 → ∀ b, b < 4 → bits (t.rn page.toNat (0x900 + 4 * w)) (8 * b + 7) (8 * b) =
           (match k with
            | .residency => (s.residency ((s.rn page.toNat 0x800 + 1) % 2 ^ 24)).getD (4 * w + b) 0
            | .tracks => ((s.getTrk ((s.rn page.toNat 0x800 + 1) % 2 ^ 24)).2.listed.bytes ((s.rn page.toNat 0x800 + 1) % 2 ^ 24)).getD (4 * w + b) 0
            | _ => mapGet s.winTab (winKey page.toNat (winShape k).2 ((s.rn page.toNat 0x800 + 1) % 2 ^ 24) (4 * w + b)) 0).toNat))) ∧
  ((∀ (s : State) (page : BitVec 16) (fail : Bool), s.winBusy.find? (fun p => p.1 = page.toNat) = some (page.toNat, fail) →
     ∃ t, exec (.windowCmdDone page) s = .next t ∧ t.winBusy = s.winBusy.filter (fun p => p.1 ≠ page.toNat) ∧
       t.rn page.toNat 0x808 = (if fail then 6 else 2) ∧ OtherRegs s t [(page.toNat, 0x808)] ∧
       t = { s with regs := t.regs, winBusy := t.winBusy }) ∧
   (∀ (s : State) (who : Requester) (page : BitVec 16) (k : Kind) (i : Nat) (r : Row),
     Opens s who page.toNat 0x804 k i r → isWindow k = true →
     (s.winBusy.any (fun p => p.1 = page.toNat) = true →
       ∃ t, exec (.winStore who page) s = .next t ∧ t.discarded ∧ ErrorRecorded s t page.toNat 0x8C who true ∧
         t = { s with regs := t.regs, rsp := t.rsp } ∧ OtherRegs s t [(page.toNat, 0x18), (page.toNat, 0x1C)]) ∧
     (s.winBusy = [] → (winShape k).1 ≤ s.rn page.toNat 0x800 →
       ∃ t, exec (.winLoad who page) s = .next t ∧ t.discarded ∧ ErrorRecorded s t page.toNat 0x86 who true ∧
         t.winBusy = [(page.toNat, true)] ∧ t.winTab = s.winTab))) ∧
  (∀ (s : State) (who : Requester) (page : BitVec 16) (k : Kind) (i : Nat) (r : Row),
     Opens s who page.toNat 0x804 k i r → isWindow k = true → s.winBusy = [] →
     s.rn page.toNat 0x800 < (winShape k).1 →
     ∃ t, exec (.winStore who page) s = .next t ∧ t.accepted ∧
       bits (t.rn page.toNat 0x24) 31 24 = (bits (s.rn page.toNat 0x24) 31 24 + 1) % 256 ∧
       (∀ b, firstBad (s.storeBad k i (s.rn page.toNat 0x800) (storeBytes k (s.winData page.toNat (winShape k).2))) = some b → b < 128 →
         t.winBusy = [(page.toNat, true)] ∧ t.winTab = s.winTab ∧ (k ≠ .residency → t.winGen = s.winGen) ∧ t.dram = s.dram ∧
         bits (t.rn page.toNat 0x24) 3 0 = 3 ∧ bits (t.rn page.toNat 0x24) 15 4 = 0x900 + b / 4 * 4 ∧
         bits (t.rn page.toNat 0x24) 20 16 = 8 * (b % 4)) ∧
       (firstBad (s.storeBad k i (s.rn page.toNat 0x800) (storeBytes k (s.winData page.toNat (winShape k).2))) = none →
         t.winBusy = [(page.toNat, false)] ∧ bits (t.rn page.toNat 0x24) 3 0 = 1 ∧
         t.winGenOf page.toNat (s.rn page.toNat 0x800) = s.winGenOf page.toNat (s.rn page.toNat 0x800) + 1 ∧
         (∀ e, e ≠ s.rn page.toNat 0x800 → e < 2 ^ 24 → t.winGenOf page.toNat e = s.winGenOf page.toNat e) ∧
         (k = .gaffer → ∀ o, o < 32 →
           mapGet t.winTab (winKey page.toNat 32 (s.rn page.toNat 0x800) o) 0 =
             if o = 3 then (s.winData page.toNat 32).getD 3 0
             else mapGet s.winTab (winKey page.toNat 32 (s.rn page.toNat 0x800) o) 0) ∧
         (k = .codec → ∀ o, o < 96 →
           mapGet t.winTab (winKey page.toNat 128 (s.rn page.toNat 0x800) o) 0 = (storeBytes .codec (s.winData page.toNat 128)).getD o 0) ∧
         (k = .flows → ∀ o, o < 92 →
           (mapGet t.winTab (winKey page.toNat 128 (s.rn page.toNat 0x800) o) 0).toNat =
             if o = 1 then fld (storeBytes .flows (s.winData page.toNat 128)) 1 1 % 128 +
               128 * b2n (bit (s.flowNat (s.rn page.toNat 0x800) 1 1) 7)
             else fld (storeBytes .flows (s.winData page.toNat 128)) o 1) ∧
         (k = .tracks → s.memCheck 18 (s.trkAddr (s.rn page.toNat 0x800)) 128 true = none →
           t.rawBytes (s.trkAddr (s.rn page.toNat 0x800)) 128 = storeBytes .tracks (s.winData page.toNat 128)) ∧
         (k = .residency ∨ k = .acct → False)))

/-- STORE_IF_GEN (R69). -/
def Obligations.StoreIfGenRule : Prop :=
  ∀ (s : State) (who : Requester) (page : BitVec 16) (k : Kind) (i : Nat) (r : Row),
    Opens s who page.toNat 0x804 k i r → isWindow k = true → s.winBusy = [] →
    s.rn page.toNat 0x800 < (winShape k).1 →
    ((s.resTouch page.toNat k (s.rn page.toNat 0x800)).winGenOf page.toNat (s.rn page.toNat 0x800) = s.reg page.toNat 0x80C →
      firstBad (s.storeBad k i (s.rn page.toNat 0x800) (storeBytes k (s.winData page.toNat (winShape k).2))) = none →
      ∃ t, exec (.winStoreIfGen who page) s = .next t ∧ exec (.winStore who page) s = .next t ∧ t.accepted ∧
        t.winGenOf page.toNat (s.rn page.toNat 0x800) = s.winGenOf page.toNat (s.rn page.toNat 0x800) + 1) ∧
    ((s.resTouch page.toNat k (s.rn page.toNat 0x800)).winGenOf page.toNat (s.rn page.toNat 0x800) ≠ s.reg page.toNat 0x80C →
      ∃ t, exec (.winStoreIfGen who page) s = .next t ∧ t.discarded ∧ t.winTab = s.winTab ∧
        (k ≠ .residency → t.winGen = s.winGen) ∧
        t.dram = s.dram ∧ t.winBusy = [(page.toNat, true)] ∧ ErrorRecorded s t page.toNat 0x87 who true ∧
        ∃ u, exec (.windowCmdDone page) t = .next u ∧ bit (u.rn page.toNat 0x808) 2 = true)

/-- The PLIC (R77, R78): a claim returns the pending source that is enabled for the context and above its threshold with the
highest priority, the lowest number among equals, or 0; the source is then no longer pending until its completion. A
completion of an enabled source makes it pending again while its page still asserts it. -/
def Obligations.PlicClaimsAndCompletes : Prop :=
  ∀ (s : State) (who : Requester) (ctx : Fin 16), mayReachPages who = true →
    (∃ t, exec (.plicClaim who ctx) s = .next t ∧ t = { s with plicPending := t.plicPending, plicClaimed := t.plicClaimed, rsp := t.rsp } ∧
      ((∀ y ∈ s.plicPending, 1 ≤ y → s.plicOn ctx.val y = true → s.plicPrio y ≤ s.rn pgPlic (0x100 + 8 * ctx.val) % 8) →
        t.rsp = ⟨false, false, 0⟩ ∧ t.plicPending = s.plicPending ∧ t.plicClaimed = s.plicClaimed) ∧
      (∀ x, x ∈ s.plicPending → 1 ≤ x → x ≤ 640 → s.plicOn ctx.val x = true →
        s.rn pgPlic (0x100 + 8 * ctx.val) % 8 < s.plicPrio x →
        (∀ y ∈ s.plicPending, 1 ≤ y → s.plicOn ctx.val y = true → s.rn pgPlic (0x100 + 8 * ctx.val) % 8 < s.plicPrio y →
          s.plicPrio y < s.plicPrio x ∨ (s.plicPrio y = s.plicPrio x ∧ x ≤ y)) →
        t.rsp = ⟨false, false, w32 x⟩ ∧ x ∉ t.plicPending ∧ (∀ y, y ≠ x → (y ∈ t.plicPending ↔ y ∈ s.plicPending)) ∧
        t.plicClaimed = s.plicClaimed ++ [(ctx.val, x)])) ∧
    (∀ (src : Word), s.mayWrite who pgPlic (0x104 + 8 * ctx.val) .plic = true → 1 ≤ src.toNat → src.toNat ≤ 640 →
      s.plicOn ctx.val src.toNat = true →
      ∃ t, exec (.plicComplete who ctx src) s = .next t ∧ t.accepted ∧
        t = { s with plicPending := t.plicPending, plicClaimed := t.plicClaimed, rsp := t.rsp, sec := t.sec } ∧
        t.plicClaimed = s.plicClaimed.filter (fun p => p.2 ≠ src.toNat) ∧
        (s.irqLevel (src.toNat - 1) = true → s.pagePresent (src.toNat - 1) = true → src.toNat ∈ t.plicPending) ∧
        (s.irqLevel (src.toNat - 1) = false → t.plicPending = s.plicPending))

/-- Writing 1 clears the counters of a core (R144), of a cluster (R269) and the peak temperature by its bit 31 (R532); no other
register changes. LOG_TAIL takes a value from its present one to LOG_HEAD, counted modulo 64, and no other (R387). Reads
that latch: TK_NS latches TK_FRAC (R330), EVT_W0 the head entry of the event FIFO, which stays there until EVT_POP (R329),
AX_PHASE_LO the interpolated phase, its time, the velocity and the status (R336), PTP_SEC_LO the rest of PTP time (R360).
Nothing else changes. Where it rests on the model's choices: log 19. -/
def Obligations.ClearsAndLatches : Prop :=
  ((∀ (s : State) (who : Requester) (core : Fin 128) (r : Row), Opens s who (pgTc core.val) 0x140 .tc core.val r →
     ∃ t, exec (.tcCntClear who core 1) s = .next t ∧ t.accepted ∧ t = { s with regs := t.regs, rsp := t.rsp, sec := t.sec } ∧
       (∀ o ∈ [0x120, 0x124, 0x128, 0x12C, 0x130, 0x134, 0x138, 0x13C, 0x410, 0x414, 0x418, 0x41C], t.reg (pgTc core.val) o = 0) ∧
       OtherRegs s t ([0x120, 0x124, 0x128, 0x12C, 0x130, 0x134, 0x138, 0x13C, 0x410, 0x414, 0x418, 0x41C].map
         (fun o => (pgTc core.val, o)))) ∧
   (∀ (s : State) (who : Requester) (cl : Fin 8) (r : Row), Opens s who (pgCl cl.val) 0x140 .cl cl.val r →
     ∃ t, exec (.clCntClear who cl 1) s = .next t ∧ t.accepted ∧ t = { s with regs := t.regs, rsp := t.rsp, sec := t.sec } ∧
       (∀ o ∈ [0x110, 0x114, 0x118, 0x11C], t.reg (pgCl cl.val) o = 0) ∧
       OtherRegs s t ([0x110, 0x114, 0x118, 0x11C].map (fun o => (pgCl cl.val, o)))) ∧
   (∀ (s : State) (who : Requester) (r : Row) (v : Word), Opens s who pgThermal 0x10C .thermal 0 r → bit v.toNat 31 = true →
     ∃ t, exec (.tjPeakClear who v) s = .next t ∧ t.accepted ∧ t.power = { s.power with peak := none } ∧
       t = { s with power := t.power, rsp := t.rsp, sec := t.sec }) ∧
   (∀ (s : State) (who : Requester) (mc : Fin 8) (r : Row) (v : Word), Opens s who (pgMc mc.val) 0x164 .mc mc.val r →
     s.rn (pgMc mc.val) 0x160 < 64 → s.rn (pgMc mc.val) 0x164 < 64 →
     ∃ t, exec (.logTailWrite who mc v) s = .next t ∧ t.accepted ∧ t = { s with regs := t.regs, rsp := t.rsp } ∧
       OtherRegs s t [(pgMc mc.val, 0x164)] ∧
       (∀ d, d ≤ (s.rn (pgMc mc.val) 0x160 + 64 - s.rn (pgMc mc.val) 0x164) % 64 →
         v.toNat % 64 = (s.rn (pgMc mc.val) 0x164 + d) % 64 → t.rn (pgMc mc.val) 0x164 = v.toNat % 64) ∧
       ((∀ d, d ≤ (s.rn (pgMc mc.val) 0x160 + 64 - s.rn (pgMc mc.val) 0x164) % 64 →
         v.toNat % 64 ≠ (s.rn (pgMc mc.val) 0x164 + d) % 64) → t.rn (pgMc mc.val) 0x164 = s.rn (pgMc mc.val) 0x164))) ∧
  (∀ (s : State) (who : Requester), mayReachPages who = true →
     (∃ t, exec (.tkNsRead who) s = .next t ∧ t.rsp = ⟨false, false, w32 (s.tk / 256)⟩ ∧
       t.reg pgTk 0x104 = w32 (s.tk % 256) ∧ OtherRegs s t [(pgTk, 0x100), (pgTk, 0x104)] ∧
       t = { s with regs := t.regs, rsp := t.rsp }) ∧
     (∀ e es, s.evts = e :: es → ∃ t, exec (.evtW0Latch who) s = .next t ∧ t.rsp = ⟨false, false, e.w0⟩ ∧
       t.reg pgTk 0x124 = e.w1 ∧ t.reg pgTk 0x128 = e.w2 ∧ t.reg pgTk 0x12C = e.w3 ∧
       OtherRegs s t [(pgTk, 0x120), (pgTk, 0x124), (pgTk, 0x128), (pgTk, 0x12C)] ∧
       t = { s with regs := t.regs, rsp := t.rsp }) ∧
     (∀ axis : Fin 8, ∃ t, exec (.axPhaseRead who axis) s = .next t ∧
       t.rsp = ⟨false, false, w32 (wrapTo 32 (s.interp axis.val s.time))⟩ ∧
       t.reg (pgAx axis.val) 0x144 = w32 (wrapTo 64 (s.interp axis.val s.time) / 2 ^ 32) ∧
       t.reg (pgAx axis.val) 0x148 = w32 (s.tk / 256) ∧ t.reg (pgAx axis.val) 0x14C = w32 (wrapTo 32 (s.axis axis.val).v) ∧
       t.reg (pgAx axis.val) 0x150 = w32 (wrapTo 64 (s.axis axis.val).v / 2 ^ 32) ∧
       t.reg (pgAx axis.val) 0x154 = w32 ((s.axis axis.val).status + 2 ^ 24 * (s.tk % 256)) ∧
       OtherRegs s t ([0x140, 0x144, 0x148, 0x14C, 0x150, 0x154].map (fun o => (pgAx axis.val, o))) ∧
       t = { s with regs := t.regs, rsp := t.rsp }) ∧
     (∃ t, exec (.ptpSecRead who) s = .next t ∧ t.rsp = ⟨false, false, w32 (s.time / 256 / 1000000000)⟩ ∧
       t.reg pgNte 0x124 = w32 (s.time / 256 / 1000000000 / 2 ^ 32 % 65536) ∧
       t.reg pgNte 0x128 = w32 (s.time / 256 % 1000000000) ∧ t.reg pgNte 0x12C = w32 (s.time % 256) ∧
       OtherRegs s t [(pgNte, 0x120), (pgNte, 0x124), (pgNte, 0x128), (pgNte, 0x12C)] ∧
       t = { s with regs := t.regs, rsp := t.rsp }))

/-- REEL_SUBMIT (R282, R283): the write of word 0x3C with the other fifteen words written copies the command into the ring at
TAIL with its session; with a word missing, a full ring, ENABLE = 0 or SOURCE ≠ 1 it is dropped and counted, and either way
the window is empty. REG_READ and REG_WRITE (R289, R290): one to eight accesses at rising addresses, made with the role of
the session; the completion holds the words read and each word's result byte, 1 for an error response, 2 where an ERR_INFO
was set, and STATUS 0x60 unless every word succeeded. Where it rests on the model's choices: log 21, 55. -/
def Obligations.ReelsTakeCommandsWithTheirRole : Prop :=
  (∀ (s : State) (who : Requester) (reel : Fin 32) (v : Word) (r : Row) (i : Fin 256),
     Opens s who pgReels (0x800 + 64 * reel.val + 0x3C) .reels 0 r → s.sessionOf who = some i →
     (∀ p ∈ (s.reel reel.val).win, p.1 < 15) →
     ∃ t, exec (.reelSubmit who reel v) s = .next t ∧ t.accepted ∧ (t.reel reel.val).win = [] ∧
       (∀ m, m ≠ reel.val → t.reel m = s.reel m) ∧
       ((s.reel reel.val).win.map (·.1) = List.range 15 → s.reelOn reel.val = true → s.reelSource reel.val = 1 →
         s.reelFull reel.val = false →
         (t.reel reel.val).tail = ringNext (s.reelLog reel.val) (s.reel reel.val).tail ∧
         (t.reel reel.val).head = (s.reel reel.val).head ∧
         (t.reel reel.val).tags = (s.reel reel.val).tags ++
           [⟨(s.reel reel.val).tail % 2 ^ s.reelLog reel.val, i, (s.session i.val).gen⟩] ∧
         (s.memCheck 19 (s.reelBase reel.val + 64 * ((s.reel reel.val).tail % 2 ^ s.reelLog reel.val)) 64 true = none →
           t.rawBytes (s.reelBase reel.val + 64 * ((s.reel reel.val).tail % 2 ^ s.reelLog reel.val)) 64 =
             ((s.reel reel.val).win.map (·.2) ++ [v]).flatMap (fun w => leBytes 4 w.toNat))) ∧
       (((s.reel reel.val).win.length < 15 ∨ s.reelOn reel.val = false ∨ s.reelSource reel.val ≠ 1 ∨
           s.reelFull reel.val = true) →
         (t.reel reel.val).tail = (s.reel reel.val).tail ∧ t.dram = s.dram ∧
         t.reg pgReels (0x300 + 4 * reel.val) = satInc (s.reg pgReels (0x300 + 4 * reel.val)) ∧
         OtherRegs s t [(pgReels, 0x300 + 4 * reel.val)])) ∧
  (∀ (s : State) (reel : Fin 32) (c : Cmd), Takes s reel.val c →
     (opIs 0x07 c.bytes = true →
       ∃ t u ws bs, exec (.regRead reel) s = .next t ∧
         (u, ws, bs) = (s.popCmd reel.val).regReads (.jsc c.session) (fld c.bytes 16 5) (fld c.bytes 8 1) ∧
         EntryWritten u t reel.val 1 (if ∃ b ∈ bs, b ≠ 0 then 0x60 else 0) c.seq c.job c.op 0
           (fitBytes 32 (ws.flatMap (fun w => leBytes 4 w.toNat)) ++ bs.flatMap (leBytes 1)) ∧
         (t.reel reel.val).head = (u.reel reel.val).head ∧
         (fld c.bytes 8 1 = 1 → u = (s.popCmd reel.val).busRead (.jsc c.session) (fld c.bytes 16 5) 4 ∧
           ws = [if u.rsp.error then 0 else u.rsp.data] ∧
           bs = [if u.rsp.error then 1 else if u.rsp.discarded then 2 else 0]) ∧
         t = { u with reels := t.reels, regs := t.regs, plicPending := t.plicPending, dram := t.dram, tags := t.tags,
                      poison := t.poison, cellErr := t.cellErr, winTab := t.winTab, winGen := t.winGen, rsp := t.rsp }) ∧
     (opIs 0x08 c.bytes = true →
       ∃ t u bs, exec (.regWrite reel) s = .next t ∧
         (u, bs) = (s.popCmd reel.val).regWrites (.jsc c.session) (fld c.bytes 16 5)
           ((List.range (fld c.bytes 8 1)).map (fun i => w32 (fld c.bytes (24 + 4 * i) 4))) ∧
         EntryWritten u t reel.val 1 (if ∃ b ∈ bs, b ≠ 0 then 0x60 else 0) c.seq c.job c.op 0
           (List.replicate 32 0 ++ bs.flatMap (leBytes 1)) ∧
         (t.reel reel.val).head = (u.reel reel.val).head ∧
         (fld c.bytes 8 1 = 1 →
           u = (s.popCmd reel.val).busWrite (.jsc c.session) (fld c.bytes 16 5) 4 (w32 (fld c.bytes 24 4)) ∧
           bs = [if u.rsp.error then 1 else if u.rsp.discarded then 2 else 0]) ∧
         t = { u with reels := t.reels, regs := t.regs, plicPending := t.plicPending, dram := t.dram, tags := t.tags,
                      poison := t.poison, cellErr := t.cellErr, winTab := t.winTab, winGen := t.winGen, rsp := t.rsp }))

/-- TIME_GET, AXIS_GET and EVT_READ answer with the results of R361: the timekeeper, the servo's state, PTP time, rate and last
offset; the phase, velocity and status of an axis; one or two entries, which leave the event FIFO. AXIS_SAMPLE delivers its
phase to an axis with SOURCE 7 as a measurement, and is refused with AXIS_RANGE for another axis; RESTEP_AUTH authorises one
re-step while a master jump is held and is refused with TIME_STATE otherwise; TIME_SET steps PTP time to its operand in
FREERUN alone (R331, R358, R361, R362). Where it rests on the model's choices: log 19, 32. -/
def Obligations.TimeCommandsAnswerAndAct : Prop :=
  (∀ (s : State) (reel : Fin 32) (c : Cmd), Takes s reel.val c →
     (opIs 0x20 c.bytes = true → ∃ t, exec (.timeGet reel) s = .next t ∧ ReelFrame s t ∧
       CommandDone s t c 0 0 (leBytes 5 s.tk ++ leBytes 1 s.ntState ++ [0, 0] ++ leBytes 6 (s.time / 256 / 1000000000) ++ [0, 0] ++
         leBytes 4 (s.time / 256 % 1000000000) ++ leBytes 4 (s.rn pgNte 0x114) ++ leBytes 4 (s.rn pgNte 0x110))) ∧
     (opIs 0x21 c.bytes = true → fld c.bytes 8 1 < 8 → ∃ t, exec (.axisGet reel) s = .next t ∧ ReelFrame s t ∧
       CommandDone s t c 0 0 (leBytes 8 (wrapTo 64 (s.interp (fld c.bytes 8 1) s.time)) ++
         leBytes 8 (wrapTo 64 (s.axis (fld c.bytes 8 1)).v) ++ leBytes 5 s.tk ++ leBytes 1 (s.axis (fld c.bytes 8 1)).status)) ∧
     (opIs 0x27 c.bytes = true → ∃ t, exec (.evtRead reel) s = .next t ∧ t.evts = s.evts.drop (fld c.bytes 8 1) ∧
       ReelFrame { s with evts := t.evts } t ∧
       CommandDone s t c 0 0 (fitBytes 32 ((s.evts.take (fld c.bytes 8 1)).flatMap (fun e =>
         leBytes 4 e.w0.toNat ++ leBytes 4 e.w1.toNat ++ leBytes 4 e.w2.toNat ++ leBytes 4 e.w3.toNat)) ++
         leBytes 2 (s.evts.length - fld c.bytes 8 1)))) ∧
  (∀ (s : State) (reel : Fin 32) (c : Cmd), Takes s reel.val c →
     (opIs 0x24 c.bytes = true → fld c.bytes 8 1 < 8 →
       (s.axSource (fld c.bytes 8 1) = 7 → (∀ l, (s.axis (fld c.bytes 8 1)).lastT = some l → l < s.extendTk (fld c.bytes 24 5)) →
         ∃ t, exec (.axisSample reel) s = .next t ∧ CommandDone s t c 0 0 [] ∧
           (t.axis (fld c.bytes 8 1)).meas =
             some (s.axReduce (fld c.bytes 8 1) (fldS c.bytes 16 8), s.extendTk (fld c.bytes 24 5)) ∧
           (∀ m, m ≠ fld c.bytes 8 1 → t.axis m = s.axis m)) ∧
       (s.axSource (fld c.bytes 8 1) ≠ 7 → ∃ t, exec (.axisSample reel) s = .next t ∧ t.axes = s.axes ∧
         EntryWritten s t reel.val 1 0x90 c.seq c.job c.op 8 [])) ∧
     (opIs 0x25 c.bytes = true → s.ntBit 8 = true →
       ∃ t, exec (.restepAuth reel) s = .next t ∧ t.ntBit 10 = true ∧ t.ntBit 8 = true ∧ t.ntState = s.ntState ∧ t.time = s.time ∧
         CommandDone s t c 0 0 (leBytes 1 (t.rn pgNte 0x10C % 256))) ∧
     (opIs 0x26 c.bytes = true → s.ntState = 0 →
       256 * (fld c.bytes 8 6 * 1000000000 + fld c.bytes 16 4) < 2 ^ 48 * 1000000000 * 256 →
       ∃ t, exec (.timeSet reel) s = .next t ∧ t.time = 256 * (fld c.bytes 8 6 * 1000000000 + fld c.bytes 16 4) ∧
         t.uptime = s.uptime ∧ t.servo.setOnce = true ∧ bit (t.rn pgTk 0x10) 1 = true ∧
         (t.reel reel.val).head = ringNext (s.reelLog reel.val) (s.reel reel.val).head ∧
         EntryWritten { s with time := t.time } t reel.val 1 0 c.seq c.job c.op 0 (leBytes 5 t.tk)))

/-- CUE_SET puts its six values into force in its slot, when no rule of R349 refuses them, and leaves every other staged value
staged; CUE_DISARM clears ARM, and the slot does not fire (R348, R361). Where the slot has been handed off, both wait for
the firing in progress. FLOW_GATE (R416): ACTION 1 sets GATED and gives up an access unit in progress; ACTION 0 clears it
and restarts AU_SEQ with a gap. SET_CAP (R513) takes the place of a staged CAP_MW and waits for the gaffer's update, or is
refused with CAP_RANGE. Where it rests on the model's choices: log 18, 30, 47. -/
def Obligations.CueGateAndCapCommands : Prop :=
  (∀ (s : State) (reel : Fin 32) (c : Cmd), Takes s reel.val c → fld c.bytes 8 1 < 64 →
     (opIs 0x22 c.bytes = true →
       ((s.popCmd reel.val).cueCommit (.jsc c.session) (fld c.bytes 8 1)
         [(0, w32 (fld c.bytes 12 4) &&& 0xF3FFF), (4, w32 (fld c.bytes 16 4)), (8, w32 (fld c.bytes 20 4)),
           (0xC, w32 (fld c.bytes 24 4)), (0x10, w32 (fld c.bytes 28 4)), (0x14, w32 (fld c.bytes 32 4))]).2 ≠ 3 →
       ∃ t, exec (.cueSet reel) s = .next t ∧
         (∀ o ∈ cueRegs, let v := if o = 0 then w32 (fld c.bytes 12 4) &&& 0xF3FFF else w32 (fld c.bytes (12 + o) 4)
           if (s.cue (fld c.bytes 8 1)).handed then mapGet? (t.cue (fld c.bytes 8 1)).later o = some v ∧
             t.reg pgCue (cueOff (fld c.bytes 8 1) o) = s.reg pgCue (cueOff (fld c.bytes 8 1) o)
           else t.reg pgCue (cueOff (fld c.bytes 8 1) o) = v) ∧
         (∀ m o, m < 64 → m ≠ fld c.bytes 8 1 → o < 32 → t.reg pgCue (cueOff m o) = s.reg pgCue (cueOff m o)) ∧
         (∀ m, m ≠ fld c.bytes 8 1 → t.cue m = s.cue m) ∧
         (∀ key, (∀ o ∈ cueRegs, key ≠ rkey pgCue (cueOff (fld c.bytes 8 1) o)) →
           mapGet? t.staged key = mapGet? s.staged key) ∧
         bits (t.rn pgCue 0x24) 3 0 = 1 ∧
         EntryWritten s t reel.val 1 0 c.seq c.job c.op 0 (leBytes 4 (t.rn pgCue 0x24))) ∧
     (opIs 0x23 c.bytes = true →
       ((State.popCmd { s with staged := s.staged.filter (fun p => !(cueRegs.map (fun o => rkey pgCue (cueOff (fld c.bytes 8 1) o))).contains p.1) }
         reel.val).cueCommit (.jsc c.session) (fld c.bytes 8 1)
         [(0, w32 ((mapGet (s.cue (fld c.bytes 8 1)).later 0 (s.reg pgCue (cueOff (fld c.bytes 8 1) 0))).toNat / 2 * 2) &&& 0xF3FFF)]).2 ≠ 3 →
       ∃ t, exec (.cueDisarm reel) s = .next t ∧ (∀ key, mapGet? t.staged key = mapGet? s.staged key) ∧
         (if (s.cue (fld c.bytes 8 1)).handed then
           (mapGet? (t.cue (fld c.bytes 8 1)).later 0).any (fun w => !bit w.toNat 0) = true ∧
             (t.cue (fld c.bytes 8 1)).fireAt = (s.cue (fld c.bytes 8 1)).fireAt
         else t.cueArmed (fld c.bytes 8 1) = false ∧ (t.cue (fld c.bytes 8 1)).fireAt = none) ∧
         (∀ m, m ≠ fld c.bytes 8 1 → t.cue m = s.cue m) ∧
         (t.reel reel.val).head = ringNext (s.reelLog reel.val) (s.reel reel.val).head ∧
         EntryWritten s t reel.val 1 0 c.seq c.job c.op 0 (leBytes 4 (t.cueReg (fld c.bytes 8 1) 0x18) ++
           leBytes 4 ((t.cueView (cueOff (fld c.bytes 8 1) 0x1C)).getD 0)))) ∧
  (∀ (s : State) (reel : Fin 32) (c : Cmd), Takes s reel.val c →
     (opIs 0x09 c.bytes = true → fld c.bytes 8 2 ≤ 2047 → s.flowType (fld c.bytes 8 2) ≠ 0 →
       (fld c.bytes 10 1 = 1 → ∃ t, exec (.flowGateClose reel) s = .next t ∧
         bit (t.flowNat (fld c.bytes 8 2) 1 1) 7 = true ∧ (t.flow (fld c.bytes 8 2)).open_ = false ∧
         (∀ f, f ≠ fld c.bytes 8 2 → t.flow f = s.flow f) ∧ (∀ b, b < 7 → bit (t.flowNat (fld c.bytes 8 2) 1 1) b = bit (s.flowNat (fld c.bytes 8 2) 1 1) b) ∧
         EntryWritten s t reel.val 1 0 c.seq c.job c.op 0 []) ∧
       (fld c.bytes 10 1 = 0 → bit (s.flowNat (fld c.bytes 8 2) 1 1) 7 = true →
         ∃ t, exec (.flowGateOpen reel) s = .next t ∧
         bit (t.flowNat (fld c.bytes 8 2) 1 1) 7 = false ∧ (t.flow (fld c.bytes 8 2)).auSeq = 0 ∧
         (t.flow (fld c.bytes 8 2)).gap = true ∧ (∀ f, f ≠ fld c.bytes 8 2 → t.flow f = s.flow f) ∧
         EntryWritten s t reel.val 1 0 c.seq c.job c.op 0 [])) ∧
     (opIs 0x0A c.bytes = true → 20000 ≤ fld c.bytes 8 4 → fld c.bytes 8 4 ≤ s.rn pgGaffer 0x400 →
       ∃ t, exec (.setCap reel) s = .next t ∧ mapGet? t.staged (rkey pgGaffer 0x104) = none ∧
         (∀ key, key ≠ rkey pgGaffer 0x104 → mapGet? t.staged key = mapGet? s.staged key) ∧
         t.power.capPending = s.power.capPending ++ [(reel.val, c.seq, c.session, fld c.bytes 8 4)] ∧
         (t.reel reel.val).busy = true ∧ (t.reel reel.val).chead = (s.reel reel.val).chead ∧
         (∀ page off, off < 4096 → t.reg page off = s.reg page off)) ∧
     (opIs 0x0A c.bytes = true → (fld c.bytes 8 4 < 20000 ∨ s.rn pgGaffer 0x400 < fld c.bytes 8 4) →
       ∃ t, exec (.setCap reel) s = .next t ∧ t.power = s.power ∧ t.staged = s.staged ∧
         EntryWritten s t reel.val 1 0x61 c.seq c.job c.op 8 []))

/-- QUERY answers with the job's state, class, slot, take, clusters, pending runs, slate and sums (R290); a job that is not
bound is refused with BAD_JOB, one that the session does not own with NOT_OWNER. A command read as poison is skipped with
STATUS 0xA0 (R472). A command refused before its own checks (R289, R300, R539): an unknown opcode with BAD_OPCODE, a role
below the command's (or a session closed since, whose role is none) with ROLE, a reserved byte that is not 0 with
RESERVED_NONZERO and its offset; the command leaves the ring and changes nothing else but the completion and the counts of
refusals. Where it rests on the model's choices: log 22, 55. -/
def Obligations.QueriesAndRefusedCommands : Prop :=
  ((∀ (s : State) (reel : Fin 32) (c : Cmd), Takes s reel.val c → opIs 0x06 c.bytes = true →
     (∀ j, s.job? c.job = some j → c.owns j = true →
       ∃ t, exec (.query reel) s = .next t ∧ ReelFrame s t ∧ ∃ res : List Byte, CommandDone s t c 0 0 res ∧
         res.take 4 = leBytes 1 (jobStNum j.st) ++ leBytes 1 j.cls ++ leBytes 1 j.slot.val ++ leBytes 1 j.takeNo ∧
         (∀ l p, l < 8 → j.placed[l]? = some p → res[4 + l]? = some (BitVec.ofNat 8 p.1)) ∧
         (∀ l, l < 8 → j.placed[l]? = none → res[4 + l]? = some 0xFF) ∧
         (res.drop 12).take 4 = leBytes 2 j.runs.length ++ leBytes 2 j.slateId ∧
         ((res.drop 16).take (4 * j.sums.length) = j.sums.flatMap (leBytes 4)) ∧
         ((res.drop (16 + 4 * j.sums.length)).take 4 = s.rawBytes (j.areaPart 0 + 0x40) 4)) ∧
     (∀ j, s.job? c.job = some j → c.owns j = false →
       ∃ t, exec (.query reel) s = .next t ∧ EntryWritten s t reel.val 1 0x09 c.seq c.job c.op 4 []) ∧
     (s.job? c.job = none → ∃ t, exec (.query reel) s = .next t ∧ EntryWritten s t reel.val 1 0x04 c.seq c.job c.op 4 [] ∧
       t.rn pgAdm 0x114 = (0x04 + 256 * c.op + 65536 * c.job.toNat) % 2 ^ 32)) ∧
   (∀ (s : State) (reel : Fin 32), s.mayTake reel.val = true → (s.readVia 19 (s.headAddr reel.val) 64).2.2 ≠ .ok →
     ∃ t, exec (.poisonedCmd reel) s = .next t ∧
       (t.reel reel.val).head = ringNext (s.reelLog reel.val) (s.reel reel.val).head ∧
       (t.reel reel.val).chead = ringNext (s.reelLog reel.val) (s.reel reel.val).chead ∧
       bit (t.rn pgReels 0x10) reel.val = true ∧ t.jobs = s.jobs)) ∧
  (∀ (s : State) (reel : Fin 32) (c : Cmd), s.mayTake reel.val = true → s.memCheck 19 (s.headAddr reel.val) 64 false = none →
     s.isPoison (s.headAddr reel.val) 64 = false → c = s.headCmd reel.val (s.rawBytes (s.headAddr reel.val) 64) →
     c.op ≠ 3 → c.op ≠ 4 →
     (knownOp c.op = false → ∃ t, exec (.query reel) s = .next t ∧ t.jobs = s.jobs ∧ t.cores = s.cores ∧ t.staged = s.staged ∧
       EntryWritten s t reel.val 1 0x01 c.seq c.job c.op 0 []) ∧
     (opIs 0x06 c.bytes = true → c.atLeast .operator = false → ∃ t, exec (.query reel) s = .next t ∧ t.jobs = s.jobs ∧
       EntryWritten s t reel.val 1 0x02 c.seq c.job c.op 0 []) ∧
     (opIs 0x06 c.bytes = true → c.atLeast .operator = true → ∀ o, reservedAt c.bytes = some o → o < 2 ^ 24 →
       ∃ t, exec (.query reel) s = .next t ∧ t.jobs = s.jobs ∧ EntryWritten s t reel.val 1 0x03 c.seq c.job c.op o [] ∧
       t.rn pgAdm 0x118 = o))

/-- LOAD_IMAGE (R294, R190): the bytes of the image before its trailer come to stand in the slot's region, the slot is empty
until SEC has verified the copy, and the reel waits for the completion. LOAD_IMAGE_VERIFIED (R187, R285): with no reason to
refuse, the slot is loaded with the image's ID and length, CMD_DONE is written and the load is audited; else the slot is
empty and CMD_DONE carries the reason code. Where it rests on the model's choices: log 7, 23, 24. -/
def Obligations.ImagesAreCopiedAndVerified : Prop :=
  (∀ (s : State) (reel : Fin 32) (c : Cmd), Takes s reel.val c → opIs 0x01 c.bytes = true →
    fld c.bytes 8 1 < 64 → (s.slot (fld c.bytes 8 1)).verifying = none → s.slotLocked (fld c.bytes 8 1) = false →
    trailerLen < fld c.bytes 24 4 → fld c.bytes 24 4 ≤ s.slotBytes → s.inDram (fld c.bytes 16 5) (fld c.bytes 24 4) = true →
    fld c.bytes 16 5 % 64 = 0 →
    (∀ l ∈ s.poison, l < fld c.bytes 16 5 ∨ fld c.bytes 16 5 + fld c.bytes 24 4 ≤ l) →
    (∀ p ∈ s.cellErr, p.1 < fld c.bytes 16 5 ∨ fld c.bytes 16 5 + fld c.bytes 24 4 ≤ p.1) → s.memCheck 19 (fld c.bytes 16 5) (fld c.bytes 24 4) false = none →
    s.memCheck 19 (s.slotAddr (fld c.bytes 8 1)) (fld c.bytes 24 4 - trailerLen) true = none →
    ∃ t, exec (.loadImage reel) s = .next t ∧ (t.reel reel.val).busy = true ∧
      (t.reel reel.val).chead = (s.reel reel.val).chead ∧
      (t.slot (fld c.bytes 8 1)).loaded = false ∧
      (t.slot (fld c.bytes 8 1)).verifying = some ⟨reel.val, c.seq, c.job.toNat, c.session, c.gen, fld c.bytes 24 4⟩ ∧
      (t.slot (fld c.bytes 8 1)).trailer = s.rawBytes (fld c.bytes 16 5 + (fld c.bytes 24 4 - trailerLen)) trailerLen ∧
      (∀ m, m ≠ fld c.bytes 8 1 → t.slot m = s.slot m) ∧
      (∀ i, i < fld c.bytes 24 4 - trailerLen →
        t.byte (s.slotAddr (fld c.bytes 8 1) + i) = s.byte (fld c.bytes 16 5 + i))) ∧
  (∀ (s : State) (slot : Fin 64) (v : LoadCmd), (s.slot slot.val).verifying = some v → v.reel < 32 →
    (s.imageRef slot.val v.length (s.slot slot.val).trailer = none →
      ∃ t, exec (.loadImageVerified slot) s = .next t ∧ (t.slot slot.val).loaded = true ∧
        (t.slot slot.val).verifying = none ∧ (t.slot slot.val).length = v.length ∧
        (t.slot slot.val).imageId.toNat = s.imgN slot.val 24 8 ∧ (t.reel v.reel).busy = false ∧
        EntryWritten s t v.reel 1 0 (v.seq % 65536) (BitVec.ofNat 16 v.job) 1 0 [] ∧
        (∃ e : AuditEntry, e.event = 8 ∧ t.sec.staged = s.sec.staged ++ [e]) ∧ (∀ m, m ≠ slot.val → t.slot m = s.slot m)) ∧
    (∀ code o, s.imageRef slot.val v.length (s.slot slot.val).trailer = some (code, o) → code ≠ 0 → code < 256 →
      ∃ t, exec (.loadImageVerified slot) s = .next t ∧ t.slot slot.val = PSlot.reset ∧ (t.reel v.reel).busy = false ∧
        t.sec = s.sec ∧ EntryWritten s t v.reel 1 code (v.seq % 65536) (BitVec.ofNat 16 v.job) 1 (o % 2 ^ 24) []))

/-- BIND (R296, R288): with no reason to refuse, one new job stands at the end, idle, with no run, owned by the submitting
session, bound to its slot with its class, area, segments and deadline; its clusters give it memory, counters, barriers and
groups (R251, R259, R260), its cue slots and phases are its own (R345, R514), the job area begins with zeros, and CMD_DONE
holds the IMAGE_ID. The first failing check refuses it with its code and allocates nothing. REBIND (R192): with no reason to
refuse, the job keeps its slot, its runs and its cores, and will move to the named slot at its next slate commit, with the
deadline, admission figure and RETRY of the new image; tags the new image adds get phases; CMD_DONE holds the new IMAGE_ID.
Where a check fails, the job stays as it is. Where it rests on the model's choices: log 25, 26, 55, 56. -/
def Obligations.BindsAndRebinds : Prop :=
  (∀ (s : State) (reel : Fin 32) (c : Cmd) (a : BindArgs), Takes s reel.val c → opIs 0x02 c.bytes = true →
     bit (fld c.bytes 10 1) 1 = false → a = bindArgs c.bytes → 1 ≤ a.vaN → a.vaN ≤ 64 →
     s.memCheck 19 a.va (16 * a.vaN) false = none → s.linesClean a.va (16 * a.vaN) = true →
     (∀ p, (s.popCmd reel.val).bindRef c.job a (some (segsOf (s.rawBytes a.va (16 * a.vaN)) a.vaN)) = none →
       (s.popCmd reel.val).placement a true = some p →
       ∃ t j, exec (.bind reel) s = .next t ∧ t.jobs = s.jobs ++ [j] ∧ t.job? c.job = some j ∧
         (∀ k, k ≠ c.job → t.job? k = s.job? k) ∧
         j.id = c.job ∧ j.owner = c.session ∧ j.ownerGen = c.gen ∧ j.slot.val = a.slot ∧ j.cls = a.cls ∧ j.retry = a.retry ∧
         j.placed = p.map (fun k => (k, ((s.cluster k).clFit (s.shClmem a.slot)).getD 0)) ∧ j.cueFirst = a.cue ∧
         j.cueCount = s.sheet a.slot 24 2 ∧ j.area = a.area ∧ j.areaBytes = a.bytes ∧ j.recEntries = a.recs ∧
         j.segs = segsOf (s.rawBytes a.va (16 * a.vaN)) a.vaN ∧ j.deadlineUs = s.deadline a ∧ j.dUnits = s.jobD a.slot a.mask ∧
         j.st = .idle ∧ j.runs = [] ∧ j.cur = none ∧ j.cores = [] ∧ j.claimed = [] ∧ j.committed = false ∧ j.rebind = none ∧
         j.cancel = none ∧ j.phases = (s.givePhases c.job.toNat a.slot (s.imgTags a.slot)).2 ∧
         (∀ k, t.cluster k = if k ∈ p ∧ k < 8 then (s.cluster k).take c.job (s.need a.slot) else s.cluster k) ∧
         (∀ i, i < 64 → (t.cue i).owner =
           if a.cue ≤ i ∧ i < a.cue + s.sheet a.slot 24 2 then some c.job else (s.cue i).owner) ∧
         (t.memCheck 19 a.area 4096 true = none → t.rawBytes a.area 4096 = List.replicate 4096 0) ∧
         (t.reel reel.val).head = ringNext (s.reelLog reel.val) (s.reel reel.val).head ∧
         EntryAt s t reel.val 1 0 c.seq c.job c.op 0 (leBytes 8 (s.slot a.slot).imageId.toNat) ∧
         t = { s with jobs := t.jobs, clusters := t.clusters, cues := t.cues, winTab := t.winTab, winGen := t.winGen,
                      reels := t.reels, turn := t.turn, regs := t.regs, plicPending := t.plicPending, dram := t.dram,
                      tags := t.tags, poison := t.poison, cellErr := t.cellErr }) ∧
     (∀ code o, (s.popCmd reel.val).bindRef c.job a (some (segsOf (s.rawBytes a.va (16 * a.vaN)) a.vaN)) = some (code, o) →
       code ≠ 0 →
       ∃ t, exec (.bind reel) s = .next t ∧ t.jobs = s.jobs ∧ t.clusters = s.clusters ∧ t.cues = s.cues ∧ t.cores = s.cores ∧
         EntryWritten s t reel.val 1 code c.seq c.job c.op o [])) ∧
  (∀ (s : State) (reel : Fin 32) (c : Cmd) (j : Job) (a : BindArgs), Takes s reel.val c → opIs 0x02 c.bytes = true →
     bit (fld c.bytes 10 1) 1 = true → a = bindArgs c.bytes → s.job? c.job = some j →
     ((s.popCmd reel.val).rebindRef c j a = none →
       ∃ t, exec (.rebind reel) s = .next t ∧
         t.job? c.job = some { j with
           rebind := some (Fin.ofNat 64 a.slot), nextD := s.jobD a.slot a.mask, nextDeadline := s.deadline a, nextRetry := a.retry,
           phases := j.phases ++ (s.givePhases j.id.toNat a.slot
             ((s.imgTags a.slot).filter (fun g => !j.phases.any (fun p => p.1 == g)))).2 } ∧
         (∀ k, k ≠ c.job → t.job? k = s.job? k) ∧ CommandDone s t c 0 0 (leBytes 8 (s.slot a.slot).imageId.toNat) ∧
         t = { s with jobs := t.jobs, winTab := t.winTab, winGen := t.winGen, reels := t.reels, turn := t.turn, regs := t.regs,
                      plicPending := t.plicPending, dram := t.dram, tags := t.tags, poison := t.poison, cellErr := t.cellErr }) ∧
     (∀ code o, (s.popCmd reel.val).rebindRef c j a = some (code, o) → code ≠ 0 →
       ∃ t, exec (.rebind reel) s = .next t ∧ t.jobs = s.jobs ∧ EntryWritten s t reel.val 1 code c.seq c.job c.op o []))

/-- RUN and ARM (R242, R308, R309): a run joins the job's pending runs with its loop counts and tag, the completion entry is
reserved, and no completion is written; ARM makes its cue slot the job's own. A loop count above the call sheet's maximum is
refused with code 0x50 and the offset of the first such count. CANCEL (R315 to R318): SCOPE 1 removes the pending runs
alone; SCOPE 0 and 2 also end the current take: an armed or spilled one at once, while the cores of a running one stop and
the job is CANCELLING. The completion waits for CANCEL_DONE, once the cores are free: type 3, the cores idle, the lost run
over; with SCOPE 2 the job is gone. Where it rests on the model's choices: log 27. -/
def Obligations.RunsArmsAndCancels : Prop :=
  (∀ (s : State) (reel : Fin 32) (c : Cmd) (j : Job), Takes s reel.val c → s.job? c.job = some j → c.owns j = true →
     (opIs 0x03 c.bytes = true →
       (s.runRef j false c.bytes = none → ∃ t, exec (.run reel) s = .next t ∧ RunQueued s t c j false) ∧
       (∀ m, m < 4 → (∀ l, l < m → (s.runCounts j.slot.val c.bytes).getD l 0 ≤ s.sheet j.slot.val (112 + 4 * l) 4) →
         s.sheet j.slot.val (112 + 4 * m) 4 < (s.runCounts j.slot.val c.bytes).getD m 0 →
         ∃ t, exec (.run reel) s = .next t ∧ t.jobs = s.jobs ∧
           EntryWritten s t reel.val 1 0x50 c.seq c.job c.op (16 + 4 * m) [])) ∧
     (opIs 0x04 c.bytes = true →
       (s.runRef j true c.bytes = none → ∃ t, exec (.arm reel) s = .next t ∧ RunQueued s t c j true) ∧
       (∀ m, m < 4 → (∀ l, l < m → (s.runCounts j.slot.val c.bytes).getD l 0 ≤ s.sheet j.slot.val (112 + 4 * l) 4) →
         s.sheet j.slot.val (112 + 4 * m) 4 < (s.runCounts j.slot.val c.bytes).getD m 0 →
         ∃ t, exec (.arm reel) s = .next t ∧ t.jobs = s.jobs ∧
           EntryWritten s t reel.val 1 0x50 c.seq c.job c.op (16 + 4 * m) []))) ∧
  ((∀ (s : State) (reel : Fin 32) (c : Cmd) (j : Job), Takes s reel.val c → opIs 0x05 c.bytes = true →
     s.job? c.job = some j → c.owns j = true →
     (fld c.bytes 8 1 = 0 → ∃ t k, exec (.cancel reel) s = .next t ∧ Cancelling s t c j k 0 ∧ TakeCancelled s t j k) ∧
     (fld c.bytes 8 1 = 1 → ∃ t k, exec (.cancelPending reel) s = .next t ∧ Cancelling s t c j k 1 ∧ k.cur = j.cur ∧
       k.cores = j.cores ∧ k.rearm = j.rearm ∧ t.cores = s.cores ∧
       k.st = (if j.st = .failed ∨ (j.st = .queued ∧ j.cur = none) then .idle else j.st)) ∧
     (fld c.bytes 8 1 = 2 → ∃ t k, exec (.cancelUnbind reel) s = .next t ∧ Cancelling s t c j k 2 ∧ TakeCancelled s t j k)) ∧
   (∀ (s : State) (job : BitVec 16) (j : Job) (reel seq scope : Nat), s.job? job = some j →
     j.cancel = some (reel, seq, scope) → reel < 32 →
     ∃ t, exec (.cancelDone job) s = .next t ∧ (t.reel reel).busy = false ∧ bit (t.rn pgReels 0x10) reel = true ∧
       (scope = 2 → t.job? job = none) ∧
       (scope ≠ 2 → ∃ k, t.job? job = some k ∧ k.cancel = none ∧
         (j.st = .cancelling → k.cur = none ∧ k.cores = []) ∧
         (j.st ≠ .cancelling → k = { j with cancel := none } ∧ t.cores = s.cores ∧
           EntryWritten s t reel 3 0 (seq % 65536) job 5 0 [])) ∧
       (j.st = .cancelling → ∀ n ∈ j.cores, n < 128 → (s.core n).job = job →
         (t.core n).mode = .idle ∧ (t.core n).job = 0)))

/-- TAKE_START (R302, R305): the first pending run of a job takes the free cores that R302 prefers when no take before it in the
order can start. It becomes the current run; each core holds the take, with empty queues and both engines at the start of
their streams, and keeps its scratchpad and tiles; other cores and jobs stay. An armed take is warmed (R140). A lost take
starts again as its job's next take, and a spilled one resumes: their cores restore where a live set is saved (R229, R231,
R314). Where no cores are free, the run claims some, and the takes that hold them get a yield target (R306, R313). Where it
rests on the model's choices: log 28. -/
def Obligations.TakesStartOnFreeCores : Prop :=
  (∀ (s : State) (job : BitVec 16) (j : Job) (r : Run) (rs : List Run) (cores : List Nat),
    s.job? job = some j → j.cores = [] → j.cancelling = false → j.st = .queued → j.cur = none → j.runs = r :: rs →
    s.c2Active = false →
    (∀ k ∈ s.jobs, k.id ≠ job → ∀ q, k.candidate = some q → before q (j.cls, 2, r.acc) = false) →
    s.canStart j = some cores → cores.Nodup → (∀ n ∈ cores, n < 128) →
    ∃ (t u : State) (k : Job), exec (.takeStart job) s = .next t ∧ t = (if r.armed then u.warmTake k else u) ∧
      u.job? job = some k ∧ k.cur = some (r.inTake (min 255 (r.maxTake + 1))) ∧ k.runs = rs ∧ k.cores = cores ∧
      k.takeNo = min 255 (r.maxTake + 1) ∧ k.failures = (if r.maxTake = 0 then 0 else j.failures) ∧
      k.ready = true ∧ k.released = false ∧ k.claimed = [] ∧ k.st = (if r.armed then .queued else .running) ∧
      (∀ l n, cores[l]? = some n →
        (u.core n).mode = (if r.armed then .reserved else .running) ∧ (u.core n).job = job ∧ (u.core n).lcore = l ∧
        (u.core n).takes = (s.core n).takes + 1 ∧ (u.core n).fe = Eng.reset ∧ (u.core n).xe = Eng.reset ∧
        (u.core n).tq0 = [] ∧ (u.core n).tq1 = [] ∧ (u.core n).tq2 = [] ∧ (u.core n).tq3 = [] ∧ (u.core n).xfers = [] ∧
        (u.core n).osq = [] ∧ (u.core n).dcache = s.preload j.slot.val ∧ (u.core n).status = TakeStatus.reset ∧
        (u.core n).spad = (s.core n).spad ∧ (u.core n).tiles = (s.core n).tiles ∧
        (u.core n).combineSat = (s.core n).combineSat ∧
        ((s.core n).lastImage ≠ (s.slot j.slot.val).imageId → (u.core n).icache = [])) ∧
      (∀ n, n ∉ cores → u.core n = s.core n) ∧ (∀ id, id ≠ job → u.job? id = s.job? id) ∧
      u = { s with jobs := u.jobs, cores := u.cores, clusters := u.clusters, health := u.health }) ∧
  (∀ (s : State) (job : BitVec 16) (j : Job) (r : Run) (cores : List Nat),
    s.job? job = some j → j.cores = [] → j.cancelling = false → j.cur = some r → s.c2Active = false →
    s.canStart j = some cores → cores.Nodup → (∀ n ∈ cores, n < 128) →
    (j.st = .restarting →
      (∀ k ∈ s.jobs, k.id ≠ job → ∀ q, k.candidate = some q → before q (j.cls, 0, j.id.toNat) = false) →
      ∃ (t u : State) (k : Job), exec (.takeStart job) s = .next t ∧ t = (if j.committed then u else u.warmTake k) ∧
        u.job? job = some k ∧ k.cores = cores ∧ k.takeNo = min 255 (j.takeNo + 1) ∧ k.ready = !j.committed ∧
        k.released = false ∧ k.lost = false ∧ k.resuming = true ∧ k.st = .restarting ∧
        k.cur = some (r.inTake (min 255 (j.takeNo + 1))) ∧
        (∀ l n, cores[l]? = some n → (u.core n).mode = (if j.committed then .restoring else .running) ∧
          (u.core n).job = job ∧ (u.core n).lcore = l ∧ (u.core n).takes = (s.core n).takes + 1) ∧
        (∀ n, n ∉ cores → u.core n = s.core n) ∧ (∀ id, id ≠ job → u.job? id = s.job? id)) ∧
    (j.st = .spilled →
      (∀ k ∈ s.jobs, k.id ≠ job → ∀ q, k.candidate = some q → before q (j.cls, 1, r.acc) = false) →
      ∃ (t : State) (k : Job), exec (.takeStart job) s = .next t ∧ t.job? job = some k ∧ k.cores = cores ∧
        k.takeNo = j.takeNo ∧ k.ready = false ∧ k.released = false ∧ k.st = .spilled ∧ k.cur = some r ∧
        k.spillSaves = j.spillSaves ∧
        (∀ l n, cores[l]? = some n → (t.core n).mode = .restoring ∧ (t.core n).job = job ∧ (t.core n).lcore = l ∧
          (t.core n).takes = (s.core n).takes) ∧
        (∀ n, n ∉ cores → t.core n = s.core n) ∧ (∀ id, id ≠ job → t.job? id = s.job? id))) ∧
  (∀ (s : State) (job : BitVec 16) (j : Job) (r : Run) (rs : List Run) (cores : List Nat),
    s.job? job = some j → j.cores = [] → j.cancelling = false → j.st = .queued → j.cur = none → j.runs = r :: rs →
    j.claimed = [] → s.c2Active = false → (s.jobs.map (·.id)).Nodup →
    (∀ k ∈ s.jobs, k.id ≠ job → ∀ q, k.candidate = some q → before q (j.cls, 2, r.acc) = false) →
    s.canStart j = none → s.claimCores j = some cores →
    ∃ t : State, exec (.takeStart job) s = .next t ∧ t.job? job = some { j with claimed := cores } ∧ t.cores = s.cores ∧
      (∀ v ∈ s.jobs, v.id ≠ job → t.job? v.id = some (if v.yieldTarget = none ∧ (∃ n ∈ v.cores, n ∈ cores) then
        { v with yieldTarget := some (v.cores.foldl (fun m n => max m (max (s.core n).fe.yields (s.core n).xe.yields)) 0 + 1) }
        else v)) ∧
      t = { s with jobs := t.jobs, clusters := t.clusters })

/-- FE_RELEASE and XE_START, HOLD_EXPIRE (R221, R303, R309): a take whose cores are ready and whose clusters' operating points
allow it has its FEs released, and each XE follows its FE or the end of its HOLD; an armed one becomes ARMED instead. A take
that starts here, neither resumed nor held at its slate, is counted. No engine moves in a gated cluster (R133). The first
instruction of the FE that issues, here a NOP, is the START of the run (R290), and ends the recovery of a restarted job
(R482). AUTO_REARM (R311): once a completion entry is free, it is reserved and the run joins the job's pending runs again,
armed, last in the order of acceptance. Where it rests on the model's choices: log 28. -/
def Obligations.TakesAreReleasedAndRearmed : Prop :=
  ((∀ (s : State) (job : BitVec 16) (j : Job), s.job? job = some j → j.cores ≠ [] → j.ready = true → j.released = false →
     j.cancelling = false → (∀ n ∈ j.cores, n < 128 ∧ (s.core n).mode ≠ .stopped) →
     (∀ c ∈ j.physClusters, s.opAllows c (s.imgMaxOp j.slot.val) = true) →
     ∃ (t : State) (k : Job), exec (.feRelease job) s = .next t ∧ t.job? job = some k ∧ k.cores = j.cores ∧ k.runs = j.runs ∧
       (j.isArmed = true → k = { j with st := .armed } ∧ t = { s with jobs := t.jobs }) ∧
       (j.isArmed = false →
         k = { j with st := .running, released := true, spillSaves := [], cur := j.cur.map (fun r => { r with armed := false }) } ∧
         (∀ n ∈ j.cores, t.core n = { s.core n with mode := .running, fe := { (s.core n).fe with wait := .none } }) ∧
         (∀ n, n ∉ j.cores → t.core n = s.core n) ∧
         (if j.st = .spilled ∨ j.st = .slating then t.regs = s.regs
          else t.rn pgJsc 0x110 = (s.rn pgJsc 0x110 + 1) % 2 ^ 32 ∧ OtherRegs s t [(pgJsc, 0x110)]) ∧
         t = { s with jobs := t.jobs, cores := t.cores, regs := t.regs }) ∧
       (∀ id, id ≠ job → t.job? id = s.job? id)) ∧
   (∀ (s : State) (n : Fin 128), (s.core n.val).mode = .running → s.gatedAt n.val = false →
     ((s.core n.val).xe.wait = .start → (s.core n.val).fe.wait ≠ .start →
       ∃ t, exec (.xeStart n) s = .next t ∧
         t.core n.val = { s.core n.val with xe := { (s.core n.val).xe with wait := .none } } ∧ t = { s with cores := t.cores } ∧
         (∀ m, m ≠ n.val → t.core m = s.core m)) ∧
     ((s.core n.val).xe.wait = .hold →
       ∃ t, exec (.holdExpire n) s = .next t ∧
         t.core n.val = { s.core n.val with xe := { (s.core n.val).xe with wait := .none, hold := 0 } } ∧
         t = { s with cores := t.cores } ∧ (∀ m, m ≠ n.val → t.core m = s.core m))) ∧
   (∀ (s : State) (n : Fin 128) (w : Nat) (j : Job) (r : Run), s.engReady n.val .fe = true →
     ((s.core n.val).word? .fe).map BitVec.toNat = some w → isOp 0 w = true → s.coreJob n.val = some j → j.cur = some r →
     (r.start = none ∨ j.resuming = true) →
     ∃ (t : State) (k : Job), exec (.nop n .fe) s = .next t ∧ t.job? j.id = some k ∧
       k = { j with resuming := false, cur := some { r with start := some (r.start.getD (BitVec.ofNat 40 s.tk)) } } ∧
       (t.core n.val).fe = (s.core n.val).fe.after ∧ (∀ m, m ≠ n.val → t.core m = s.core m) ∧
       (∀ id, id ≠ j.id → t.job? id = s.job? id) ∧
       (∀ t0, j.resuming = true → s.recovering = some t0 → s.c2Active = false →
         (∀ x ∈ s.jobs, x ≠ j → x.st ≠ .restarting ∧ x.resuming = false) → j.st ≠ .restarting →
         t.recovering = none ∧ t.rn pgFaults 0x11C = min ((s.uptime - t0) / 256) 0xFFFFFFFF ∧
         t.rn pgFaults 0x120 = max (min ((s.uptime - t0) / 256) 0xFFFFFFFF) (s.rn pgFaults 0x120)) ∧
       (j.resuming = false → t = { s with cores := t.cores, jobs := t.jobs })) ∧
   (∀ (s t : State) (n : Fin 128) (c : Instr) (j k : Job) (q : Run),
     c ∈ [.nop n .fe, .loop n .fe, .endl n .fe, .bar n .fe, .cuewait n .fe, .slate n .fe, .yield n .fe, .endRun n .fe, .ld n, .gather n,
       .ldp n, .srd n, .swr n, .wcnt n] → exec c s = .next t →
     (t.core n.val).fe.pc ≠ (s.core n.val).fe.pc → s.coreJob n.val = some j → j.cur ≠ none → t.job? j.id = some k → k.cur = some q →
     (t.core n.val).job = (s.core n.val).job → q.start ≠ none ∧ k.resuming = false)) ∧
  (∀ (s : State) (job : BitVec 16) (j : Job) (r : Run), s.job? job = some j → j.rearm = some r →
     1 ≤ s.cmplFree r.reel → r.reel < 32 → j.runs.length < 16 → j.st ≠ .failed → j.cancelling = false →
     ∃ (t : State) (k : Job) (q : Run), exec (.autoRearm job) s = .next t ∧ t.job? job = some k ∧ k.runs = j.runs ++ [q] ∧ k.rearm = none ∧
       k.st = (if j.st = .idle then .queued else j.st) ∧ k.cur = j.cur ∧ k.cores = j.cores ∧
       q.armed = true ∧ q.acc = s.runCount ∧ q.seq = r.seq ∧ q.reel = r.reel ∧ q.tag = r.tag ∧ q.lcnt = r.lcnt ∧
       q.cue = r.cue ∧ q.start = none ∧
       t.runCount = s.runCount + 1 ∧ (t.reel r.reel).reserved = (s.reel r.reel).reserved + 1 ∧
       (∀ m, m ≠ r.reel → t.reel m = s.reel m) ∧ (∀ id, id ≠ job → t.job? id = s.job? id) ∧
       t = { s with jobs := t.jobs, reels := t.reels, runCount := t.runCount })

/-- SPILL, SPILL_DONE and RESTORE_DONE (R231, R314, R468): when every engine of a take stands at a YIELD with empty queues, its
cores spill, and a core whose queues are not empty raises SCHEDULE_OVERRUN instead; then the live sets of every core are
saved, the cores are free and the job is SPILLED. A restore that reads its area well puts each core's saved live set back
and makes the take ready. Each of the three transfers needs a share of SLATE_CAP (R380; with none it waits, the model's
reading, log 57). Where it rests on the model's choices: log 28, 54, 57. -/
def Obligations.TakesSpillAndAreRestored : Prop :=
  (∀ (s : State) (job : BitVec 16) (j : Job), s.job? job = some j → j.cores ≠ [] →
    (∀ n ∈ j.cores, n < 128 ∧ (s.core n).mode = .running ∧ (s.core n).fe.wait.isYield = true ∧
      (s.core n).xe.wait.isYield = true ∧ s.quiet n .fe = true ∧ s.quiet n .xe = true) →
    ((∀ n ∈ j.cores, (s.core n).queuesBusy = false) →
      ∃ t, exec (.spill job) s = .next t ∧ t = { s with cores := t.cores } ∧
        (∀ n ∈ j.cores, t.core n = { s.core n with mode := .spilling }) ∧ (∀ n, n ∉ j.cores → t.core n = s.core n)) ∧
    (∀ n, n ∈ j.cores → (∀ m ∈ j.cores, m ≠ n → (s.core m).queuesBusy = false) → (s.core n).queuesBusy = true →
      ∃ t, exec (.spill job) s = .next t ∧ (t.core n).mode = .stopped ∧ (t.core n).tq0 = [] ∧ (t.core n).xfers = [] ∧
        bits (t.rn (pgTc n) 0x11C) 7 0 = 4 ∧ (∀ m, m ≠ n → t.core m = s.core m))) ∧
  (∀ (s : State) (job : BitVec 16) (j : Job), s.job? job = some j → j.cores ≠ [] → s.slateCap ≠ 0 →
    (∀ n ∈ j.cores, n < 128 ∧ (s.core n).mode = .spilling ∧ (s.core n).spadBad = [] ∧ (s.core n).job = job) →
    ∃ (t u : State) (k : Job), exec (.spillDone job) s = .next t ∧ t = u.shapeCheck job ∧ u.job? job = some k ∧ k.st = .spilled ∧
      k.cores = [] ∧ k.runs = j.runs ∧ k.spillSaves.map (·.lcore) = j.cores.map (fun n => (s.core n).lcore) ∧
      k.spillSaves.map (·.fe) = j.cores.map (fun n => (s.core n).fe) ∧
      k.spillSaves.map (·.xe) = j.cores.map (fun n => (s.core n).xe) ∧
      (∀ r, j.cur = some r → ∃ q, k.cur = some q ∧ q.preempts = r.preempts + 1) ∧
      (∀ n ∈ j.cores, (u.core n).mode = .idle ∧ (u.core n).job = 0 ∧ (u.core n).spad = (s.core n).spad) ∧
      (∀ n, n ∉ j.cores → u.core n = s.core n) ∧ (∀ id, id ≠ job → u.job? id = s.job? id)) ∧
  (∀ (s : State) (job : BitVec 16) (j : Job), s.job? job = some j → j.cores ≠ [] → j.ready = false → s.slateCap ≠ 0 →
    (∀ n ∈ j.cores, n < 128 ∧ (s.core n).mode = .restoring) → j.cores.Nodup →
    s.memCheck 19 (j.areaPart j.restoreFrom.1) (j.cores.length * s.shLiveMax j.slot.val) false = none →
    s.linesClean (j.areaPart j.restoreFrom.1) (j.cores.length * s.shLiveMax j.slot.val) = true →
    s.tagsOk (j.areaPart j.restoreFrom.1) (j.cores.length * s.shLiveMax j.slot.val) = true →
    ∃ (t u : State), exec (.restoreDone job .ok) s = .next t ∧
      (∀ l n v, j.cores[l]? = some n → j.restoreFrom.2.find? (fun v => v.lcore == l) = some v →
        (u.core n).spad = (v.spad.foldl (fun c p => c.spadWrite p.1 p.2) (s.core n)).spad ∧
        (u.core n).vr = v.vr.getD (s.core n).vr ∧ (u.core n).sr = v.sr.getD (s.core n).sr ∧
        (u.core n).sb = v.sb.getD (s.core n).sb ∧ (u.core n).status = v.status ∧ (u.core n).curSlot = v.curSlot ∧
        (u.core n).nextSlot = v.nextSlot ∧ (u.core n).busy = v.busy ∧ (u.core n).fe.pc = v.fe.pc ∧
        (u.core n).fe.loops = v.fe.loops ∧ (u.core n).xe.pc = v.xe.pc ∧ (u.core n).xe.loops = v.xe.loops ∧
        (u.core n).tiles = v.tiles.foldl (fun ts p => ts.set p.1 p.2) (s.core n).tiles) ∧
      (∀ m, m ∉ j.cores → u.core m = s.core m) ∧ u = { s with cores := u.cores, clusters := u.clusters } ∧
      t = { u.warmTake j with jobs := t.jobs } ∧
      t.jobs.map (·.ready) = (u.warmTake j).jobs.map (fun k => k.ready || k.id == job))

/-- SLATE_COMMIT (R192, R226, R292, R468): once every engine of a take stands at the same slate, the job's commit record is
written with the slate ID, the area, the take-buffer half, the new slate sequence number, the run's tag and the take's
status sums; the live sets are saved, the other half becomes the working half, and every engine goes on, the XE after its
HOLD. A new take begins: yields count from 0 (R231, R477). Where a REBIND waits, the job is then bound to the new image, and
its engines go on behind the same slate there. Where it rests on the model's choices: log 28. -/
def Obligations.SlateCommits : Prop :=
  ∀ (s : State) (job : BitVec 16) (j : Job) (id : Nat) (sl : Fin 64), s.job? job = some j → j.st = .slating → j.cores ≠ [] →
    (∀ n ∈ j.cores, n < 128 ∧ (s.core n).mode = .running ∧ (s.core n).fe.wait.slateId? = some id ∧
      (s.core n).xe.wait.slateId? = some id ∧ (s.core n).spadBad = []) →
    sl = j.rebind.getD j.slot → s.trkDue = [] → s.slateCap ≠ 0 →
    (j.rebind ≠ none → ImageInSlot s sl.val) →
    (∀ n ∈ j.cores, let m := if j.rebind = none then (s.core n).maxOp else s.imgMaxOp sl.val
      s.opAllows (clusterOf n) m = true ∧ (s.cluster (clusterOf n)).target ≤ m) →
    ∃ (t : State) (k : Job), exec (.slateCommit job) s = .next t ∧ t.job? job = some k ∧ k.committed = true ∧
      k.slateB = (j.committed && !j.slateB) ∧ k.slateId = id ∧ k.slateSeq = (j.slateSeq + 1) % 2 ^ 32 ∧ k.half = 1 - j.half ∧
      k.st = .running ∧ k.takeNo = 1 ∧ k.failures = 0 ∧ k.records = [] ∧ k.cores = j.cores ∧ k.runs = j.runs ∧
      k.sums = s.statusSums j ∧ k.saves.map (·.lcore) = j.cores.map (fun n => (s.core n).lcore) ∧ k.slot = sl ∧
      k.rebind = none ∧ k.yieldTarget = j.yieldTarget.map (fun _ => 1) ∧
      (j.rebind ≠ none → k.dUnits = j.nextD ∧ k.deadlineUs = j.nextDeadline ∧ k.retry = j.nextRetry) ∧
      (∀ r, j.cur = some r → ∃ q, k.cur = some q ∧ q.lastSlate = id ∧ q.tag = r.tag) ∧
      (j.rebind = none → s.memCheck 19 j.area 64 true = none →
        t.rawBytes j.area 36 = leBytes 2 id ++ leBytes 1 (b2n k.slateB) ++ leBytes 1 (1 - j.half) ++ leBytes 4 k.slateSeq ++
          leBytes 8 (match j.cur with | some r => r.tag | none => 0) ++ (s.statusSums j).flatMap (leBytes 4)) ∧
      (∀ n ∈ j.cores, (t.core n).mode = .running ∧ (t.core n).fe.wait = .none ∧
        (t.core n).xe.wait = (if (s.core n).xe.hold = 0 then .none else .hold) ∧
        (∀ e, ((t.core n).eng e).yields = 0 ∧ ((t.core n).eng e).pc =
          if j.rebind = none then ((s.core n).eng e).pc
          else match slateAt (s.stream sl.val e) id with | some i => i + 1 | none => ((s.core n).eng e).pc) ∧
        (j.rebind ≠ none → (t.core n).icache = [] ∧ (t.core n).lastSlot = some sl.val) ∧
        (t.core n).status.slateId = id ∧ (t.core n).spad = (s.core n).spad ∧ (t.core n).tiles = (s.core n).tiles) ∧
      (∀ n, n ∉ j.cores → t.core n = s.core n) ∧ (∀ k, k ≠ job → t.job? k = s.job? k)

/-- C1_STOP, C2_STOP and TENSOR_COMPLEX_RESET (R473 to R476, R478, R482, R592): a C1 fault stops every core of its job, whose
take is lost; a C2 fault stops every core of the tensor complex, and the faults detected until then share its recovery; the
reset empties queues, caches, tiles and arrivals and leaves the scratchpads. JOB_RESTART (R229, R319, R477, R478): once
every core of a lost take has stopped, its cores are free and its records discarded; the run is restarted, an armed take
goes back to the front of its queue, and the third attributed failure ends the job in FAILED with nothing pending. A job
whose shape no longer fits then fails (R320). Where it rests on the model's choices: log 28, 29. -/
def Obligations.StopsResetAndRestart : Prop :=
  ((∀ (s : State) (n : Fin 128) (e : FaultEv) (es : List FaultEv) (j : Job), s.faults = e :: es → e.cls = 1 →
     e.core = some n.val → s.job? e.job = some j → j.cancelling = false → j.cores ≠ [] → (∀ m ∈ j.cores, m < 128) →
     ∃ (t : State) (k : Job), exec (.c1Stop n) s = .next t ∧ t.faults = es ∧ t.job? e.job = some k ∧ k.st = .restarting ∧ k.lost = true ∧
       k.failures = (if j.lost then j.failures else j.failures + 1) ∧ k.cores = j.cores ∧ k.cur = j.cur ∧ k.runs = j.runs ∧
       t.recovering = some (match s.recovering with | some u => min u e.at_ | none => e.at_) ∧
       t.rn pgFaults 0x114 = (s.rn pgFaults 0x114 + 1) % 2 ^ 32 ∧ OtherRegs s t [(pgFaults, 0x114)] ∧
       (∀ m ∈ j.cores, (t.core m).mode = .stopped ∧ (t.core m).sets = [] ∧ (t.core m).tq0 = [] ∧ (t.core m).tq1 = [] ∧
         (t.core m).tq2 = [] ∧ (t.core m).tq3 = [] ∧ (t.core m).xfers = [] ∧ (t.core m).spad = (s.core m).spad) ∧
       (∀ m, m ∉ j.cores → t.core m = s.core m) ∧ (∀ id, id ≠ e.job → t.job? id = s.job? id) ∧
       t = { s with regs := t.regs, faults := t.faults, cores := t.cores, jobs := t.jobs, recovering := t.recovering }) ∧
   (∀ (s : State) (e : FaultEv), e ∈ s.faults → e.cls = 2 → (s.jobs.map (·.id)).Nodup →
     (∀ j ∈ s.jobs, ∀ m ∈ j.cores, m < 128) →
     ∃ t, exec .c2Stop s = .next t ∧ t.faults = [] ∧ t.c2Active = true ∧
       (∀ j ∈ s.jobs, ∀ m ∈ j.cores, (t.core m).mode = .stopped ∧ (t.core m).sets = [] ∧ (t.core m).tq0 = [] ∧
         (t.core m).xfers = [] ∧ (t.core m).spad = (s.core m).spad) ∧
       (∀ j ∈ s.jobs, j.cores ≠ [] → j.cancelling = false → ∃ k, t.job? j.id = some k ∧ k.st = .restarting ∧ k.lost = true ∧
         k.cores = j.cores) ∧
       (∀ m, m < 128 → (s.core m).daily = true → (t.core m).daily = false ∧ (t.core m).icache = []) ∧
       (∃ u, t.recovering = some u ∧ ∀ f ∈ s.faults, u ≤ f.at_) ∧
       t.rn pgFaults 0x118 = (s.rn pgFaults 0x118 + 1) % 2 ^ 32 ∧ OtherRegs s t [(pgFaults, 0x118)] ∧ t.dram = s.dram ∧
       t.clusters = s.clusters) ∧
   (∀ (s : State), s.c2Active = true →
     ∃ t, exec .tensorComplexReset s = .next t ∧ t.c2Active = false ∧
       (∀ n, n < 128 → (t.core n).tq0 = [] ∧ (t.core n).tq1 = [] ∧ (t.core n).tq2 = [] ∧ (t.core n).tq3 = [] ∧
         (t.core n).xfers = [] ∧ (t.core n).sets = [] ∧ (t.core n).osq = [] ∧ (t.core n).icache = [] ∧
         (t.core n).tiles = List.replicate 16 Tile.reset ∧ (t.core n).sb = List.replicate 32 SBEntry.reset ∧
         (t.core n).spad = (s.core n).spad ∧ (t.core n).vr = (s.core n).vr ∧ (t.core n).mode = (s.core n).mode) ∧
       (∀ c, c < 8 → (t.cluster c).mem = (s.cluster c).mem ∧ (t.cluster c).counters = (s.cluster c).counters ∧
         (∀ b ∈ (t.cluster c).barriers, b.arrived = []) ∧ (∀ g ∈ (t.cluster c).groups, g.counts = [])) ∧
       t.dram = s.dram ∧ t.jobs.map (·.id) = s.jobs.map (·.id) ∧ t.faults = s.faults)) ∧
  (∀ (s : State) (job : BitVec 16) (j : Job) (r : Run), s.job? job = some j → j.st = .restarting → s.c2Active = false →
     j.cores ≠ [] → j.cur = some r → (∀ n ∈ j.cores, n < 128 ∧ (s.core n).mode = .stopped ∧ (s.core n).job = job) →
     ∃ (t u : State) (k : Job), exec (.jobRestart job) s = .next t ∧ u.job? job = some k ∧ k.cores = [] ∧ k.records = [] ∧
       (∀ n ∈ j.cores, (u.core n).mode = .idle ∧ (u.core n).job = 0 ∧ (u.core n).spad = (s.core n).spad) ∧
       (∀ n, n ∉ j.cores → u.core n = s.core n) ∧ (∀ id, id ≠ job → u.job? id = s.job? id) ∧
       (3 ≤ j.failures → t = u ∧ k.st = .failed ∧ k.cur = none ∧ k.runs = [] ∧ bit (t.rn pgJsc 0x10) 0 = true) ∧
       (j.failures < 3 → t = u.shapeCheck job ∧
         (r.armed = true → k.cur = none ∧ k.runs = r :: j.runs ∧ k.st = .queued) ∧
         (r.armed = false → k.cur = some { r with restarts := r.restarts + 1 } ∧ k.runs = j.runs ∧ k.st = .restarting ∧
           k.spillSaves = [] ∧ u.rn pgJsc 0x114 = (s.rn pgJsc 0x114 + 1) % 2 ^ 32)))

/-- NOP, LOOP, ENDL and SETSR (R208, R216, R217): the engine goes on to the next instruction; LOOP opens the next level at index
0, or skips its body when the count is 0; ENDL goes back to the body's start with the next index until the count is reached,
and then closes the level; SETSR writes IMM, plus the index of a loop level with IDX. An instruction whose condition does
not hold only goes on. CUEWAIT, YIELD and PHASE (R223, R231, R233, R506, R515): CUEWAIT consumes the engine's fired bit of
the cue and goes on, or waits for it; YIELD counts, and stops the engine once its count reaches the take's target; PHASE of
a cluster's first core puts the phase of its tag into force there. Where it rests on the model's choices: log 33. -/
def Obligations.ControlInstructions : Prop :=
  (∀ (s : State) (n : Fin 128) (e : Engine) (w : Nat),
     (Issues s n.val e w →
       (isOp 0x00 w = true → ∃ t, exec (.nop n e) s = .next t ∧ t = { s with cores := t.cores } ∧
         NewCore s t n.val ((s.core n.val).setEng e ((s.core n.val).eng e).after)) ∧
       (isOp 0x01 w = true → ∃ t, exec (.loop n e) s = .next t ∧ t = { s with cores := t.cores } ∧
         ∀ cnt, cnt = (if bit w 42 then (s.lcnt n.val).getD (bits w 41 40) 0 else bits w 39 16) →
           NewCore s t n.val ((s.core n.val).setEng e (if cnt = 0
             then { ((s.core n.val).eng e).after with pc := ((s.core n.val).eng e).pc + 1 + bits w 15 0 }
             else { ((s.core n.val).eng e).after with
               loops := ((s.core n.val).eng e).loops ++ [⟨0, cnt, ((s.core n.val).eng e).pc + 1⟩] }))) ∧
       (isOp 0x02 w = true → ∃ t, exec (.endl n e) s = .next t ∧ t = { s with cores := t.cores } ∧
         (((s.core n.val).eng e).loops = [] → NewCore s t n.val ((s.core n.val).setEng e ((s.core n.val).eng e).after)) ∧
         ∀ ls l, ((s.core n.val).eng e).loops = ls ++ [l] →
           NewCore s t n.val ((s.core n.val).setEng e (if l.idx + 1 < l.count
             then { ((s.core n.val).eng e) with pc := l.start, loops := ls ++ [{ l with idx := l.idx + 1 }], missed := false }
             else { ((s.core n.val).eng e).after with loops := ls }))) ∧
       (isOp 0x09 w = true → e = .xe → ∃ t, exec (.setsr n) s = .next t ∧ t = { s with cores := t.cores } ∧
         NewCore s t n.val { s.core n.val with
           xe := (s.core n.val).xe.after
           sr := (s.core n.val).sr.set (bits w 52 49)
             (w32 (bits w 31 0 + (if bit w 48 then (s.core n.val).xe.idx (bits w 54 53) else 0))) })) ∧
     (s.engReady n.val e = true → ((s.core n.val).word? e).map BitVec.toNat = some w → Started s n.val e →
       condHolds ((s.core n.val).eng e) w = false →
       (isOp 0x01 w = true → ∃ t, exec (.loop n e) s = .next t ∧ t = { s with cores := t.cores } ∧
         NewCore s t n.val ((s.core n.val).setEng e ((s.core n.val).eng e).after)) ∧
       (isOp 0x03 w = true → ∃ t, exec (.bar n e) s = .next t ∧ t = { s with cores := t.cores } ∧
         NewCore s t n.val ((s.core n.val).setEng e ((s.core n.val).eng e).after)))) ∧
  (∀ (s : State) (n : Fin 128) (e : Engine) (w : Nat) (j : Job), Issues s n.val e w → s.coreJob n.val = some j →
     (isOp 0x04 w = true → ∃ (t : State) (k : Job), exec (.cuewait n e) s = .next t ∧
       t = { s with cores := t.cores, jobs := t.jobs } ∧ t.job? j.id = some k ∧
       ((bits w 52 47, engCode (s.core n.val).lcore e) ∈ j.fired →
         k = { j with fired := j.fired.filter (· ≠ (bits w 52 47, engCode (s.core n.val).lcore e)) } ∧
         NewCore s t n.val ((s.core n.val).setEng e { ((s.core n.val).eng e).after with
           hold := bits w 46 31, wait := if e = .xe ∧ bits w 46 31 ≠ 0 then .hold else .none })) ∧
       ((bits w 52 47, engCode (s.core n.val).lcore e) ∉ j.fired → k = j ∧
         NewCore s t n.val ((s.core n.val).setEng e { ((s.core n.val).eng e).after with
           hold := bits w 46 31, wait := .cue (bits w 52 47) }))) ∧
     (isOp 0x06 w = true → ∃ t, exec (.yield n e) s = .next t ∧ t = { s with cores := t.cores } ∧
       ((∀ y, j.yieldTarget = some y → ((s.core n.val).eng e).yields + 1 < y) →
         NewCore s t n.val ((s.core n.val).setEng e { ((s.core n.val).eng e).after with
           yields := ((s.core n.val).eng e).yields + 1 })) ∧
       (∀ y, j.yieldTarget = some y → y ≤ ((s.core n.val).eng e).yields + 1 →
         NewCore s t n.val ((s.core n.val).setEng e { ((s.core n.val).eng e).after with
           yields := ((s.core n.val).eng e).yields + 1, wait := .yield (bits w 52 41) (bits w 40 33), hold := bits w 32 17 }))) ∧
     (isOp 0x07 w = true → e = .xe → ∃ t, exec (.phase n) s = .next t ∧
       t = { s with cores := t.cores, clusters := t.clusters, winTab := t.winTab, winGen := t.winGen } ∧
       NewCore s t n.val { s.core n.val with xe := (s.core n.val).xe.after } ∧
       (∀ c, c ≠ clusterOf n.val → t.cluster c = s.cluster c) ∧
       (∀ i, (s.core n.val).lcore % s.shCores j.slot.val = 0 → j.phases.find? (fun p => p.1 = bits w 52 48) = some i →
         (s.cluster (clusterOf n.val)).phases.find? (fun p => p.job == j.id) = none →
         ∃ p, (t.cluster (clusterOf n.val)).phases.head? = some p ∧ p.job = j.id ∧ p.entry = i.2 ∧ p.start = s.uptime ∧
           p.act = (if s.phDur i.2 ≠ 0 ∧ s.phDur i.2 < 40 then none else some i.2))))

/-- BAR, BARRIER_ARRIVE and JOB_BARRIER_RELEASE (R222): an engine of the participants waits, then arrives once its stores are
visible or its instructions complete; when the last participant has arrived at a cluster barrier, or a job barrier is
released, every participant goes on, the XE after its HOLD, and nothing has arrived any more. An engine that is no
participant raises SCHEDULE_OVERRUN. -/
def Obligations.BarriersHoldUntilTheLastArrival : Prop :=
  ∀ (s : State) (j : Job) (bid : Nat),
    (∀ (n : Fin 128) (e : Engine) (w : Nat), Issues s n.val e w → isOp 0x03 w = true → s.coreJob n.val = some j →
      bid = bits w 51 48 →
      ∃ t, exec (.bar n e) s = .next t ∧
        (engCode (s.core n.val).lcore e ∈ s.barMask j.slot.val bid → t = { s with cores := t.cores } ∧
          NewCore s t n.val ((s.core n.val).setEng e
            { ((s.core n.val).eng e).after with wait := .barrier bid false, hold := bits w 47 32 })) ∧
        (engCode (s.core n.val).lcore e ∉ s.barMask j.slot.val bid → CoreStopped t n.val 4)) ∧
    (∀ (n : Fin 128) (e : Engine), ((s.core n.val).eng e).wait = .barrier bid false → s.coreJob n.val = some j →
      (s.core n.val).mode = .running → s.gatedAt n.val = false → s.quiet n.val e = true →
      (s.barScope j.slot.val bid = 0 → ∃ b ∈ (s.cluster (clusterOf n.val)).barriers, b.job = j.id ∧ b.bid = bid) →
      (s.barScope j.slot.val bid ≠ 0 → ∃ b ∈ j.jobBars, b.job = j.id ∧ b.bid = bid ∧ ∀ c ∈ j.jobBars, c.bid = bid → c.job = j.id) →
      ∃ t, exec (.barrierArrive n e) s = .next t ∧
        t = { s with cores := t.cores, clusters := t.clusters, jobs := t.jobs } ∧
        (¬ (s.barScope j.slot.val bid = 0 ∧ ∀ c ∈ s.barMask j.slot.val bid,
            c ∈ s.arrived n.val j bid ∨ c = engCode (s.core n.val).lcore e) →
          t.core n.val = (s.core n.val).setEng e { (s.core n.val).eng e with wait := .barrier bid true } ∧
          (∀ m, m ≠ n.val → t.core m = s.core m) ∧
          ∃ k, t.coreJob n.val = some k ∧ ∀ c, c ∈ t.arrived n.val k bid ↔
            c ∈ s.arrived n.val j bid ∨ c = engCode (s.core n.val).lcore e) ∧
        (s.barScope j.slot.val bid = 0 →
          (∀ c ∈ s.barMask j.slot.val bid, c ∈ s.arrived n.val j bid ∨ c = engCode (s.core n.val).lcore e) →
          t.arrived n.val j bid = [] ∧
          ∀ c ∈ s.barMask j.slot.val bid, ∀ m f, j.cores[c / 2]? = some m → f = (if c % 2 = 0 then Engine.fe else Engine.xe) →
            (((s.core m).eng f).wait = .barrier bid true ∨ (m = n.val ∧ f = e)) →
            ((t.core m).eng f).wait = (if f = .xe ∧ ((s.core m).eng f).hold ≠ 0 then .hold else .none))) ∧
    (∀ (job : BitVec 16) (b : Fin 16), s.job? job = some j → bid = b.val → s.barScope j.slot.val bid ≠ 0 →
      s.barMask j.slot.val bid ≠ [] → (∀ c ∈ s.barMask j.slot.val bid, c ∈ s.arrived 0 j bid) →
      ∃ t, exec (.jobBarrierRelease job b) s = .next t ∧
        t = { s with cores := t.cores, jobs := t.jobs } ∧
        ∀ c ∈ s.barMask j.slot.val bid, ∀ m f, j.cores[c / 2]? = some m → f = (if c % 2 = 0 then Engine.fe else Engine.xe) →
          ((s.core m).eng f).wait = .barrier bid true →
          ((t.core m).eng f).wait = (if f = .xe ∧ ((s.core m).eng f).hold ≠ 0 then .hold else .none))

/-- SLATE and END (R226, R230, R290): an engine whose work is finished waits at the slate or has ended, one with work
outstanding does not go on yet, and a core whose queues are not empty at either raises SCHEDULE_OVERRUN. When every engine
of the take stands at one slate the job is SLATING; when every engine has ended the run ends with its completion, its cores
free. Where it rests on the model's choices: log 28. -/
def Obligations.SlatesAndEndsGatherTheTake : Prop :=
  ∀ (s : State) (n : Fin 128) (e : Engine) (w : Nat) (j : Job), Issues s n.val e w → s.coreJob n.val = some j →
    n.val ∈ j.cores →
    (isOp 0x05 w = true → ∃ t, exec (.slate n e) s = .next t ∧
      (s.quiet n.val e = false → NewCore s t n.val (s.core n.val) ∧ t = { s with cores := t.cores }) ∧
      (s.quiet n.val e = true → (s.core n.val).queuesBusy = false →
        t = { s with cores := t.cores, jobs := t.jobs } ∧
        NewCore s t n.val ((s.core n.val).setEng e { ((s.core n.val).eng e).after with
          wait := .slate (bits w 52 41) (bits w 40 33), hold := bits w 32 17 }) ∧
        ((∀ m ∈ j.cores, ∀ f, (m = n.val ∧ f = e) ∨ ((s.core m).eng f).wait.slateId? = some (bits w 52 41)) →
          t.job? j.id = some { j with st := .slating }) ∧
        ((∃ m ∈ j.cores, ∃ f, ¬ (m = n.val ∧ f = e) ∧ ((s.core m).eng f).wait.slateId? ≠ some (bits w 52 41)) →
          t.jobs = s.jobs)) ∧
      (s.quiet n.val e = true → (s.core n.val).queuesBusy = true →
        CoreStopped t n.val 4)) ∧
    (isOp 0x08 w = true → ∃ t, exec (.endRun n e) s = .next t ∧
      (s.quiet n.val e = false → NewCore s t n.val (s.core n.val) ∧ t = { s with cores := t.cores }) ∧
      (s.quiet n.val e = true → (s.core n.val).queuesBusy = true → CoreStopped t n.val 4) ∧
      (s.quiet n.val e = true → (s.core n.val).queuesBusy = false →
        (∃ m ∈ j.cores, ∃ f, ¬ (m = n.val ∧ f = e) ∧ ((s.core m).eng f).wait ≠ .ended) →
        t = { s with cores := t.cores, clusters := t.clusters, winTab := t.winTab, winGen := t.winGen } ∧
        NewCore s t n.val ((s.core n.val).setEng e { ((s.core n.val).eng e).after with wait := .ended })) ∧
      (s.quiet n.val e = true → (s.core n.val).queuesBusy = false →
        (∀ m ∈ j.cores, ∀ f, (m = n.val ∧ f = e) ∨ ((s.core m).eng f).wait = .ended) → s.trkDue = [] → j.rebind = none →
        (∀ m ∈ j.cores, (s.core m).job = j.id) → s.job? 0 = none →
        ∀ r, j.cur = some r → r.reel < 32 → ∃ (u : State) (k : Job), t = u.shapeCheck j.id ∧ u.job? j.id = some k ∧
          k.cur = none ∧ k.cores = [] ∧ k.records = [] ∧ k.runs = j.runs ∧
          k.st = (if j.runs = [] then .idle else .queued) ∧ k.rearm = (if r.autoRearm then some r else none) ∧
          k.slateSeq = (j.slateSeq + 1) % 2 ^ 32 ∧ k.half = 1 - j.half ∧
          (u.reel r.reel).chead = ringNext (s.reelLog r.reel) (s.reel r.reel).chead ∧
          bit (u.rn pgReels 0x10) r.reel = true ∧ (∀ m ∈ j.cores, (u.core m).mode = .idle)))

/-- LD and GATHER (R123, R128, R132, R195, R205): with room in the queue and the ring's next slot free, one token is reserved,
the slot is busy, and the transfer of the box is outstanding with the requests of R195 and R196; elements outside the tensor
and index values out of range are counted. A byte without a translation raises XLATE; a full queue or a busy slot leaves the
FE waiting at the instruction. LDP (R123, R195, R210): with room in the queue and the ring's next slot free, one token for
parameters is reserved with the slot, and the transfer of the block, made from the parameter descriptor and the descriptors
it names, is outstanding; with no room the FE waits at the instruction. The block's own layout, and the output's SCALE2
where the field is unused, are the model's (log 37). Where it rests on the model's choices: log 36, 37, 38. -/
def Obligations.LoadsReserveATokenAndASlot : Prop :=
  (∀ (s : State) (n : Fin 128) (w : Nat) (j : Job), Issues s n.val .fe w → s.coreJob n.val = some j →
     (isOp 0x10 w = true → (bit w 50 = false ∨ (s.localIdx n.val j ≠ (s.mcEntry j.slot.val (bits w 49 46)).1 ∧
       s.localIdx n.val j ∉ (s.mcEntry j.slot.val (bits w 49 46)).2)) →
       (s.loadWaits n.val (bits w 52 51) = true →
         ∃ u, exec (.ld n) s = .next u ∧ u = { s with cores := u.cores } ∧ NewCore s u n.val (s.core n.val)) ∧
       (s.loadWaits n.val (bits w 52 51) = false → ∀ t rs sc v, LoadReads s n.val w j t rs sc none v →
         ∃ u, exec (.ld n) s = .next u ∧ LoadIssues s u n.val w j t rs sc none)) ∧
     (isOp 0x12 w = true →
       (s.loadWaits n.val (bits w 52 51) = true →
         ∃ u, exec (.gather n) s = .next u ∧ u = { s with cores := u.cores } ∧ NewCore s u n.val (s.core n.val)) ∧
       (s.loadWaits n.val (bits w 52 51) = false → ∀ t rs sc ix v, LoadReads s n.val w j t rs sc (some ix) v →
         ∃ u, exec (.gather n) s = .next u ∧ LoadIssues s u n.val w j t rs sc (some ix)))) ∧
  (∀ (s : State) (n : Fin 128) (w : Nat) (j : Job), Issues s n.val .fe w → s.coreJob n.val = some j → isOp 0x17 w = true →
     (s.loadWaits n.val (bits w 52 51) = true →
       ∃ u, exec (.ldp n) s = .next u ∧ u = { s with cores := u.cores } ∧ NewCore s u n.val (s.core n.val)) ∧
     (s.loadWaits n.val (bits w 52 51) = false → ∀ (rs : List MapRec) (p : ParamDescs) (v : State), ParamReads s n.val w j rs p v →
       ∀ c0 cells, c0 = (s.feOrigin n.val j rs).getD 0 0 → cells = s.paramSrc n.val j p c0 →
       ∃ u, exec (.ldp n) s = .next u ∧
         (Cell.bad ∈ cells → CoreStopped u n.val 7) ∧
         (Cell.bad ∉ cells → ∃ (x : Transfer) (s2o : Nat), XferIssues s u n.val j x (s.core n.val).status ∧
           x.q = bits w 52 51 ∧ x.isParam = true ∧ x.bytes = 512 ∧ x.plane = cells.map Cell.key? ∧
           x.lines = (lineSeq false ((cells.filterMap Cell.key?).map (8 * ·))).map (fun l => (0, l)) ∧
           (bit (fld p.so 4 4) 2 = false → s2o = fld p.so 8 4) ∧
           x.param = s.paramHead j p c0 s2o ++
             (List.range 32).flatMap (fun _ => leBytes 4 (if bit (fld p.sw 4 4) 2 then 0 else fld p.sw 8 4)) ++
             List.replicate 320 0)))

/-- Multicast loads (R254 to R256, R595): LD on the group's source and RCV or LD on a member reserve a token and slot as a load
does and wait with the number of their issue in the group; RCV elsewhere raises SCHEDULE_OVERRUN. Once every member has its
paired receive, the source's requests start and each member takes them for its own slot; a member whose box has another size
raises SCHEDULE_OVERRUN. How long the source waited is free (log 54). Where it rests on the model's choices: log 36, 54. -/
def Obligations.MulticastLoadsPair : Prop :=
  (∀ (s : State) (n : Fin 128) (w : Nat) (j : Job), Issues s n.val .fe w → s.coreJob n.val = some j →
    (isOp 0x11 w = true → s.localIdx n.val j ∉ (s.mcEntry j.slot.val (bits w 49 46)).2 →
      ∃ u, exec (.rcv n) s = .next u ∧ CoreStopped u n.val 4) ∧
    (s.loadWaits n.val (bits w 52 51) = false → ∀ t rs sc v, LoadReads s n.val w j t rs sc none v →
      (isOp 0x11 w = true → s.localIdx n.val j ∈ (s.mcEntry j.slot.val (bits w 49 46)).2 →
        ∃ u, exec (.rcv n) s = .next u ∧ GroupIssues s u n.val w j t rs sc false) ∧
      (isOp 0x10 w = true → bit w 50 = true → s.localIdx n.val j = (s.mcEntry j.slot.val (bits w 49 46)).1 →
        ∃ u, exec (.ld n) s = .next u ∧ GroupIssues s u n.val w j t rs sc true) ∧
      (isOp 0x10 w = true → bit w 50 = true → s.localIdx n.val j ≠ (s.mcEntry j.slot.val (bits w 49 46)).1 →
        s.localIdx n.val j ∈ (s.mcEntry j.slot.val (bits w 49 46)).2 →
        ∃ u, exec (.ld n) s = .next u ∧ GroupIssues s u n.val w j t rs sc false))) ∧
  (∀ (s : State) (n : Fin 128) (j : Job) (x y : Transfer) (g k : Nat),
    (s.core n.val).xfers.find? (fun x => x.source && x.waiting) = some x → s.coreJob n.val = some j →
    x.group = some (g, k) → (s.core n.val).mode = .running → s.gatedAt n.val = false →
    (∀ l ∈ (s.mcEntry j.slot.val g).2, ∃ m z, s.peer n.val j l = some m ∧ m < 128 ∧ m ≠ n.val ∧
      (s.core m).groupXfer g k = some z) →
    (∀ l ∈ x.spadLines, l ∉ (s.core n.val).spadBad) → y = x.takeSpad (s.core n.val) →
    ∃ u, exec (.mcastSourceIssue n) s = .next u ∧
      (x.lines ≠ [] → (u.core n.val).xfers =
        (s.core n.val).xfers.map (fun z => if sameXfer y z then { y with waiting := false } else z)) ∧
      (x.lines = [] → (u.core n.val).xfers = (s.core n.val).xfers.filter (fun z => !sameXfer y z)) ∧
      ((∀ l ∈ (s.mcEntry j.slot.val g).2, ∀ m z, s.peer n.val j l = some m → (s.core m).groupXfer g k = some z →
          z.extent = x.extent ∧ z.bytes = x.bytes) →
        u = { s with cores := u.cores, regs := u.regs, plicPending := u.plicPending, free := u.free }) ∧
      ∀ l ∈ (s.mcEntry j.slot.val g).2, ∀ m z, s.peer n.val j l = some m → (s.core m).groupXfer g k = some z →
        (s.core m).mode = .running →
        (z.extent = x.extent ∧ z.bytes = x.bytes → x.lines ≠ [] →
          (u.core m).groupXfer g k = some { y with q := z.q, slot := z.slot, group := z.group, waiting := false, source := false }) ∧
        (z.extent = x.extent ∧ z.bytes = x.bytes → x.lines = [] → ∀ a ∈ (u.core m).xfers, sameXfer z a = false) ∧
        (¬ (z.extent = x.extent ∧ z.bytes = x.bytes) → CoreStopped u m 4))

/-- SRD and its SHORT_RESPONSE (R134 to R136, R201, R207, R264, R377, R594): the named entry becomes invalid until the read
returns; then it is valid with the bytes read over its first ones and poisoned where a line came poisoned. MAP = 255 reads
the descriptor named, the counter window gives the counter's words, and another box its elements, those outside the tensor 0
and counted. With 8 requests out, or an earlier one for the entry (log 54), the FE waits; a response waits for the meters.
Where it rests on the model's choices: log 36. -/
def Obligations.ShortReadsFillTheirEntry : Prop :=
  (∀ (s : State) (n : Fin 128) (w : Nat) (j : Job), Issues s n.val .fe w → s.coreJob n.val = some j → isOp 0x15 w = true →
    (s.shortBusy n.val = true ∨ ((s.core n.val).sbAt (bits w 52 48)).pend ≠ .none →
      ∃ u, exec (.srd n) s = .next u ∧ u = { s with cores := u.cores } ∧ NewCore s u n.val (s.core n.val)) ∧
    (s.shortBusy n.val = false → ((s.core n.val).sbAt (bits w 52 48)).pend = .none →
      (bits w 33 26 = 255 → ∃ u, exec (.srd n) s = .next u ∧ CoreFrame s u n.val ∧
        NewCore s u n.val { (s.core n.val).askSb (bits w 52 48)
          (.read ((List.range (bits w 5 0 + 1)).map (fun i => some (s.descAddr j (bits w 45 34) + i)))) false with
            fe := (s.core n.val).fe.after }) ∧
      (bits w 33 26 ≠ 255 → ∀ (t : Tensor) (rs : List MapRec) (v : State),
        BoxReady s n.val j (bits w 45 34) (bits w 33 26) t rs v → ∃ u, exec (.srd n) s = .next u ∧
        (∀ o, windowOff t (s.feOrigin n.val j rs) = some o →
          ((s.cluster (clusterOf n.val)).counterAt j.id (o / 0x400) = none → CoreStopped u n.val 7) ∧
          ∀ i, (s.cluster (clusterOf n.val)).counterAt j.id (o / 0x400) = some i → ReadFrame s u n.val ∧
            NewCore s u n.val { (s.core n.val).askSb (bits w 52 48)
              (.words (windowBytes ((s.cluster (clusterOf n.val)).counters.getD i WorkCnt.reset) (o % 0x400) (bits w 5 0 + 1)))
                false with fe := (s.core n.val).fe.after }) ∧
        (windowOff t (s.feOrigin n.val j rs) = none → ∀ box cells,
          box = s.boxCells n.val j t false none (s.feOrigin n.val j rs) (rs.map (·.ext)) →
          cells = oneLine (firstBytes box (fmtBits t.fmt) (bits w 5 0 + 1)) →
          (Cell.bad ∈ cells → CoreStopped u n.val 7) ∧
          (Cell.bad ∉ cells → ReadFrame s u n.val ∧
            NewCore s u n.val { (s.core n.val).askSb (bits w 52 48) (.read (cells.map Cell.key?)) false with
              fe := (s.core n.val).fe.after
              status := { (s.core n.val).status with
                outOfRange := sat32 (s.core n.val).status.outOfRange
                  (if bit (fld (s.mapBytes j.slot.val (bits w 33 26)) 0 4) 0 then 0
                   else shortOutside box (fmtBits t.fmt) (bits w 5 0 + 1)) } }))))) ∧
  (∀ (s : State) (n : Fin 128) (sb : Fin 32) (resp : Resp), (s.core n.val).mode = .running →
    sb.val < (s.core n.val).sb.length →
    (∀ bs, ((s.core n.val).sbAt sb.val).pend = .words bs → ∃ u, exec (.shortResponse n sb resp) s = .next u ∧
      u = { s with cores := u.cores } ∧ (∀ m, m ≠ n.val → u.core m = s.core m) ∧
      u.core n.val = (s.core n.val).setSb sb.val { (s.core n.val).sbAt sb.val with
        valid := true, pend := .none, bytes := bs ++ ((s.core n.val).sbAt sb.val).bytes.drop bs.length }) ∧
    (∀ (src : List (Option Nat)) (ls : List Nat), ((s.core n.val).sbAt sb.val).pend = .read src →
      (∀ k, some k ∈ src → LineClean s n.val (k / 64 * 64)) →
      ls = (((src.filterMap id).map (· / 64 * 64)).eraseDups).filter (fun l => !isSpadKey l) →
      (s.passKeys n.val ls = none → exec (.shortResponse n sb resp) s = .next s) ∧
      ((s.passKeys n.val ls).isSome = true → ∃ u, exec (.shortResponse n sb resp) s = .next u ∧ ResponseFrame s u [] ∧
        (∀ m, m ≠ n.val → u.core m = s.core m) ∧
        (∃ p, u.core n.val = (s.core n.val).setSb sb.val { (s.core n.val).sbAt sb.val with
          valid := true, pend := .none, poison := p
          bytes := src.map (fun o => match o with | some k => s.keyByte n.val k | none => 0) ++
            ((s.core n.val).sbAt sb.val).bytes.drop src.length }) ∧
        (((u.core n.val).sbAt sb.val).poison.isSome = true ↔ (resp = .poisoned ∨ resp = .error) ∧ ls ≠ []))))

/-- SWR (R134, R136, R207, R264, R596): the entry's bytes go to the descriptor named (MAP = 255), to the elements of the box,
nothing else changing, or re-arm a work counter: LIMIT as written up to 4,096, value 0, no bit set, the next generation. An
entry not yet valid, or 8 requests out, leaves the FE waiting, a poisoned entry raises POISON_CONSUMED. Where it rests on
the model's choices: log 36, 51. -/
def Obligations.ShortWritesStoreTheirBytes : Prop :=
  ∀ (s : State) (n : Fin 128) (w : Nat) (j : Job), Issues s n.val .fe w → s.coreJob n.val = some j → isOp 0x16 w = true →
    (((s.core n.val).sbAt (bits w 52 48)).valid = false ∨ s.shortBusy n.val = true →
      ∃ u, exec (.swr n) s = .next u ∧ u = { s with cores := u.cores } ∧ NewCore s u n.val (s.core n.val)) ∧
    (((s.core n.val).sbAt (bits w 52 48)).valid = true → s.shortBusy n.val = false →
      (((s.core n.val).sbAt (bits w 52 48)).poison ≠ none → ∃ u, exec (.swr n) s = .next u ∧ CoreStopped u n.val 3) ∧
      (((s.core n.val).sbAt (bits w 52 48)).poison = none →
        ∀ data, data = ((s.core n.val).sbAt (bits w 52 48)).bytes.take (bits w 5 0 + 1) →
        (bits w 33 26 = 255 → s.descAddr j (bits w 45 34) + 64 ≤ 2 ^ 40 → ∃ u, exec (.swr n) s = .next u ∧
          NewCore s u n.val { s.core n.val with fe := (s.core n.val).fe.after } ∧ StoreFrame s u n.val ∧
          Stored s u n.val .fe true true (bytesAt (s.descAddr j (bits w 45 34)) data)) ∧
        (bits w 33 26 ≠ 255 → ∀ (t : Tensor) (rs : List MapRec) (v : State),
          BoxReady s n.val j (bits w 45 34) (bits w 33 26) t rs v → ∃ u, exec (.swr n) s = .next u ∧
          (∀ o, windowOff t (s.feOrigin n.val j rs) = some o →
            ((s.cluster (clusterOf n.val)).counterAt j.id (o / 0x400) = none → CoreStopped u n.val 7) ∧
            ∀ i, (s.cluster (clusterOf n.val)).counterAt j.id (o / 0x400) = some i →
              (o % 0x400 = 4 → data.length = 4 → bits w 5 0 = 3 → ReadFrame { s with clusters := u.clusters } u n.val ∧
                NewCore s u n.val { s.core n.val with fe := (s.core n.val).fe.after } ∧
                (∀ c, c ≠ clusterOf n.val → u.cluster c = s.cluster c) ∧
                u.cluster (clusterOf n.val) = { s.cluster (clusterOf n.val) with
                  counters := (s.cluster (clusterOf n.val)).counters.set i
                    { (s.cluster (clusterOf n.val)).counters.getD i WorkCnt.reset with
                      limit := min 4096 (leNat data), value := 0, done := []
                      gen := ((s.cluster (clusterOf n.val)).counters.getD i WorkCnt.reset).gen + 1 } }) ∧
              (o % 0x400 ≠ 4 ∨ bits w 5 0 ≠ 3 → ReadFrame s u n.val ∧
                NewCore s u n.val { s.core n.val with
                  fe := (s.core n.val).fe.after
                  status := { (s.core n.val).status with
                    outOfRange := sat32 (s.core n.val).status.outOfRange 1 } })) ∧
          (windowOff t (s.feOrigin n.val j rs) = none → ∀ cells wm, cells = oneLine (firstBytes (s.boxCells n.val j t true none
              (s.feOrigin n.val j rs) (rs.map (·.ext))) (fmtBits t.fmt) (bits w 5 0 + 1)) →
            wm = (List.zip cells data).foldl (fun m p => match p.1 with
              | .at b => mapPut m (b / 8) (3, p.2.toNat)
              | _ => m) ([] : WMap) →
            (Cell.bad ∈ cells → CoreStopped u n.val 7) ∧
            (Cell.bad ∉ cells → StoreFrame s u n.val ∧ Stored s u n.val .fe true true (mapGet? wm) ∧
              NewCore s u n.val { s.core n.val with
                fe := (s.core n.val).fe.after
                spad := (u.core n.val).spad, spadBad := (u.core n.val).spadBad, spadPoison := (u.core n.val).spadPoison })))))

/-- Work counters (R260 to R266): WCNT takes the next index below LIMIT, or -1, in one step of the counter, and its answer lands
valid, or raises COUNTER_PARITY with bad parity; an accepted ticketed store sets the bit of its index, and raises DUP_TILE
for another generation or a bit already set. Where it rests on the model's choices: log 36. -/
def Obligations.WorkCountersServeAndTrack : Prop :=
  (∀ (s : State) (n : Fin 128) (w : Nat) (j : Job) (i : Nat) (k : WorkCnt), Issues s n.val .fe w → s.coreJob n.val = some j →
    isOp 0x18 w = true → s.shortBusy n.val = false → ((s.core n.val).sbAt (bits w 52 48)).pend = .none →
    (s.cluster (clusterOf n.val)).counterAt j.id (bits w 47 44) = some i →
    (s.cluster (clusterOf n.val)).counters[i]? = some k →
    ∃ u, exec (.wcnt n) s = .next u ∧
      NewCore s u n.val { (s.core n.val).askSb (bits w 52 48)
        (.served (wcntWords k (if k.value < k.limit then (k.value : Int) else -1))) true with
          fe := (s.core n.val).fe.after } ∧
      (u.cluster (clusterOf n.val)).counters = (s.cluster (clusterOf n.val)).counters.set i
        (if k.value < k.limit then { k with value := k.value + 1 } else k) ∧
      (∀ c, c ≠ clusterOf n.val → u.cluster c = s.cluster c) ∧
      u = { s with cores := u.cores, clusters := u.clusters, regs := u.regs, plicPending := u.plicPending } ∧
      u.rn (pgCl (clusterOf n.val)) 0x11C = (s.rn (pgCl (clusterOf n.val)) 0x11C + 1) % 2 ^ 32) ∧
  (∀ (s : State) (n : Fin 128) (w : Nat) (j : Job), Issues s n.val .fe w → s.coreJob n.val = some j → isOp 0x18 w = true →
    (s.shortBusy n.val = true ∨ ((s.core n.val).sbAt (bits w 52 48)).pend ≠ .none →
      ∃ u, exec (.wcnt n) s = .next u ∧ u = { s with cores := u.cores } ∧ NewCore s u n.val (s.core n.val)) ∧
    (s.shortBusy n.val = false → ((s.core n.val).sbAt (bits w 52 48)).pend = .none →
      (s.cluster (clusterOf n.val)).counterAt j.id (bits w 47 44) = none →
      ∃ u, exec (.wcnt n) s = .next u ∧ CoreStopped u n.val 7)) ∧
  (∀ (s : State) (n : Fin 128) (sb : Fin 32) (bs : List Byte), (s.core n.val).mode = .running →
    ((s.core n.val).sbAt sb.val).pend = .served bs → sb.val < (s.core n.val).sb.length →
    (∃ u, exec (.wcntResponse n sb true) s = .next u ∧ u = { s with cores := u.cores } ∧
      ((u.core n.val).sbAt sb.val) = { (s.core n.val).sbAt sb.val with valid := true, pend := .none, bytes := bs } ∧
      (∀ i, i ≠ sb.val → (u.core n.val).sbAt i = (s.core n.val).sbAt i) ∧ (∀ m, m ≠ n.val → u.core m = s.core m)) ∧
    (∃ u, exec (.wcntResponse n sb false) s = .next u ∧ CoreStopped u n.val 9)) ∧
  (∀ (s : State) (n : Fin 128) (j : Job) (tk : TicketStore) (rest : List TicketStore) (i : Nat) (k : WorkCnt),
    (s.core n.val).mode = .running → (s.core n.val).tickets = tk :: rest → s.coreJob n.val = some j →
    (s.cluster (clusterOf n.val)).counterAt j.id tk.counter = some i →
    (s.cluster (clusterOf n.val)).counters[i]? = some k →
    ∃ u, exec (.ticketedStoreAccept n) s = .next u ∧
      (k.gen = tk.gen → tk.index ∉ k.done → u = { s with cores := u.cores, clusters := u.clusters } ∧
        u.core n.val = { s.core n.val with tickets := rest } ∧ (∀ m, m ≠ n.val → u.core m = s.core m) ∧
        ∃ q, (u.cluster (clusterOf n.val)).counters = (s.cluster (clusterOf n.val)).counters.set i q ∧
          q = { k with done := q.done } ∧ ∀ x, x ∈ q.done ↔ x ∈ k.done ∨ x = tk.index) ∧
      (k.gen ≠ tk.gen ∨ tk.index ∈ k.done → CoreStopped u n.val 5 ∧
        u.rn (pgCl (clusterOf n.val)) 0x118 = (s.rn (pgCl (clusterOf n.val)) 0x118 + 1) % 2 ^ 32))

/-- ST and SCATTER (R126, R128, R204 to R206, R265, R587, R596): the slot at the head of TQ3 is freed, its elements go to the
box's places inside the tensor and nothing else changes, bytes of DRAM once their controllers serve the requests; the
tickets of the entries that drove the map wait for acceptance. With TAG_MODE 0 a block partly covered raises
SCHEDULE_OVERRUN. With no slot in TQ3 the FE waits. The slot is free at once (log 51). An OS that TQ3 held back then goes
on. Where it rests on the model's choices: log 36, 51. -/
def Obligations.StoresWriteTheirBox : Prop :=
  ∀ (s : State) (n : Fin 128) (w : Nat) (j : Job), Issues s n.val .fe w → s.coreJob n.val = some j →
    (isOp 0x13 w = true →
      ((s.core n.val).tq3 = [] → ∃ u v, exec (.st n) s = .next u ∧ u = v.osPump n.val 2 ∧ ((s.core n.val).osq = [] → u = v) ∧
        v = { s with cores := v.cores } ∧ NewCore s v n.val (s.core n.val)) ∧
      (∀ sl rest t rs r, (s.core n.val).tq3 = sl :: rest → StoreReads s n.val w j t rs none r →
        ∃ u v, exec (.st n) s = .next u ∧ u = v.osPump n.val 2 ∧ ((s.core n.val).osq = [] → u = v) ∧
          StoreIssues s v n.val j sl rest t rs none)) ∧
    (isOp 0x14 w = true →
      ((s.core n.val).tq3 = [] → ∃ u v, exec (.scatter n) s = .next u ∧ u = v.osPump n.val 2 ∧ ((s.core n.val).osq = [] → u = v) ∧
        v = { s with cores := v.cores } ∧ NewCore s v n.val (s.core n.val)) ∧
      (∀ sl rest t rs ix r, (s.core n.val).tq3 = sl :: rest → StoreReads s n.val w j t rs (some ix) r →
        ∃ u v, exec (.scatter n) s = .next u ∧ u = v.osPump n.val 2 ∧ ((s.core n.val).osq = [] → u = v) ∧
          StoreIssues s v n.val j sl rest t rs (some ix)))

/-- TILE_RESPONSE and ICACHE_FILL (R123, R129, R130, R137, R138, R256, R377, R467, R469): once the meters pass it, a clean line
joins its transfer, a multicast source's also those of its members; the last one of a run whose block does not hold the tag
of its content raises CORRUPT; the last line of all writes the slot and completes the token. A poisoned line stops nothing
yet. A line of a stream enters the instruction cache when its tag holds, else PROG_TAG. Where it rests on the model's
choices: log 36, 38, 54. -/
def Obligations.ResponsesCompleteWhatTheyAnswer : Prop :=
  (∀ (s : State) (n : Fin 128) (q : Fin 3) (i : Nat) (j : Job) (x y : Transfer) (run l : Nat),
    (s.core n.val).mode = .running → s.coreJob n.val = some j →
    ((s.core n.val).inFlight.filter (fun e => e.1.q == q.val))[i]? = some (x, run, l) →
    isSpadKey l = false → LineClean s n.val l →
    y = { x with lines := x.lines.erase (run, l), got := putBytes x.got l ((List.range 64).map (fun k => s.keyByte n.val (l + k))) } →
    (∀ resp, s.passKeys n.val [l] = none → exec (.tileResponse n q i resp) s = .next s) ∧
    ((s.passKeys n.val [l]).isSome = true → x.group = none → ∃ u, exec (.tileResponse n q i .ok) s = .next u ∧
      ((y.lines.any (fun e => e.1 == run) = true ∨ x.isParam = true ∨ run ∈ x.clean ∨
          (run ∉ x.bad ∧ s.keyTagOk l = true)) →
        ResponseFrame s u [] ∧ (∀ m, m ≠ n.val → u.core m = s.core m) ∧
        (y.lines ≠ [] → u.core n.val = { s.core n.val with
          xfers := (s.core n.val).xfers.map (fun z => if sameXfer y z then y else z) }) ∧
        (y.lines = [] → DeliveredAt s u n.val { s.core n.val with
          xfers := (s.core n.val).xfers.filter (fun z => !sameXfer y z) } y (s.slotAt j.slot.val q.val x.slot))) ∧
      (y.lines.any (fun e => e.1 == run) = false → x.isParam = false → run ∉ x.clean →
        (run ∈ x.bad ∨ s.keyTagOk l = false) → CoreStopped u n.val 1)) ∧
    ((s.passKeys n.val [l]).isSome = true → x.group = none → ∃ u, exec (.tileResponse n q i .poisoned) s = .next u ∧
      (u.core n.val).mode = .running ∧
      (y.lines ≠ [] → ∃ p, u.core n.val = { s.core n.val with
        xfers := (s.core n.val).xfers.map (fun z => if sameXfer y z then
          { y with clean := insN x.clean run, poison := x.poison ++ [(l, p)] } else z) }) ∧
      (y.lines = [] → (u.core n.val).tq q.val = completeToken ((s.core n.val).tq q.val) x.slot x.rwBlk)) ∧
    (∀ g k, (s.passKeys n.val [l]).isSome = true → x.group = some (g, k) → j.cores.Nodup →
      ∃ u, exec (.tileResponse n q i .ok) s = .next u ∧
        ∀ b ∈ (s.mcEntry j.slot.val g).2, ∀ m z, s.peer n.val j b = some m → m < 128 → m ≠ n.val →
          (s.core m).groupXfer g k = some z → z.waiting = false → (z.lines.erase (run, l)).any (fun e => e.1 == run) = true →
          (u.core m).groupXfer g k = some { z with
            lines := z.lines.erase (run, l)
            got := putBytes z.got l ((List.range 64).map (fun k => s.keyByte n.val (l + k))) })) ∧
  (∀ (s : State) (n : Fin 128) (e : Engine) (j : Job) (i a : Nat), (s.core n.val).mode = .running ∨ (s.core n.val).mode = .reserved →
    s.coreJob n.val = some j → s.icWant n.val j.slot.val e = some i → a = s.icAddr j.slot.val (e == .fe) i →
    (s.passKeys n.val [a] = none → ∀ resp, exec (.icacheFill n e resp) s = .next s) ∧
    ((s.passKeys n.val [a]).isSome = true → isDramKey a = true → s.memCheck (clusterOf n.val) (lineOf a) 64 false = none →
      s.linesClean (lineOf a) 64 = true → ∃ u, exec (.icacheFill n e .ok) s = .next u ∧
      ((s.lineTag j.slot.val i (s.rawBytes a 64)).toNat = s.heldTag j.slot.val (e == .fe) i →
        ResponseFrame s u [] ∧ (u.core n.val).icache.head? = some ⟨e == .fe, i, lineWords (s.rawBytes a 64)⟩ ∧
        u.core n.val = { s.core n.val with icache := (u.core n.val).icache, icacheValid := true } ∧
        (∀ m, m ≠ n.val → u.core m = s.core m)) ∧
      ((s.lineTag j.slot.val i (s.rawBytes a 64)).toNat ≠ s.heldTag j.slot.val (e == .fe) i → CoreStopped u n.val 8)))

/-- MM and CV (R85, R98, R125, R131, R156, R157, R184, R211, R237, R271): with a free accumulator set and no output-stage pass
over its tile, a tile the core has, two complete tokens and operands that fit, the tokens are used and one set more holds,
for every row and column, the sum of the products of the converted elements at the instruction's anchor; NaN and infinite
elements are counted. Otherwise the XE waits, or ACC_RANGE or SCHEDULE_OVERRUN is raised. ARRAY_DRAIN (R86, R90, R93 to R95,
R133, R144, R166, R168, R169): the oldest set leaves the array. Where its checksums apply and a row, a column or the corner
differs beyond the tolerance, CHECKSUM_LANE; else its values replace those of its tile, or are added to them with saturation
at 56 bits, rows and columns outside its shape staying as they are (within 56 bits). How long feeders stalled is free (log
54). An OS that waited for the tile then goes on. Where it rests on the model's choices: log 36, 39, 54. -/
def Obligations.ProductsFormAndDrain : Prop :=
  (∀ (s : State) (n : Fin 128) (w : Nat) (j : Job), Issues s n.val .xe w → s.coreJob n.val = some j →
     (isOp 0x20 w = true →
       (4 ≤ (s.core n.val).sets.length ∨ (s.core n.val).osTile (bits w 44 41) = true →
         ∃ u, exec (.mm n) s = .next u ∧ u = { s with cores := u.cores } ∧ NewCore s u n.val (s.core n.val)) ∧
       ((s.core n.val).sets.length < 4 → (s.core n.val).osTile (bits w 44 41) = false →
         ∃ u, exec (.mm n) s = .next u ∧ ArrayIssues s u n.val w j false)) ∧
     (isOp 0x21 w = true →
       (4 ≤ (s.core n.val).sets.length ∨ (s.core n.val).osTile (bits w 44 41) = true →
         ∃ u, exec (.cv n) s = .next u ∧ u = { s with cores := u.cores } ∧ NewCore s u n.val (s.core n.val)) ∧
       ((s.core n.val).sets.length < 4 → (s.core n.val).osTile (bits w 44 41) = false →
         ∃ u, exec (.cv n) s = .next u ∧ ArrayIssues s u n.val w j true))) ∧
  (∀ (s : State) (n : Fin 128) (upset : Option (Fin 33 × Fin 33 × Int)) (y x : ArrSet) (rest : List ArrSet) (ok : Bool),
     (s.core n.val).mode = .running → s.gatedAt n.val = false → (s.core n.val).sets = y :: rest →
     x = (match upset with | some u => y.upset u | none => y) → ok = (!(s.core n.val).wq3 && !x.sat && !x.chkSat) →
     ∃ u v, exec (.arrayDrain n upset) s = .next u ∧ u = v.osPump n.val 2 ∧ ((s.core n.val).osq = [] → u = v) ∧
       v.rn (pgTc n.val) (if ok then 0x120 else 0x124) = (s.rn (pgTc n.val) (if ok then 0x120 else 0x124) + 1) % 2 ^ 32 ∧
       (ok = true → failing x.tol x.m x.n x.rowsOn x.vals x.rowChk x.colChk x.corner ≠ ([], [], false) →
         CoreStopped v n.val 2) ∧
       (ok = false ∨ failing x.tol x.m x.n x.rowsOn x.vals x.rowChk x.colChk x.corner = ([], [], false) →
         x.tile < (s.core n.val).tiles.length →
         v = { s with cores := v.cores, regs := v.regs, plicPending := v.plicPending, free := v.free } ∧
         OtherRegs s v [(pgTc n.val, if ok then 0x120 else 0x124), (pgTc n.val, 0x138), (pgTc n.val, 0x10), (pgTc n.val, 0x410),
           (pgTc n.val, 0x414), (pgTc n.val, 0x418), (pgTc n.val, 0x41C)] ∧
         (∀ m, m ≠ n.val → v.core m = s.core m) ∧
         v.core n.val = { s.core n.val with tiles := (v.core n.val).tiles, sets := rest } ∧
         (∀ t, t ≠ x.tile → (v.core n.val).tile t = (s.core n.val).tile t) ∧
         (x.acc = false → ((v.core n.val).tile x.tile).valid = ok) ∧
         ∀ i q, i < 32 → q < 32 → ((v.core n.val).tile x.tile).at_ i q =
           (if i < x.m ∧ q < x.n then
             (if x.acc then clampI accMin accMax (((s.core n.val).tile x.tile).at_ i q + x.vals.getD (x.n * i + q) 0)
               else x.vals.getD (x.n * i + q) 0)
           else if x.acc then clampI accMin accMax (((s.core n.val).tile x.tile).at_ i q) else ((s.core n.val).tile x.tile).at_ i q)))

/-- OS (R88, R117 to R121, R127, R131, R171 to R178, R183, R210, R212): with its tile readable, a complete parameter token and a
free result slot, the token is used, the next result slot is claimed, becomes current and receives the result of the passes
over the tile, with TOK it is posted to TQ3, and its statistics record and the plane's bytes leave for memory. With its tile
not yet readable the output stage holds it, one behind the one it runs, and the XE goes on. A tile the core lacks raises
ACC_RANGE, a token that is no parameter block SCHEDULE_OVERRUN, a tile that fails its check CHECKSUM_LANE. Where it rests on
the model's choices: log 37, 51, 54. -/
def Obligations.OutputStageWritesTheResultSlot : Prop :=
  ∀ (s : State) (n : Fin 128) (w : Nat) (j : Job), Issues s n.val .xe w → s.coreJob n.val = some j → isOp 0x22 w = true →
    (s.accTiles n.val ≤ bits w 52 49 → ∃ u, exec (.os n) s = .next u ∧ CoreStopped u n.val 6) ∧
    (bits w 52 49 < s.accTiles n.val →
      (2 ≤ (s.core n.val).osq.length ∨ (osClaims w = true ∧
          ((s.core n.val).slotBusy 3 ((s.core n.val).nextOf 3) = true ∨ (bit w 20 = true ∧ 16 ≤ (s.core n.val).tq3.length))) →
        ∃ u, exec (.os n) s = .next u ∧ u = { s with cores := u.cores } ∧ NewCore s u n.val (s.core n.val)) ∧
      ((s.core n.val).osq.length < 2 → (osClaims w = true →
          (s.core n.val).slotBusy 3 ((s.core n.val).nextOf 3) = false ∧ (bit w 20 = true → (s.core n.val).tq3.length < 16)) →
        ∀ (tok : Token), ((s.core n.val).tq (bits w 48 47)).head? = some tok → tok.complete = true →
        ∃ u, exec (.os n) s = .next u ∧
          (tok.isParam = false → CoreStopped u n.val 4) ∧
          (tok.isParam = true → (s.core n.val).spadChk (s.slotAt j.slot.val (bits w 48 47) tok.slot) 512 = .ok →
            ∀ b p c, b = (s.core n.val).spadBytes (s.slotAt j.slot.val (bits w 48 47) tok.slot) 512 → p = paramOf b →
            c = osAccepted (s.core n.val) w (s.ring j.slot.val 3).2.2 →
            (bit w 39 = true → 32767 < p.chan + 31 → CoreStopped u n.val 4) ∧
            (¬ (bit w 39 = true ∧ 32767 < p.chan + 31) →
              ((s.core n.val).osq ≠ [] ∨ (s.core n.val).tileBusy (bits w 52 49) = true →
                u = { s with cores := u.cores } ∧
                NewCore s u n.val { c with xe := c.xe.after, osq := (s.core n.val).osq ++ [osEntry (s.core n.val) w b] }) ∧
              ((s.core n.val).osq = [] → (s.core n.val).tileBusy (bits w 52 49) = false →
                ∀ x e, x = (s.core n.val).tile (bits w 52 49) → e = osEntry (s.core n.val) w b →
                (p.zp = true → (p.zW.take x.n).any (· ≠ 0) = true → x.noSide = true ∨ x.rowSums = none → CoreStopped u n.val 4) ∧
                (¬ (p.zp = true ∧ (p.zW.take x.n).any (· ≠ 0) = true ∧ (x.noSide = true ∨ x.rowSums = none)) →
                  (¬ TileReads (s.core n.val) (bits w 52 49) → CoreStopped u n.val 2) ∧
                  (TileReads (s.core n.val) (bits w 52 49) →
                    ∀ r1 rho r inv tb st data rec pl, tb = (s.core n.val).tables.getD (bits w 41 40) ActTable.reset →
                    (r1, rho, r, inv) = osPasses p x e.kt (bits w 44 42) tb →
                    st = (if bit w 39 then argmaxRun (if bit w 38 then (s.core n.val).argmax else List.replicate 32 none) p.chan r.y4
                      else (s.core n.val).argmax) →
                    data = osData p x w tb r inv rho st → rec = statsRecord r x rho (rho ≠ 0) (!x.valid || (s.core n.val).wq3) →
                    pl = (if bits p.ctl 1 0 = 1 ∧ bit w 39 = false then
                      List.replicate x.m (BitVec.ofNat 8 ((p.beO : Int) + rho).toNat) else []) →
                    (s.vaTo j (p.stats + 16 * e.idx) 16 true = none → CoreStopped u n.val 7) ∧
                    (∀ a b, s.vaTo j (p.stats + 16 * e.idx) 16 true = some a → a + 16 ≤ 2 ^ 40 →
                      (bits p.ctl 1 0 = 1 → bit w 39 = false →
                        s.vaTo j (p.plane + 32 * e.idx) pl.length true = some b ∧ b + pl.length ≤ 2 ^ 40) →
                      Sends s u n.val .xe false true (fun k => (bytesAt a rec k).or (bytesAt b pl k)) ∧ u.dram = s.dram ∧
                      u.clusters = s.clusters ∧ u.jobs = s.jobs ∧
                      u.rn (pgTc n.val) 0x128 = (s.rn (pgTc n.val) 0x128 + (if p.retry then r1.sat + r.sat else r1.sat)) % 2 ^ 32 ∧
                      u.rn (pgTc n.val) 0x12C = (s.rn (pgTc n.val) 0x12C + (if p.retry then r1.ufl + r.ufl else r1.ufl)) % 2 ^ 32 ∧
                      NewCore s u n.val { c.addFp r.fp.1 r.fp.2 with
                        xe := c.xe.after
                        argmax := st
                        tq3 := if osClaims w && bit w 20 then (s.core n.val).tq3 ++ [(s.core n.val).nextOf 3] else (s.core n.val).tq3
                        spad := (u.core n.val).spad, spadBad := (u.core n.val).spadBad
                        spadPoison := (u.core n.val).spadPoison } ∧
                      (osClaims w = false → (u.core n.val).spad = (s.core n.val).spad) ∧
                      (osClaims w = true → ∀ o, o = s.slotAt j.slot.val 3 ((s.core n.val).nextOf 3) →
                        (u.core n.val).spadBytes o data.length = data ∧
                        ∀ k, k < o ∨ o + data.length ≤ k →
                          mapGet (u.core n.val).spad k 0 = mapGet (s.core n.val).spad k 0)))))))))

/-- VOP (R111 to R116, R213, R214): the result of the function on VA, the shared operand, VB and VD goes to VD, NaN and overflow
occurrences and the saturation of paired sums are counted, and nothing else of the core changes; VLUT looks its lanes up in
the table named; VQNT leaves the stored bits of the format in the low bits of each lane, the bits above being free (DESIGN
CHOICE: the spec does not state them; log entry 4). Lanes of bitwise and INT32 vector operations (R111, R113, R214): for
every lane of well-formed vector registers, what VD holds after it: bitwise functions and moves of any TYPE; with TYPE 1
sums, differences and products modulo 2^32 or saturated, signed minimum and maximum, comparison masks, and shifts by six
bits; selection by a lane's mask. Where it rests on the model's choices: log 4, 39. -/
def Obligations.VectorOperations : Prop :=
  (∀ (s : State) (n : Fin 128) (w : Nat) (sh : List Word) (arg : VArg), Issues s n.val .xe w → isOp 0x23 w = true →
     Shared (s.core n.val) w sh →
     arg = ⟨(s.core n.val).vrAt (bits w 39 35), (s.core n.val).vrAt (bits w 34 30), (s.core n.val).vrAt (bits w 44 40), sh,
       bits w 18 17, bit w 16, bits w 22 19⟩ →
     (∀ (fn : Nat) (i : Instr) (f : VArg → VRes),
       (fn, i, f) ∈ ([(0x00, .vmov n, vmovFn), (0x01, .vadd n, vaddFn), (0x02, .vsub n, vsubFn), (0x03, .vmul n, vmulFn),
         (0x04, .vfma n, vfmaFn), (0x05, .vmax n, vmaxFn), (0x06, .vmin n, vminFn), (0x07, .vand n, vandFn),
         (0x08, .vor n, vorFn), (0x09, .vxor n, vxorFn), (0x0A, .vshl n, vshlFn), (0x0B, .vshr n, vshrFn),
         (0x0C, .vcmplt n, vcmpltFn), (0x0D, .vsel n, vselFn), (0x0E, .vcvt n, vcvtFn), (0x11, .vredadd n, vredaddFn),
         (0x12, .vredmax n, vredmaxFn), (0x13, .vadd64 n, vadd64Fn), (0x14, .vsub64 n, vsub64Fn)] :
           List (Nat × Instr × (VArg → VRes))) →
       bits w 52 45 = fn →
       ∃ u, exec i s = .next u ∧ CoreFrame s u n.val ∧
         NewCore s u n.val { (s.core n.val).setVr (bits w 44 40) (f arg).vd with
           xe := (s.core n.val).xe.after
           combineSat := (s.core n.val).combineSat || (f arg).comb
           status := { (s.core n.val).status with
             fpInvalid := sat32 (s.core n.val).status.fpInvalid (f arg).inv
             fpOverflow := sat32 (s.core n.val).status.fpOverflow (f arg).ovf } }) ∧
     (bits w 52 45 = 0x10 → ∀ ls, ls = arg.va.map (fun a =>
         tableLookup ((s.core n.val).tables.getD (bits w 22 19 % 4) ActTable.reset) a (0, 0)) →
       ∃ u, exec (.vlut n) s = .next u ∧ CoreFrame s u n.val ∧
         NewCore s u n.val { (s.core n.val).setVr (bits w 44 40) (ls.map (·.1)) with
           xe := (s.core n.val).xe.after
           status := { (s.core n.val).status with
             fpInvalid := sat32 (s.core n.val).status.fpInvalid ((ls.map (·.2.1)).foldl (· + ·) 0)
             fpOverflow := sat32 (s.core n.val).status.fpOverflow ((ls.map (·.2.2)).foldl (· + ·) 0) } }) ∧
     (bits w 52 45 = 0x0F → ∃ u, exec (.vqnt n) s = .next u ∧ CoreFrame { s with free := u.free } u n.val ∧
       ∃ vd, NewCore s u n.val { (s.core n.val).setVr (bits w 44 40) vd with
           xe := (s.core n.val).xe.after
           status := { (s.core n.val).status with
             fpInvalid := sat32 (s.core n.val).status.fpInvalid 0, fpOverflow := sat32 (s.core n.val).status.fpOverflow 0 } } ∧
         vd.length = arg.va.length ∧
         ∀ (l : Nat) (a : Word), arg.va[l]? = some a → ∃ x, vd[l]? = some x ∧
           x.toNat % 2 ^ fmtBits (bits w 22 19) = (quantise (bits w 22 19) 0 a a).bits % 2 ^ fmtBits (bits w 22 19))) ∧
  (∀ (s : State) (n : Fin 128) (w : Nat) (sh : List Word) (l : Nat) (a b c d : Word), Issues s n.val .xe w → isOp 0x23 w = true →
     Shared (s.core n.val) w sh → (s.core n.val).vr.length = 32 → (∀ v ∈ (s.core n.val).vr, v.length = 32) → l < 32 →
     a = ((s.core n.val).vrAt (bits w 39 35)).getD l 0 → b = sh.getD l 0 → c = ((s.core n.val).vrAt (bits w 34 30)).getD l 0 →
     d = ((s.core n.val).vrAt (bits w 44 40)).getD l 0 →
     ∀ (fn : Nat) (i : Instr) (r : Word), bits w 52 45 = fn →
       ((fn, i, r) ∈ ([(0x00, .vmov n, b), (0x07, .vand n, a &&& b), (0x08, .vor n, a ||| b), (0x09, .vxor n, a ^^^ b),
           (0x0D, .vsel n, if a = 0 then d else c)] : List (Nat × Instr × Word)) ∨
         bits w 18 17 = 1 ∧ (fn, i, r) ∈ ([(0x05, .vmax n, if a.slt b then b else a), (0x06, .vmin n, if b.slt a then b else a),
           (0x0C, .vcmplt n, if a.slt b then 0xFFFFFFFF else 0),
           (0x0B, .vshr n, a.sshiftRight (b.toNat % 64))] : List (Nat × Instr × Word)) ∨
         bits w 18 17 = 1 ∧ bit w 16 = false ∧ (fn, i, r) ∈ ([(0x01, .vadd n, a + b), (0x02, .vsub n, a - b),
           (0x03, .vmul n, a * b), (0x04, .vfma n, a * b + d), (0x0A, .vshl n, a <<< (b.toNat % 64))] : List (Nat × Instr × Word)) ∨
         bits w 18 17 = 1 ∧ bit w 16 = true ∧ (fn, i, r) ∈ ([
           (0x01, .vadd n, BitVec.ofInt 32 (max (-2147483648) (min 2147483647 (a.toInt + b.toInt)))),
           (0x02, .vsub n, BitVec.ofInt 32 (max (-2147483648) (min 2147483647 (a.toInt - b.toInt)))),
           (0x03, .vmul n, BitVec.ofInt 32 (max (-2147483648) (min 2147483647 (a.toInt * b.toInt))))] :
             List (Nat × Instr × Word))) →
       ∃ u, exec i s = .next u ∧ ((u.core n.val).vrAt (bits w 44 40)).getD l 0 = r ∧
         (∀ v, v % 32 ≠ bits w 44 40 % 32 → (u.core n.val).vrAt v = (s.core n.val).vrAt v))

/-- VLD, VST, TLD (R115, R118, R186, R209, R212, R249): VLD brings 128 bytes of the slot's data into a vector register, TLD an
activation table of 257 entries once no OS is waiting, each using its token; VST writes a vector register into the current
result slot, which CLAIM moves on to the next one, and TOK posts it. VACC_READ and VACC_WRITE (R96, R97, R184, R245 to
R247): a tile the core has that no earlier instruction still writes gives its row's 32 values, sign-extended, to VR[v] and
VR[v+2] and its flag word to VR[v+1] and VR[v+3]; a written row takes 32 values, which invalidates the checksums, or, as the
last row of a whole-tile write, makes them anew. Where it rests on the model's choices: log 36, 37, 38, 39. -/
def Obligations.VectorLoadsStoresAndRows : Prop :=
  (∀ (s : State) (n : Fin 128) (w : Nat) (j : Job) (tok : Token) (a : Nat), Issues s n.val .xe w → s.coreJob n.val = some j →
     (isOp 0x24 w = true → ((s.core n.val).tq (bits w 52 51)).head? = some tok → tok.complete = true →
       a = s.slotAt j.slot.val (bits w 52 51) tok.slot + 64 + 128 * bits w 43 30 → a + 128 ≤ 786432 →
       (s.core n.val).spadChk a 128 = .ok →
       ∃ u, exec (.vld n) s = .next u ∧ CoreFrame s u n.val ∧ NewCore s u n.val
         { (tokenUsed (s.core n.val) (bits w 52 51) (bit w 50) (bit w 49)).setVr (bits w 48 44)
             ((List.range 32).map (fun i => w32 (leNat ((List.range 4).map (fun k => mapGet (s.core n.val).spad (a + 4 * i + k) 0)))))
           with xe := (s.core n.val).xe.after }) ∧
     (isOp 0x28 w = true → (s.core n.val).osq ≠ [] →
       ∃ u, exec (.tld n) s = .next u ∧ u = { s with cores := u.cores } ∧ NewCore s u n.val (s.core n.val)) ∧
     (isOp 0x24 w = true ∨ isOp 0x28 w = true → (s.core n.val).osq = [] → (s.core n.val).tq (bits w 52 51) = [] →
       (isOp 0x24 w = true → ∃ u, exec (.vld n) s = .next u ∧ CoreStopped u n.val 4) ∧
       (isOp 0x28 w = true → ∃ u, exec (.tld n) s = .next u ∧ CoreStopped u n.val 4)) ∧
     (isOp 0x25 w = true → bit w 21 = false → (s.core n.val).curSlot = none → (bit w 20 = true → (s.core n.val).tq3.length < 16) →
       ∃ u, exec (.vst n) s = .next u ∧ CoreStopped u n.val 4) ∧
     (isOp 0x28 w = true → (s.core n.val).osq = [] → ((s.core n.val).tq (bits w 52 51)).head? = some tok → tok.complete = true →
       a = s.slotAt j.slot.val (bits w 52 51) tok.slot + 64 → (s.core n.val).spadChk a 1036 = .ok →
       ∃ u tb, exec (.tld n) s = .next u ∧ CoreFrame s u n.val ∧ NewCore s u n.val
         { tokenUsed (s.core n.val) (bits w 52 51) (bit w 50) (bit w 49) with
             xe := (s.core n.val).xe.after, tables := (s.core n.val).tables.set (bits w 48 47) tb } ∧
         tb.t.length = 257 ∧
         (∀ i, i < 257 → tb.t[i]? = some (w32 (leNat ((s.core n.val).spadBytes (a + 4 * i) 4)))) ∧
         tb.x0 = w32 (leNat ((s.core n.val).spadBytes (a + 1028) 4)) ∧
         tb.invStep = w32 (leNat ((s.core n.val).spadBytes (a + 1032) 4))) ∧
     (isOp 0x25 w = true → ∀ sl, (if bit w 21 then some ((s.core n.val).nextOf 3) else (s.core n.val).curSlot) = some sl →
       (bit w 21 = true → (s.core n.val).slotBusy 3 sl = false) → (bit w 20 = true → (s.core n.val).tq3.length < 16) →
       a = s.slotAt j.slot.val 3 sl + 128 * bits w 43 30 → a + 128 ≤ 786432 → ((s.core n.val).vrAt (bits w 48 44)).length = 32 →
       ∃ u, exec (.vst n) s = .next u ∧ CoreFrame s u n.val ∧ (u.core n.val).xe = (s.core n.val).xe.after ∧
         (u.core n.val).curSlot = some sl ∧
         (u.core n.val).tq3 = (if bit w 20 then (s.core n.val).tq3 ++ [sl] else (s.core n.val).tq3) ∧
         (u.core n.val).busy = (if bit w 21 then (s.core n.val).busy ++ [(3, sl)] else (s.core n.val).busy) ∧
         (u.core n.val).vr = (s.core n.val).vr ∧ (u.core n.val).tiles = (s.core n.val).tiles ∧
         (∀ x, x < a ∨ a + 128 ≤ x → mapGet (u.core n.val).spad x 0 = mapGet (s.core n.val).spad x 0) ∧
         (u.core n.val).spadBytes a 128 = ((s.core n.val).vrAt (bits w 48 44)).flatMap (fun x => leBytes 4 x.toNat))) ∧
  (∀ (s : State) (n : Fin 128) (w : Nat) (t r v : Nat) (x : Tile), Issues s n.val .xe w → isOp 0x26 w = true →
     t = bits w 51 48 → r = bits w 47 43 → v = bits w 42 38 → x = (s.core n.val).tile t →
     (bit w 52 = false →
       (s.accTiles n.val ≤ t → ∃ u, exec (.vaccRead n) s = .next u ∧ CoreStopped u n.val 6) ∧
       (t < s.accTiles n.val → (s.core n.val).tileBusy t = true →
         ∃ u, exec (.vaccRead n) s = .next u ∧ NewCore s u n.val (s.core n.val) ∧ u = { s with cores := u.cores }) ∧
       (t < s.accTiles n.val → (s.core n.val).tileBusy t = false → (s.core n.val).vr.length = 32 →
         (∀ q ∈ (s.core n.val).vr, q.length = 32) → TileReads (s.core n.val) t → v < 29 →
         ∃ u, exec (.vaccRead n) s = .next u ∧ (∀ m, m ≠ n.val → u.core m = s.core m) ∧
           u = { s with cores := u.cores, regs := u.regs, plicPending := u.plicPending } ∧
           (u.core n.val).xe = (s.core n.val).xe.after ∧ (u.core n.val).tiles = (s.core n.val).tiles ∧
           (∀ q, q < 32 → q < v ∨ v + 4 ≤ q → (u.core n.val).vrAt q = (s.core n.val).vrAt q) ∧
           (u.core n.val).vrAt (v + 1) = unpairs (List.replicate 16 ((x.flagWord : Nat) : Int)) ∧
           (u.core n.val).vrAt (v + 3) = (u.core n.val).vrAt (v + 1) ∧
           (∀ q, q < 16 →
             (pairs ((u.core n.val).vrAt v)).getD q 0 = sext 64 (wrapTo 64 (x.at_ r q)) ∧
             (pairs ((u.core n.val).vrAt (v + 2))).getD q 0 = sext 64 (wrapTo 64 (x.at_ r (16 + q)))))) ∧
     (bit w 52 = true →
       (s.accTiles n.val ≤ t → ∃ u, exec (.vaccWrite n) s = .next u ∧ CoreStopped u n.val 6) ∧
       (t < s.accTiles n.val → (s.core n.val).tileBusy t = true ∨ (s.core n.val).osTile t = true →
         ∃ u, exec (.vaccWrite n) s = .next u ∧ NewCore s u n.val (s.core n.val) ∧ u = { s with cores := u.cores }) ∧
       (t < s.accTiles n.val → (s.core n.val).tileBusy t = false → (s.core n.val).osTile t = false → (s.core n.val).vr.length = 32 →
         (∀ q ∈ (s.core n.val).vr, q.length = 32) → t < (s.core n.val).tiles.length →
         ∃ u, exec (.vaccWrite n) s = .next u ∧ (∀ m, m ≠ n.val → u.core m = s.core m) ∧
           (u.core n.val).xe = (s.core n.val).xe.after ∧ (u.core n.val).vr = (s.core n.val).vr ∧
           (∀ k, k ≠ t → (u.core n.val).tile k = (s.core n.val).tile k) ∧
           (∀ i q, i < 32 → q < 32 → i ≠ r → ((u.core n.val).tile t).at_ i q = x.at_ i q) ∧
           (∀ q y, q < 32 → y = (pairs ((s.core n.val).vrAt v) ++ pairs ((s.core n.val).vrAt (v + 2))).getD q 0 →
             accMin ≤ y → y ≤ accMax → ((u.core n.val).tile t).at_ r q = y) ∧
           (bit w 37 = false ∨ r ≠ 31 → ((u.core n.val).tile t).valid = false) ∧
           (bit w 37 = true → r = 31 → ((u.core n.val).tile t).valid = !((u.core n.val).tile t).sat))))

/-- SUPD (R112, R134, R179 to R181, R215, R377): the slot's records are summed, the scale descriptor's new SCALE2, MAX_ABS and
frame count leave for its working copy, and a frame that breaks a threshold leaves one SCALE_EXCURSION record with the job.
With the short path full, or a meter without a credit, the XE waits. -/
def Obligations.ScaleUpdateRewritesTheDescriptor : Prop :=
  ∀ (s : State) (n : Fin 128) (w : Nat) (j : Job) (tok : Token) (a : Nat) (d d' recs : List Byte) (f : FrameSum) (cause : Nat),
    Issues s n.val .xe w → s.coreJob n.val = some j → isOp 0x27 w = true →
    ((s.core n.val).tq (bits w 52 51)).head? = some tok → tok.complete = true →
    (s.core n.val).spadChk (s.slotAt j.slot.val (bits w 52 51) tok.slot + 64) (16 * bits w 33 24) = .ok →
    recs = (s.core n.val).spadBytes (s.slotAt j.slot.val (bits w 52 51) tok.slot + 64) (16 * bits w 33 24) →
    a = s.descAddr j (bits w 45 34) → d = s.rawBytes a 64 →
    f = frameSum ((List.range (bits w 33 24)).map (fun i => (recs.drop (16 * i)).take 16)) →
    d' = scaleUpdated d f (s.outFmt j.slot.val (bits w 45 34)) → cause = excCause f (bits (fld d 4 4) 23 19) →
    (s.shortBusy n.val = true ∨ s.passKeys n.val [lineOf a] = none →
      ∃ u, exec (.supd n) s = .next u ∧ u = { s with cores := u.cores } ∧ NewCore s u n.val (s.core n.val)) ∧
    (s.shortBusy n.val = false → (s.passKeys n.val [lineOf a]).isSome = true → a + 64 ≤ 2 ^ 40 → LineClean s n.val a →
      ∃ (u : State), exec (.supd n) s = .next u ∧
        NewCore s u n.val { (tokenUsed (s.core n.val) (bits w 52 51) (bit w 50) (bit w 49)).addFp
            (newScale d f (s.outFmt j.slot.val (bits w 45 34))).2.1 (newScale d f (s.outFmt j.slot.val (bits w 45 34))).2.2 with
          xe := (s.core n.val).xe.after } ∧
        Sends s u n.val .xe true true (bytesAt a (d'.take 48)) ∧ u.dram = s.dram ∧ u.clusters = s.clusters ∧
        u.job? j.id = some { j with records := if cause = 0 then j.records
          else j.records ++ [excursionRecord cause (bits w 45 34) j.id (fld d' 18 2) s.tk f] } ∧
        (∀ id, id ≠ j.id → u.job? id = s.job? id))

/-- OP_SWITCH, OP_CHANGE_END, DROOP_DETECT, DROOP_RECOVER (R503, R518): the clock goes to the change's point, the idle PLL then
holds the point left if that is the new fallback point; at the change's end it is locked at the fallback point and a
decision that waited starts a change; a droop stretches the clock once, counted, until it recovers with its stretched
cycles. GAFFER_UPDATE, GATING_SLOT, BAR_WAIT_WINDOW and CALIBRATION_UPDATE (R505, R507, R509, R513, R516, R517, R525): at an
update the SET_CAPs that waited complete and the last one's cap is in force, PROCHOT is lifted once released, and without
FIXED no cluster's target lies above its ceiling; each 1 µs slot gates a cluster beyond its duty unless all its cores hold
armed takes; wait shares are percentages; a measured group's gain moves by an eighth towards measured over estimated power,
from 0.5 to 2. Where it rests on the model's choices: log 30, 52, 55. -/
def Obligations.ClocksAndTheGaffer : Prop :=
  (∀ (s : State) (c : Fin 8),
     (∀ d, (s.cluster c.val).change = some ⟨d, false⟩ → ∃ t, exec (.opSwitch c) s = .next t ∧
       t.cluster c.val = { s.cluster c.val with
         op := d, change := some ⟨d, true⟩, quiet := false
         idleLock := if (s.cluster c.val).op = fallback d then some (s.cluster c.val).op else none } ∧
       t.rn (pgCl c.val) 0x198 = (s.rn (pgCl c.val) 0x198 + 1) % 2 ^ 32 ∧ OtherRegs s t [(pgCl c.val, 0x198)] ∧
       (∀ x, x ≠ c.val → t.cluster x = s.cluster x) ∧ t = { s with clusters := t.clusters, regs := t.regs }) ∧
     (∀ d, (s.cluster c.val).change = some ⟨d, true⟩ → ∃ t, exec (.opChangeEnd c) s = .next t ∧
       (t.cluster c.val).op = (s.cluster c.val).op ∧ (t.cluster c.val).target = (s.cluster c.val).target ∧
       ((s.cluster c.val).target = (s.cluster c.val).op → (t.cluster c.val).change = none ∧
         (t.cluster c.val).idleLock = some (fallback (s.cluster c.val).op)) ∧
       ((s.cluster c.val).target ≠ (s.cluster c.val).op →
         (t.cluster c.val).change = some ⟨(s.cluster c.val).target, false⟩) ∧
       (∀ x, x ≠ c.val → t.cluster x = s.cluster x) ∧ t = { s with clusters := t.clusters }) ∧
     ((s.cluster c.val).stretched = false → ∃ t, exec (.droopDetect c) s = .next t ∧
       t.cluster c.val = { s.cluster c.val with stretched := true, quiet := false } ∧
       t.rn (pgCl c.val) 0x18C = (s.rn (pgCl c.val) 0x18C + 1) % 2 ^ 32 ∧ OtherRegs s t [(pgCl c.val, 0x18C)] ∧
       (∀ x, x ≠ c.val → t.cluster x = s.cluster x) ∧ t = { s with clusters := t.clusters, regs := t.regs }) ∧
     (∀ n, (s.cluster c.val).stretched = true → ∃ t, exec (.droopRecover c n) s = .next t ∧
       t.cluster c.val = { s.cluster c.val with stretched := false, quiet := false } ∧
       t.rn (pgCl c.val) 0x190 = (s.rn (pgCl c.val) 0x190 + n) % 2 ^ 32 ∧ OtherRegs s t [(pgCl c.val, 0x190)] ∧
       (∀ x, x ≠ c.val → t.cluster x = s.cluster x) ∧ t = { s with clusters := t.clusters, regs := t.regs })) ∧
  ((∀ (s : State), ∃ t, exec .gafferUpdate s = .next t ∧ t.power.capPending = [] ∧
     (s.power.prochotEnd = true → t.power.prochot = false ∧ t.power.prochotEnd = false) ∧
     (∀ ps p, s.power.capPending = ps ++ [p] → t.rn pgGaffer 0x104 = p.2.2.2 % 2 ^ 32) ∧
     (∀ p ∈ s.power.capPending, p.1 < 32 → (t.reel p.1).busy = false) ∧
     (s.fixed = false → ∀ c, c < 8 → (t.cluster c).target ≤ (t.cluster c).ceiling) ∧
     t.rn pgGaffer 0x144 = (t.power.est.foldl (· + ·) 0) % 2 ^ 32 ∧ t.cores = s.cores ∧
     t.jobs.map (fun j => (j.id, j.st, j.cores, j.runs)) = s.jobs.map (fun j => (j.id, j.st, j.cores, j.runs))) ∧
   (∀ (s : State), ∃ t, exec .gatingSlot s = .next t ∧ t = { s with clusters := t.clusters } ∧
     ∀ c, c < 8 → (t.cluster c).slot16 = ((s.cluster c).slot16 + 1) % 16 ∧ (t.cluster c).op = (s.cluster c).op ∧
       ((t.cluster c).gated = true ↔ (s.cluster c).duty ≤ ((s.cluster c).slot16 + 1) % 16 ∧
         ∃ n, clusterOf n = c ∧ corePresent s.fuse.grade n = true ∧ ∀ j ∈ s.jobs, j.isArmed = true → n ∉ j.cores)) ∧
   (∀ (s : State) (ws : List (Nat × Nat)), ∃ t, exec (.barWaitWindow ws) s = .next t ∧ t = { s with clusters := t.clusters } ∧
     ∀ c k, c < 8 → k = (if (ws.getD c (0, 0)).2 = 0 then 0
         else min 100 (100 * (ws.getD c (0, 0)).1 / (ws.getD c (0, 0)).2)) → t.cluster c = { s.cluster c with wait := k }) ∧
   (∀ (s : State) (meas : List (Option Nat)) (g : Nat), g < 11 → s.power.gains.length = 11 → s.power.failReads.length = 11 →
     s.power.estSum.length = 11 →
     ∃ t, exec (.calibrationUpdate meas) s = .next t ∧ t.power.estSum = List.replicate 11 (0, 0) ∧ t.clusters = s.clusters ∧
       t.rn pgGaffer (0x160 + 4 * g) = t.power.gains.getD g 0 % 2 ^ 32 ∧
       (s.noRegulator g = true → t.power.gains.getD g 0 = 0x4000) ∧
       (s.noRegulator g = false → ∀ m e k, meas.getD g none = some m → s.power.estSum.getD g (0, 0) = (e, k) → e ≠ 0 → k ≠ 0 →
         (t.power.gains.getD g 0 : Int) = max 0x2000 (min 0x8000
           ((s.power.gains.getD g 0 : Int) + (((m * 16384 * k / e : Nat) : Int) - (s.power.gains.getD g 0 : Int)) / 8)) ∧
         t.power.failReads.getD g 0 = 0) ∧
       (s.noRegulator g = false → meas.getD g none = none → t.power.gains.getD g 0 = s.power.gains.getD g 0 ∧
         t.power.failReads.getD g 0 = min 3 (s.power.failReads.getD g 0 + 1))))

/-- SAG_WARN, PROCHOT_ASSERT and PROCHOT_RELEASE (R485, R504, R520, R525): a warning of an enabled rail is recorded and counted,
no cluster is raised for 1 ms, and the rail's cluster goes to its fallback point or, with FIXED, one duty step down;
PROCHOT_N does so to every cluster, and is lifted at the update after its release. THERMAL_SAMPLE and THERMAL_CEILING_WINDOW
(R522 to R524, R532): the readings become the sensors' values, the hottest and the peak are kept, 110 °C raises its cause,
and sensors at 115 °C twice in a row are noted; a window with a sensor of a cluster at THROT_C lowers the cluster's thermal
ceiling by one, with FIXED and a ceiling below OP5 its duty too, and a long one without warm sensors raises the ceiling
again up to 7. Where it rests on the model's choices: log 30, 52. -/
def Obligations.SupplyAndTemperature : Prop :=
  ((∀ (s : State) (r : Fin 16), bit (s.rn pgSupply (0x100 + 4 * r.val)) 16 = true →
     ∃ t, exec (.sagWarn r) s = .next t ∧ t.rn pgSupply 0x184 = r.val ∧
       t.rn pgSupply 0x188 = s.tk / 256 % 2 ^ 32 ∧ t.rn pgSupply 0x18C = (s.rn pgSupply 0x18C + 1) % 2 ^ 32 ∧
       bit (t.rn pgSupply 0x10) 0 = true ∧ OtherRegs s t [(pgSupply, 0x184), (pgSupply, 0x188), (pgSupply, 0x18C), (pgSupply, 0x10)] ∧
       t.power.sagHoldUntil = s.uptime + 256000000 ∧
       t.power.explainUntil = (if r.val < 8 ∨ r.val = 9 ∨ r.val = 15 then s.uptime + 256000000 else s.power.explainUntil) ∧
       (∀ c, c < 8 → c ≠ r.val → t.cluster c = s.cluster c) ∧
       (∀ c, c < 8 → c = r.val → s.fixed = false →
         (t.cluster c).target = min (s.cluster c).target (fallback (s.cluster c).op) ∧ (t.cluster c).duty = (s.cluster c).duty) ∧
       (∀ c, c < 8 → c = r.val → s.fixed = true →
         t.cluster c = { s.cluster c with duty := max 1 ((s.cluster c).duty - 1) }) ∧
       t = { s with regs := t.regs, plicPending := t.plicPending, clusters := t.clusters, power := t.power }) ∧
   (∀ (s : State) (r : Fin 16), bit (s.rn pgSupply (0x100 + 4 * r.val)) 16 = false → exec (.sagWarn r) s = .next s) ∧
   (∀ (s : State), ∃ t, exec .prochotAssert s = .next t ∧ t.power.prochot = true ∧
     t.power.explainUntil = s.uptime + 256000000 ∧ bit (t.rn pgGaffer 0x10) 3 = true ∧ OtherRegs s t [(pgGaffer, 0x10)] ∧
     (∀ c, c < 8 → s.fixed = true → t.cluster c = { s.cluster c with duty := 1 }) ∧
     (∀ c, c < 8 → s.fixed = false → (t.cluster c).target = min (s.cluster c).target (fallback (s.cluster c).op) ∧
       (t.cluster c).op = (s.cluster c).op ∧ (t.cluster c).duty = (s.cluster c).duty) ∧
     t = { s with regs := t.regs, plicPending := t.plicPending, clusters := t.clusters, power := t.power }) ∧
   (∀ (s : State), ∃ t, exec .prochotRelease s = .next t ∧ t = { s with power := t.power } ∧
     t.power = (if s.power.prochot then { s.power with prochotEnd := true } else s.power))) ∧
  ((∀ (s : State) (rs : List (BitVec 10)), rs.length = 48 →
     ∃ t, exec (.thermalSample rs) s = .next t ∧
       (∀ i, i < 48 → t.rn pgThermal (0x800 + 4 * i) = (rs.getD i 0).toNat) ∧
       (∀ i, i ∈ t.power.prevHot ↔ i < 48 ∧ 460 ≤ sext 10 (rs.getD i 0).toNat) ∧
       (∀ i, i ∈ t.power.twice ↔ i ∈ t.power.prevHot ∧ i ∈ s.power.prevHot) ∧
       (∃ h p, h < 48 ∧ bits (t.rn pgThermal 0x108) 15 8 = h ∧
         (∀ i, i < 48 → sext 10 (rs.getD i 0).toNat ≤ sext 10 (rs.getD h 0).toNat) ∧ t.power.peak = some p ∧
         p = (match s.power.peak with
           | some x => max x (sext 10 (rs.getD h 0).toNat / 4) | none => sext 10 (rs.getD h 0).toNat / 4)) ∧
       ((∃ i, i < 48 ∧ 440 ≤ sext 10 (rs.getD i 0).toNat) → bit (t.rn pgThermal 0x10) 1 = true) ∧
       t = { s with regs := t.regs, plicPending := t.plicPending, power := t.power }) ∧
   (∀ (s : State) (long : Bool),
     ∃ t, exec (.thermalCeilingWindow long) s = .next t ∧ t.power.hot100 = [] ∧
       t.power.warm1ms = (if long then [] else s.power.warm1ms) ∧
       (∀ c k, c < 8 → k = (if ∃ i ∈ s.power.hot100, 4 * c ≤ i ∧ i < 4 * c + 4 ∨ 32 ≤ i ∧ i < 48 then (s.cluster c).thermCeil - 1
           else if long = true ∧ ¬ ∃ i ∈ s.power.warm1ms, 4 * c ≤ i ∧ i < 4 * c + 4 ∨ 32 ≤ i ∧ i < 48
             then min 7 ((s.cluster c).thermCeil + 1)
           else (s.cluster c).thermCeil) → t.cluster c = { s.cluster c with
             thermCeil := k
             duty := if s.fixed = true ∧ k < 5 ∧ ∃ i ∈ s.power.hot100, 4 * c ≤ i ∧ i < 4 * c + 4 ∨ 32 ≤ i ∧ i < 48
               then max 1 ((s.cluster c).duty - 1) else (s.cluster c).duty }) ∧
       t = { s with regs := t.regs, plicPending := t.plicPending, clusters := t.clusters, power := t.power }))

/-- Resets (R521, R524, R572 to R574): the power-on detector, PORESET_N, SYSRESET, DEVICE_RESET, an internal C3 fault, a supply
sag and a thermal trip reset the device, each with its cause; a pulse of PORESET_N keeps CODE and INDEX; the rise of
PORESET_N and SYSRESET sample the straps and boot; a thermal trip holds the device in reset. Standby and the end of boot
(R526, R527, R535, R575): STBY_CTL puts the device into standby when no job is bound, with the DRAM in self-refresh and the
tensor complex at its reset state, and is refused with UNIT_BUSY otherwise; a wake frame of a session's binding, or the wake
timer, ends it with its RESET_CAUSE, the kept segments holding what they held; DRAM_OPEN and BOOT_DONE take effect once.
Where it rests on the model's choices: log 42, 57. -/
def Obligations.ResetsStandbyAndBootEnd : Prop :=
  (∀ (s : State),
     (∃ t, exec .coldReset s = .next t ∧ WasReset s t 0x20 ∧ t.power.chipReset = true) ∧
     (∃ t c, exec .poresetAssert s = .next t ∧ WasReset s t c ∧ bits c 15 0 = bits (s.rn pgSys 0x104) 15 0 ∧ bit c 16 = true ∧
       bits c 31 24 = min 255 (bits (s.rn pgSys 0x104) 31 24 + 1) ∧ t.power.chipReset = true ∧ t.power.thermtrip = false) ∧
     (∀ x : BitVec 4, s.power.chipReset = true → s.power.thermtrip = false →
       ∃ t, exec (.poresetRelease x) s = .next t ∧ t.sec.straps = x ∧ t.rn pgSys 0x108 = x.toNat ∧
         t.rn pgSys 0x104 = s.rn pgSys 0x104 ∧ t.power.chipReset = bit x.toNat 3) ∧
     (s.power.chipReset = false →
       (∀ x : BitVec 4, ∃ t, exec (.sysreset x) s = .next t ∧ WasReset s t (nextCause s 0x22 0) ∧ t.sec.straps = x ∧
         t.power.chipReset = bit x.toNat 3) ∧
       (∀ code idx : Byte, code.toNat = 0x0B ∨ code.toNat = 0x0C ∨ code.toNat = 0x0D →
         ∃ t, exec (.internalReset code idx) s = .next t ∧ WasReset s t (nextCause s code.toNat idx.toNat) ∧
           t.power.thermtrip = (code.toNat == 0x0C)) ∧
       (∀ r : Fin 16, ∃ t, exec (.sagReset r) s = .next t ∧ WasReset s t (nextCause s 0x0B r.val)) ∧
       (∀ i : Fin 48, i.val ∈ s.power.twice → ∃ t, exec (.thermalTrip i) s = .next t ∧
         WasReset s t (nextCause s 0x0C i.val) ∧ t.power.thermtrip = true ∧ t.power.chipReset = true)) ∧
     (s.power.chipReset = true → ∀ x : BitVec 4, exec (.sysreset x) s = .next s) ∧
     (∀ (who : Requester) (r : Row), Opens s who pgSys 0x110 .sys 0 r →
       (∃ t, exec (.deviceReset who 0xD5) s = .next t ∧ WasReset s t (nextCause s 0x24 0)) ∧
       (∀ v : Word, v ≠ 0xD5 → ∃ t, exec (.deviceReset who v) s = .next t ∧ t.discarded ∧
         ErrorRecorded s t pgSys 0x84 who true ∧ t = { s with regs := t.regs, rsp := t.rsp } ∧
         OtherRegs s t [(pgSys, 0x18), (pgSys, 0x1C)]))) ∧
  ((∀ (s : State) (who : Requester) (r : Row), Opens s who pgGaffer 0x130 .gaffer 0 r →
     (s.jobs = [] → ∃ t, exec (.standbyRequest who 0x5B) s = .next t ∧ t.power.standby = true ∧ t.power.standbyAt = s.uptime ∧
       t.selfRefresh = true ∧ t.cores = State.reset.cores ∧ t.clusters = State.reset.clusters ∧ t.slots = State.reset.slots ∧
       t.sec.apuReleased = false ∧ (∀ g, g ∈ t.segInit ↔ g ∈ s.segInit ∧ g % 64 ∈ s.keptSegs) ∧ t.fuse = s.fuse) ∧
     (s.jobs ≠ [] → ∃ t, exec (.standbyRequest who 0x5B) s = .next t ∧ t.discarded ∧ ErrorRecorded s t pgGaffer 0x89 who true ∧
       t = { s with regs := t.regs, rsp := t.rsp } ∧ OtherRegs s t [(pgGaffer, 0x18), (pgGaffer, 0x1C)])) ∧
   (∀ (s : State), s.power.standby = true → bit (s.rn pgGaffer 0x134) 1 = true →
     ∃ t, exec .wakeTimer s = .next t ∧ Woken s t ∧
       t.uptime = max s.uptime (s.power.standbyAt + 256000000000 * s.rn pgGaffer 0x138)) ∧
   (∀ (s : State) (f : Frame) (h : ReelHdr) (b : List Byte), s.power.standby = true → bit (s.rn pgGaffer 0x134) 0 = true →
     f.payload = .reel h b → (s.boundTo 0 (s.received 0 f) h).isSome = true →
     ∃ t, exec (.wakeFrame f) s = .next t ∧ Woken s t ∧ t.uptime = s.uptime) ∧
   (∀ (s : State) (who : Requester) (r : Row) (v : Word), Opens s who pgSys 0x400 .sys 0 r →
     ∃ t, exec (.dramOpen who v) s = .next t ∧ t.accepted ∧ OtherRegs s t [(pgSys, 0x400)] ∧
       t.rn pgSys 0x400 = (if bit v.toNat 0 then 1 else s.rn pgSys 0x400) ∧
       AuditTrail s t 1 pgSys 1 0x400 v ∧ t = { s with regs := t.regs, rsp := t.rsp, sec := t.sec }) ∧
   (∀ (s : State) (who : Requester) (r : Row) (v : Word), Opens s who pgSec 0x104 .sec 0 r →
     ∃ t, exec (.bootDone who v) s = .next t ∧ t.accepted ∧ t = { s with rsp := t.rsp, sec := t.sec } ∧
       t.sec.bootDone = (if v = 0xB0 then true else s.sec.bootDone) ∧ t.sec.keys = s.sec.keys ∧ t.sec.sessions = s.sec.sessions))

/-- TK_WRAP, INPUT_EDGE and EVT_POP (R327 to R332, R344, R350): the timekeeper's two top bits change and WRAP sets; an edge,
whose stamp T is in 125 ps steps (log 54), counts on its axis by SOURCE and INVERT, is the axis's latest measurement at T
less INPUT_DELAY, enters the event FIFO where EVT_MASK selects it, and schedules an armed reactive slot 40 ns + LEAD after
it; the head of the FIFO leaves. Where it rests on the model's choices: log 31, 33, 54. -/
def Obligations.EdgesCountAndAreRecorded : Prop :=
  ∀ (s : State),
    (∃ t, exec .tkWrap s = .next t ∧ t.time = (s.time / 2 ^ 38 + 1) * 2 ^ 38 ∧ t.uptime + s.time = s.uptime + t.time ∧
      bit (t.rn pgTk 0x10) 0 = true ∧ OtherRegs s t [(pgTk, 0x10)] ∧
      t = { s with time := t.time, uptime := t.uptime, regs := t.regs, plicPending := t.plicPending }) ∧
    (∀ (p : InPin) (rising : Bool) (tk : Tk) (T : Int), T = s.extendTk (tk.toNat / 32 * 32) → (p = .ppsIn → s.ntSource ≠ 2) →
      ∃ t, exec (.inputEdge p rising tk) s = .next t ∧ (t.time : Int) = max (s.time : Int) T ∧
        t = { s with time := t.time, uptime := t.uptime, regs := t.regs, plicPending := t.plicPending, axes := t.axes,
                     cues := t.cues, evts := t.evts, free := t.free } ∧
        (∀ (n : Fin 8) (isA up : Bool), p = (if isA then .phaA n else .phaB n) → s.axGlitch n.val = 0 →
          (s.axSource n.val = 1 ∧ (s.axis n.val).undo = none ∧
              up = (((if isA then rising else (s.axis n.val).levelA) != (if isA then (s.axis n.val).levelB else rising)) == isA) ∨
            s.axSource n.val = 2 ∧ isA = true ∧ rising = true ∧ up = (s.axis n.val).levelB ∨
            (s.axSource n.val = 3 ∨ s.axSource n.val = 5) ∧ isA = true ∧ rising = true ∧ up = true) →
          ∀ q : Int, q = (s.axis n.val).pos + (if up = s.axInvert n.val then -s.axInc n.val else s.axInc n.val) →
            -2 ^ 63 ≤ q → q < 2 ^ 63 →
            (t.axis n.val).pos = s.axReduce n.val q ∧
            (t.axis n.val).meas = some (s.axReduce n.val q, T - s.axDelay n.val) ∧
            (t.axis n.val).lastT = some (T - s.axDelay n.val) ∧ (t.axis n.val).x = (s.axis n.val).x ∧
            (t.axis n.val).v = (s.axis n.val).v) ∧
        (∀ n : Fin 8, p ≠ .phaA n → p ≠ .phaB n → p ≠ .phaZ n → t.axis n.val = s.axis n.val) ∧
        (∀ sel : Bool, sel = (bit (s.rn pgTk 0x110) (pinMaskBit p) && (bits (s.rn pgTk 0x110) 26 25 == 2 ||
            bits (s.rn pgTk 0x110) 26 25 == (if rising then 0 else 1))) →
          (sel = false → t.evts = s.evts) ∧
          (sel = true → s.evts.length < 256 → ∃ e : Evt, t.evts = s.evts ++ [e] ∧ bits e.w0.toNat 7 0 = pinSource p ∧
            bits e.w0.toNat 15 8 = wrapTo 40 T % 256 ∧ e.w1 = w32 (wrapTo 40 T / 256) ∧ bit e.w0.toNat 20 = !rising) ∧
          (sel = true → 256 ≤ s.evts.length → t.evts = s.evts ∧ t.reg pgTk 0x118 = satInc (s.reg pgTk 0x118))) ∧
        (∀ slot on : Nat, slot < 64 →
          on = (if s.cueArmed slot = true ∧ s.cueKind slot = 2 ∧ bits (s.cueReg slot 0) 17 16 = pinRin p ∧
              (pinRin p = 3 ∨ s.cueAxis slot = pinGrp p) ∧ (bits (s.cueReg slot 0) 19 18 = 2 ∨
              bits (s.cueReg slot 0) 19 18 = (if rising then 0 else 1)) then 1 else 0) →
          (on = 0 → t.cue slot = s.cue slot) ∧
          (on = 1 → (s.cue slot).fireAt = none → (∀ l, (s.cue slot).lastEdge = some l → 256 * (s.cueReg slot 0x14 : Int) ≤ T - l) →
            t.cue slot = { s.cue slot with
              lastEdge := some T, fireAt := some (roundUpDiv T 32 + 320 + s.cueLead slot), late := false, handed := true }) ∧
          (on = 1 → (∃ l, (s.cue slot).lastEdge = some l ∧ T - l < 256 * (s.cueReg slot 0x14 : Int)) →
            t.cue slot = s.cue slot))) ∧
    (∀ (who : Requester) (v : Word) (r : Row), Opens s who pgTk 0x130 .tk 0 r → ∃ t, exec (.evtPop who v) s = .next t ∧ t.accepted ∧
      t.evts = (if v = 1 then s.evts.drop 1 else s.evts) ∧ AuditTrail s t 1 pgTk (regionOf 0x130) 0x130 v ∧
      t = { s with evts := t.evts, rsp := t.rsp, sec := t.sec })

/-- SSI_READ, AX_SW_SAMPLE, AXIS_FILTER_UPDATE and AXIS_STALL (R331, R333, R334, R341): a frame's word, by GRAY, AX_INC and
INVERT, and a software sample are the axis's latest measurement; the filter starts with the first, takes its velocity from
the second, and follows with AX_GAINS from the third on; an axis without measurements restarts and is flagged. Scheduled
phase slots follow. Where it rests on the model's choices: log 31, 32. -/
def Obligations.MeasurementsMoveTheFilter : Prop :=
  ∀ (s : State) (n : Fin 8),
    (∀ (tk : Tk) (low : Bool) (raw : Word) (T : Int), T = s.extendTk tk.toNat →
      ∃ t, exec (.ssiRead n tk low raw) s = .next t ∧ (t.time : Int) = max (s.time : Int) T ∧ (∀ m, m ≠ n.val → t.axis m = s.axis m) ∧
        t = { s with time := t.time, uptime := t.uptime, regs := t.regs, plicPending := t.plicPending, axes := t.axes,
                     free := t.free } ∧
        (s.axSource n.val ≠ 4 ∨ low = true → t.axes = s.axes) ∧
        (s.axSource n.val = 4 → low = true → bit (t.rn (pgAx n.val) 0x10) 1 = true ∧
          (bits (s.rn (pgAx n.val) 0x158) 15 8 < 255 → t.rn (pgAx n.val) 0x158 = s.rn (pgAx n.val) 0x158 + 256)) ∧
        (s.axSource n.val = 4 → low = false → ∀ (k : Nat) (z : Int),
          k = (if bit (s.rn (pgAx n.val) 0x100) 21 then
              grayDecode (bits (s.rn (pgAx n.val) 0x100) 17 12) (raw.toNat % 2 ^ bits (s.rn (pgAx n.val) 0x100) 17 12)
            else raw.toNat % 2 ^ bits (s.rn (pgAx n.val) 0x100) 17 12) →
          z = (if s.axInvert n.val then -(k * s.axInc n.val) else k * s.axInc n.val) → -2 ^ 63 ≤ z → z < 2 ^ 63 →
          t.axis n.val = { s.axis n.val with meas := some (s.axReduce n.val z, T), lastT := some T })) ∧
    (∀ (who : Requester) (v : Word) (r : Row) (T : Int), Opens s who (pgAx n.val) 0x808 .axis n.val r → T = s.extendNs v.toNat →
      ∃ t, exec (.axSwSample who n v) s = .next t ∧ t.accepted ∧ (∀ m, m ≠ n.val → t.axis m = s.axis m) ∧
        t = { s with regs := t.regs, plicPending := t.plicPending, axes := t.axes, rsp := t.rsp, sec := t.sec } ∧
        (s.axSource n.val ≠ 7 → t.axes = s.axes ∧ t.regs = s.regs) ∧
        (s.axSource n.val = 7 → (∀ l, (s.axis n.val).lastT = some l → l < T) → t.regs = s.regs ∧ t.axis n.val =
          { s.axis n.val with meas := some (s.axReduce n.val (s.reg64 (pgAx n.val) 0x800), T), lastT := some T }) ∧
        (s.axSource n.val = 7 → (∃ l, (s.axis n.val).lastT = some l ∧ T ≤ l) → t.axes = s.axes ∧
          bit (t.rn (pgAx n.val) 0x10) 3 = true ∧ (bits (s.rn (pgAx n.val) 0x158) 23 16 < 255 →
            t.rn (pgAx n.val) 0x158 = s.rn (pgAx n.val) 0x158 + 65536))) ∧
    (∀ (z T : Int), s.axSource n.val ≠ 0 → (s.axis n.val).held = [] → (s.axis n.val).meas = some (z, T) →
      ∃ t, exec (.axisFilterUpdate n) s = .next t ∧ t = { s with axes := t.axes, cues := t.cues, free := t.free } ∧
        (∀ m, m ≠ n.val → t.axis m = s.axis m) ∧ (t.axis n.val).meas = none ∧ (t.axis n.val).tk = T ∧
        (t.axis n.val).count = (s.axis n.val).count + 1 ∧ (t.axis n.val).pos = (s.axis n.val).pos ∧
        ((s.axis n.val).count = 0 → (t.axis n.val).x = s.axReduce n.val z ∧ (t.axis n.val).v = 0 ∧ (t.axis n.val).velValid = false) ∧
        ((s.axis n.val).count = 1 → (t.axis n.val).x = s.axReduce n.val z ∧ (t.axis n.val).velValid = true ∧
          ∀ w : Int, T ≠ (s.axis n.val).tk → w = rneDivI ((z - (s.axis n.val).x) * 2 ^ 32) (T - (s.axis n.val).tk) →
            -2 ^ 63 ≤ w → w < 2 ^ 63 → (t.axis n.val).v = w) ∧
        (2 ≤ (s.axis n.val).count → ∀ d p q : Int, d = T - (s.axis n.val).tk → d ≠ 0 →
          p = (s.axis n.val).x * 2 ^ 32 + (s.axis n.val).v * d →
          q = (if s.axModulo n.val = true ∧ 0 < s.axModulus n.val then centreQ (s.axModulus n.val) (z * 2 ^ 32 - p) (2 ^ 32)
            else z * 2 ^ 32 - p) →
          ∀ x v : Int, x = rneDiv (p * 2 ^ 16 + (bits (s.rn (pgAx n.val) 0x110) 15 0 : Nat) * q) (2 ^ 48) →
            v = rneDivI ((s.axis n.val).v * (2 ^ 16 * d) + (bits (s.rn (pgAx n.val) 0x110) 31 16 : Nat) * q) (2 ^ 16 * d) →
            -2 ^ 63 ≤ x → x < 2 ^ 63 → -2 ^ 63 ≤ v → v < 2 ^ 63 →
            (t.axis n.val).x = s.axReduce n.val x ∧ (t.axis n.val).v = v) ∧
        (∀ slot, slot < 64 →
          (s.cueArmed slot = true → s.cueKind slot = 0 → s.cueAxis slot = n.val → (s.cue slot).handed = false →
            (s.cue slot).waiting = false → t.cue slot = t.phaseCompute slot (s.cue slot)) ∧
          (s.cueArmed slot = false ∨ s.cueKind slot ≠ 0 ∨ s.cueAxis slot ≠ n.val ∨ (s.cue slot).handed = true →
            t.cue slot = s.cue slot))) ∧
    (s.axSource n.val ≠ 0 → (s.axis n.val).count ≠ 0 → (s.axis n.val).meas = none →
      ∃ t, exec (.axisStall n) s = .next t ∧ bit (t.rn (pgAx n.val) 0x10) 0 = true ∧
        (t.time : Int) = max (s.time : Int) ((s.axis n.val).lastT.getD 0 + 256000 * (s.rn (pgAx n.val) 0x118 : Nat)) ∧
        t.axis n.val = { s.axis n.val with v := 0, velValid := false, count := 0 } ∧ (∀ m, m ≠ n.val → t.axis m = s.axis m) ∧
        OtherRegs s t [(pgTk, 0x10), (pgAx n.val, 0x10)] ∧
        t = { s with time := t.time, uptime := t.uptime, regs := t.regs, plicPending := t.plicPending, axes := t.axes,
                     cues := t.cues })

/-- CUE_HANDOFF, REMOTE_CAPTURE_SEND, CUE_FIRE, PULSE_END and PPS_OUT_PULSE (R338 to R341, R345 to R348, R351, R429): 250 ns
ahead a firing is fixed; a CAPTURE frame leaves through the flow's port REMOTE_ADVANCE µs ahead, or REMOTE_LATE counts; a
firing records its moment, acts as its CUE_CTL says and clears ARM unless it repeats; a pulse ends; PPS_OUT rises at each
second. Where it rests on the model's choices: log 33, 54. -/
def Obligations.CuesFireAtTheirMoment : Prop :=
  ∀ (s : State),
    (∀ (slot : Fin 64) (f : Int), (s.cue slot.val).fireAt = some f → (s.cue slot.val).handed = false →
      ∃ t, exec (.cueHandoff slot) s = .next t ∧ t.cue slot.val = { s.cue slot.val with handed := true } ∧
        (∀ m, m ≠ slot.val → t.cue m = s.cue m) ∧ (t.time : Int) = max (s.time : Int) (32 * f - 64000) ∧ OtherRegs s t [(pgTk, 0x10)] ∧
        t = { s with time := t.time, uptime := t.uptime, regs := t.regs, plicPending := t.plicPending, cues := t.cues }) ∧
    (∀ (slot : Fin 64) (f : Int), (s.cue slot.val).fireAt = some f → s.cueRemote slot.val = true →
      (s.cue slot.val).remoteSent = false → s.cueArmed slot.val = true →
      ∃ t, exec (.remoteCaptureSend slot) s = .next t ∧ t.cue slot.val = { s.cue slot.val with remoteSent := true } ∧
        (t.time : Int) = max (s.time : Int) (32 * f - 256000 * (s.rn pgCue 0x110 : Nat)) ∧ (∀ m, m ≠ slot.val → t.cue m = s.cue m) ∧
        t = { s with time := t.time, uptime := t.uptime, regs := t.regs, plicPending := t.plicPending, cues := t.cues,
                     ports := t.ports, winTab := t.winTab, winGen := t.winGen } ∧
        (32 * f ≤ (t.time : Int) → t.rn pgCue 0x11C = (s.rn pgCue 0x11C + 1) % 2 ^ 32 ∧ bit (t.rn pgCue 0x10) 3 = true ∧
          t.ports = s.ports ∧ t.winTab = s.winTab) ∧
        ((t.time : Int) < 32 * f → s.flowType (s.cueFlow slot.val) ≠ 0 → s.flowNat (s.cueFlow slot.val) 88 2 ≠ 0 →
          t.flowNat (s.cueFlow slot.val) 112 4 = (s.flowNat (s.cueFlow slot.val) 112 4 + 1) % 2 ^ 32 ∧
          t.rn pgNet 0x134 = (s.rn pgNet 0x134 + 1) % 2 ^ 32 ∧
          ∃ e : TxFrame, (t.port (s.flowNat (s.cueFlow slot.val) 1 1 % 4)).egress =
              (s.port (s.flowNat (s.cueFlow slot.val) 1 1 % 4)).egress ++ [e] ∧
            e.payload = .reel (mkHdr 0x20 0xFFFF 0 0xFFFF 0 ((s.flowNat (s.cueFlow slot.val) 112 4 + 1) % 2 ^ 32) 0 16)
              (captureBody (32 * f).toNat slot.val (s.cueFlow slot.val)))) ∧
    (∀ (slot : Fin 64) (f : Int) (pin mode : Nat), (s.cue slot.val).fireAt = some f →
      ((s.cue slot.val).later.map (·.1)).Nodup → (∀ p ∈ (s.cue slot.val).later, p.1 ∈ cueRegs) →
      pin = bits (s.cueReg slot.val 0x10) 3 0 → mode = bits (s.cueReg slot.val 0x10) 5 4 →
      ∃ t, exec (.cueFire slot) s = .next t ∧ (t.time : Int) = max (s.time : Int) (32 * f) ∧
        t.cueReg slot.val 0x18 = wrapTo 40 (32 * f) / 256 ∧
        bits (t.cueReg slot.val 0x1C) 15 8 = (bits (s.cueReg slot.val 0x1C) 15 8 + 1) % 256 ∧
        bits (t.cueReg slot.val 0x1C) 31 24 = wrapTo 40 (32 * f) % 256 ∧
        bit (t.cueReg slot.val 0x1C) 3 = (s.cue slot.val).late ∧
        (mapGet? (s.cue slot.val).later 0 = none → bit (s.cueReg slot.val 0) 8 = false →
          t.cueArmed slot.val = false ∧ (t.cue slot.val).fireAt = none) ∧
        (∀ o x, (o, x) ∈ (s.cue slot.val).later → o ≠ 0 → t.reg pgCue (cueOff slot.val o) = x) ∧
        (t.cue slot.val).later = [] ∧
        (bit (s.cueReg slot.val 0) 9 = false → t.pins = s.pins) ∧
        (bit (s.cueReg slot.val 0) 9 = true → bit (s.rn pgPin (0x100 + 4 * pin)) 0 = true → (s.pin pin).lastAt ≠ some f →
          (∀ l, (s.pin pin).lastEdge = some l → l + 16 ≤ f) → (mode = 2 → (t.pin pin).pulse =
              some (f + (bits (s.cueReg slot.val 0x10) 30 17 * (if bit (s.cueReg slot.val 0x10) 31 then 8000 else 8) : Nat))) ∧
            (t.pin pin).active = (if mode = 1 then false else if mode = 3 then !(s.pin pin).active else true)) ∧
        (bit (s.cueReg slot.val 0) 12 = true →
          bit (t.rn pgCue (if slot.val < 32 then 0x100 else 0x104)) (slot.val % 32) = true ∧ bit (t.rn pgCue 0x10) 0 = true) ∧
        (bit (s.cueReg slot.val 0) 13 = true → s.evts.length < 256 → ∃ e : Evt, t.evts = s.evts ++ [e] ∧
          bits e.w0.toNat 7 0 = slot.val ∧ e.w1 = w32 (wrapTo 40 (32 * f) / 256)) ∧
        (bit (s.cueReg slot.val 0) 11 = true → (∀ j ∈ s.jobs, ∀ r, j.cur = some r → j.st = .armed → j.cancelling = false → r.cue ≠ slot.val) →
          t.rn pgJsc 0x10C = (s.rn pgJsc 0x10C + 1) % 2 ^ 32) ∧
        (∀ j ∈ s.jobs, ∀ r, bit (s.cueReg slot.val 0) 11 = true → j.st = .armed → j.cancelling = false → j.cur = some r →
          r.cue = slot.val → (∀ k ∈ s.jobs, k ≠ j → k.id ≠ j.id ∧ ∀ x, k.cur = some x → x.cue ≠ slot.val) →
          ∃ k, t.job? j.id = some k ∧ k.st = .running ∧ k.released = true)) ∧
    (∀ (p : Fin 16) (e d : Int) (moved : Bool), (s.pin p.val).pulse = some e →
      moved = ((s.pin p.val).active && (s.pin p.val).lastEdge.any (fun l => decide (e < l + 16))) →
      d = (if moved then (s.pin p.val).lastEdge.getD e + 16 else e) → ∃ t, exec (.pulseEnd p) s = .next t ∧
      t.pin p.val = { s.pin p.val with
        active := false, pulse := none, lastEdge := if (s.pin p.val).active then some d else (s.pin p.val).lastEdge } ∧
      (∀ m, m ≠ p.val → t.pin m = s.pin m) ∧ (t.time : Int) = max (s.time : Int) (32 * d) ∧
      t.rn pgCue 0x118 = (if moved then (s.rn pgCue 0x118 + 1) % 2 ^ 32 else s.rn pgCue 0x118 % 2 ^ 32) ∧
      t = { s with time := t.time, uptime := t.uptime, regs := t.regs, plicPending := t.plicPending, pins := t.pins }) ∧
    (bit (s.rn pgPin 0x144) 0 = true →
      ∃ t, exec (.ppsOutPulse true) s = .next t ∧ t.ppsHigh = true ∧ t.ppsAt = some (t.time : Int) ∧
        ((t.time : Int) - 256 * sext 32 (s.rn pgPin 0x148)) % 256000000000 = 0 ∧ s.time ≤ t.time ∧
        (∀ l, s.ppsAt = some l → l < t.time) ∧ (t.time : Int) < max (s.time : Int) (s.ppsAt.getD (-1) + 1) + 256000000000 ∧
        t.ppsLevel = !bit (s.rn pgPin 0x144) 1 ∧
        t = { s with time := t.time, uptime := t.uptime, regs := t.regs, plicPending := t.plicPending, ppsHigh := t.ppsHigh,
                     ppsAt := t.ppsAt }) ∧
    (s.ppsHigh = true → ∃ t, exec (.ppsOutPulse false) s = .next t ∧ t.ppsHigh = false ∧
      (t.time : Int) = max (s.time : Int) (s.ppsAt.getD (s.time : Int) + (2560000 * bits (s.rn pgPin 0x144) 17 2 : Nat)) ∧
      t.ppsLevel = bit (s.rn pgPin 0x144) 1 ∧
      t = { s with time := t.time, uptime := t.uptime, regs := t.regs, plicPending := t.plicPending, ppsHigh := t.ppsHigh })

/-- NT_MEASUREMENT, SERVO_RATE_UPDATE, NT_HOLDOVER and RESTEP (R356 to R358): the fourth agreeing measurement steps time and
locks; a locked offset within STEP_NS moves the integral and the rate, a larger one holds MASTER_JUMP until a re-step is
authorised; FREERUN runs at FREQ_TRIM, and ACQUIRING sets no rate; LOSS_MS without a measurement is HOLDOVER; the written
0xC3 authorises one re-step. Where it rests on the model's choices: log 32, 33. -/
def Obligations.TheServoLocksAndHolds : Prop :=
  ∀ (s : State) (who : Requester) (v : Word) (r : Row),
    (∀ (o T : Int), Opens s who pgNte 0x410 .nte 0 r → s.ntSource = 1 → T = s.extendNs v.toNat →
      o = sext 64 (s.servo.measLo.toNat + 2 ^ 32 * s.servo.measHi.toNat) →
      ∃ t, exec (.ntMeasurement who v) s = .next t ∧ t.accepted ∧
        t.rn pgNte 0x110 = wrapTo 32 (clampI (-2147483648) 2147483647 o) ∧
        (s.ntBit 9 = false → ∀ g : Nat, g = (if 0 < s.servo.n ∧ (o - s.servo.ofsPrev).natAbs ≤ 256 * s.rn pgNte 0x104 then
            s.servo.good + 1 else 1) →
          (g ≠ 4 → t.ntState = 1 ∧ t.servo.good = g ∧ t.time = s.time) ∧
          (g = 4 → t.ntState = 2 ∧ t.ntBit 9 = true ∧ t.ntBit 10 = s.ntBit 10 ∧ t.servo.setOnce = true ∧
            (t.time : Int) = ((s.time : Int) - o) % (2 ^ 48 * 1000000000 * 256) ∧ bit (t.rn pgTk 0x10) 1 = true)) ∧
        (s.ntBit 9 = true → s.ntState ≠ 4 → ∀ tp : Nat, s.servo.tPrev = some tp →
          (256 * s.rn pgNte 0x104 < o.natAbs → t.ntState = 4 ∧ t.ntBit 8 = true ∧ t.servo.rate = s.servo.integ ∧
            t.time = s.time) ∧
          (o.natAbs ≤ 256 * s.rn pgNte 0x104 → Int.tdiv (T - tp) 256 ≠ 0 → t.ntState = 2 ∧ t.time = s.time ∧
            t.servo.integ = clampI (-549755813) 549755813 (s.servo.integ -
              Int.tdiv ((s.rn pgNte 0x404 : Nat) * o * 2 ^ 16) (Int.tdiv (T - tp) 256)) ∧
            t.servo.rate = clampI (-549755813) 549755813 (t.servo.integ -
              Int.tdiv ((s.rn pgNte 0x400 : Nat) * o * 2 ^ 16) (Int.tdiv (T - tp) 256)))) ∧
        (s.ntBit 9 = true → s.ntState ≠ 4 → s.servo.tPrev = none → t.servo.tPrev = some T.toNat ∧ t.servo.rate = s.servo.rate ∧
          t.time = s.time) ∧
        (s.ntBit 9 = true → s.ntState = 4 → s.ntBit 10 = false → t.ntState = 4 ∧ t.time = s.time) ∧
        (s.ntBit 9 = true → s.ntState = 4 → s.ntBit 10 = true → t.ntState = 2 ∧ t.ntBit 8 = false ∧ t.ntBit 10 = false ∧
          (t.time : Int) = ((s.time : Int) - o) % (2 ^ 48 * 1000000000 * 256))) ∧
    (Opens s who pgNte 0x410 .nte 0 r → s.ntSource ≠ 1 → ∃ t, exec (.ntMeasurement who v) s = .next t ∧
      t = { s with rsp := t.rsp, sec := t.sec } ∧ t.accepted) ∧
    (∃ t, exec .servoRateUpdate s = .next t ∧ t = { s with regs := t.regs, servo := t.servo } ∧ OtherRegs s t [(pgNte, 0x114)] ∧
      (s.ntState = 0 → t.reg pgNte 0x114 = s.reg pgNte 0x414 ∧ t.servo = { s.servo with rate := sext 32 (s.rn pgNte 0x414) }) ∧
      (s.ntState = 1 → t = s) ∧
      (2 ≤ s.ntState → t.rn pgNte 0x114 = wrapTo 32 s.servo.rate ∧ t.servo = s.servo)) ∧
    (s.ntState = 2 → ∃ t, exec .ntHoldover s = .next t ∧ t.ntState = 3 ∧ t.ntBit 8 = s.ntBit 8 ∧ t.ntBit 9 = s.ntBit 9 ∧
      (t.time : Int) = max (s.time : Int) (s.servo.lastT.getD (s.time : Int) + (s.rn pgNte 0x108 * 256000000 : Nat)) ∧
      bit (t.rn pgNte 0x10) 0 = true ∧ bit (t.rn pgNte 0x10) 2 = true ∧ OtherRegs s t [(pgTk, 0x10), (pgNte, 0x10), (pgNte, 0x10C)] ∧
      t = { s with time := t.time, uptime := t.uptime, regs := t.regs, plicPending := t.plicPending }) ∧
    (s.ntState ≠ 2 → exec .ntHoldover s = .next s) ∧
    (Opens s who pgNte 0x11C .nte 0 r →
      (∃ t, exec (.restep who 0xC3) s = .next t ∧ t.accepted ∧ t.ntBit 10 = true ∧ t.ntState = s.ntState ∧ t.ntBit 8 = s.ntBit 8 ∧
        t.ntBit 9 = s.ntBit 9 ∧ OtherRegs s t [(pgNte, 0x10C)] ∧ t = { s with regs := t.regs, rsp := t.rsp, sec := t.sec }) ∧
      (v ≠ 0xC3 → ∃ t, exec (.restep who v) s = .next t ∧ t.accepted ∧ t = { s with rsp := t.rsp, sec := t.sec }))

/-- MEM_REQUEST_ISSUE, METER_REFILL, MEM_READ_COMPLETE, MEM_WRITE and CMD_PARITY_ERROR (R31, R32, R367, R374 to R377, R382 to
R387): a request waits in its channel, a metered one takes a credit of its channel and of its bank or is held for one; a
refused one is answered with an error. A meter regains credits at its own rate, and held requests pass. A channel serves the
first request in the order of its slot: a read answers its line's bytes, corrected where ECC could, or an error; a write
changes its bytes alone, with what a MERGE makes of a bad line; a poisoned one poisons its lines; a command with bad parity
is dropped. What errors of cells last for, whether a MERGE finds its tag line good, when the slots of a frame lie, and what
SEC SRAM reads before it is written are the model's choices (logs 54, 59). Where it rests on the model's choices: log 34,
35, 51, 54, 59. -/
def Obligations.MemoryServesItsRequests : Prop :=
  (∀ (s : State) (r : MemReq) (a n l : Nat), s.portAbsent r.port.val = false → inPages r.addr.toNat = false →
    (r.port.val = 22 → secOnly r.addr.toNat = false) → (a, n) = reqSpan r → l = lineOf r.addr.toNat →
    ∃ t, exec (.memRequestIssue r) s = .next t ∧
      (s.memCheck r.port.val a n r.write = none ∨ s.memCheck r.port.val a n r.write = some .locked →
        ∃ d, Requested s t { r with data := d } ∧ t.rsp = ⟨false, false, 0⟩ ∧
          (∀ x, mapGet? s.l2 l = some x → r.port.val = 20 → r.write = true →
            d = (x.bytes.drop (r.addr.toNat - l)).take r.data.length ∧ mapGet? t.l2 l = some { x with dirty := false } ∧
            ∀ y, y ≠ l → mapGet? t.l2 y = mapGet? s.l2 y) ∧
          (mapGet? s.l2 l = none ∨ r.port.val ≠ 20 ∨ r.write = false → d = r.data ∧ t.l2 = s.l2) ∧
          t = { s with queue := t.queue, held := t.held, meters := t.meters, l2 := t.l2, rsp := t.rsp }) ∧
      (∀ x, s.memCheck r.port.val a n r.write = some x → x ≠ .locked →
        t.rsp.error = true ∧ t = { s with rsp := t.rsp, regs := t.regs, plicPending := t.plicPending })) ∧
  (∀ (s : State) (r : MemReq), s.portAbsent r.port.val = true → exec (.memRequestIssue r) s = .next s) ∧
  (∀ (s : State) (r : MemReq) (page : Nat), s.portAbsent r.port.val = false → inPages r.addr.toNat = true →
    page = (r.addr.toNat - pageBase) / 4096 → ∃ t, exec (.memRequestIssue r) s = .next t ∧ t.rsp.error = true ∧
      (if mayReachPages (reqWho r) = true then
        ErrorRecorded s t (if s.pagePresent page then page else pgSys) 0x88 (reqWho r) r.write
       else ErrorRecorded s t pgSys 0x8D (reqWho r) r.write) ∧
      t = { s with rsp := t.rsp, regs := t.regs, plicPending := t.plicPending }) ∧
  (∀ (s : State) (r : MemReq) (a : Nat), r.port.val = 22 → a = r.addr.toNat → secOnly a = true →
    ∃ t, exec (.memRequestIssue r) s = .next t ∧
      (r.write = false → t = { s with rsp := ⟨false, false, w32 (leNat (s.secOwnBytes a 4))⟩ }) ∧
      (r.write = true → t.accepted ∧ t = { s with secRam := t.secRam, rsp := t.rsp } ∧ (a < 0x40000 → t.secRam = s.secRam) ∧
        (0x10000000 ≤ a → ∀ x, mapGet t.secRam x 0 = if a - 0x10000000 ≤ x ∧ x < a - 0x10000000 + r.data.length then
          r.data.getD (x - (a - 0x10000000)) 0 else mapGet s.secRam x 0))) ∧
  (∀ (s : State) (p : Fin 8), s.meterDue p.val = none → exec (.meterRefill p) s = .next s) ∧
  (∀ (s : State) (p : Fin 8) (d : Nat), s.meterDue p.val = some d → ∃ t, exec (.meterRefill p) s = .next t ∧
    t.uptime = max s.uptime d ∧ t.time = s.time + (t.uptime - s.uptime) ∧
    ((∀ h ∈ s.held, h.req.port.val ≠ p.val) →
      (((s.meter p.val).chan.map (·.1)).Nodup → ∀ k m, mapGet? (s.meter p.val).chan k = some m → credits (t.meter p.val).chan k 8 =
        min 8 (m.credits + (m.frac + (t.uptime - m.since) * s.clShare p.val) / s.chanCost)) ∧
      (((s.meter p.val).bank.map (·.1)).Nodup → ∀ k m, mapGet? (s.meter p.val).bank k = some m → credits (t.meter p.val).bank k 2 =
        min 2 (m.credits + (m.frac + (t.uptime - m.since)) / bankPeriod))) ∧
    (∃ new, t.queue = s.queue ++ new ∧ new.length + t.held.length = s.held.length ∧
      (∀ q ∈ new, q.since = t.uptime ∧ q.ch = chanOf s.fuse.grade q.req.addr.toNat ∧ q.req.port.val = p.val ∧
        (⟨q.req, q.own⟩ : Held) ∈ s.held)) ∧
    t.held.filter (fun h => h.req.port.val ≠ p.val) = s.held.filter (fun h => h.req.port.val ≠ p.val) ∧
    (∀ h ∈ t.held, h.req.port.val = p.val → t.meterOk h.req = false) ∧ (∀ q, q ≠ p.val → t.meter q = s.meter q) ∧
    OtherRegs s t [(pgTk, 0x10)] ∧
    t = { s with queue := t.queue, held := t.held, meters := t.meters, time := t.time, uptime := t.uptime, regs := t.regs,
                 plicPending := t.plicPending }) ∧
  (∀ (s : State) (ch : Fin 64) (ecc : Ecc) (syn : BitVec 16), s.waitingOn ch.val false = [] →
    exec (.memReadComplete ch ecc syn) s = .next s) ∧
  (∀ (s : State) (ch : Fin 64) (ecc : Ecc) (syn : BitVec 16), s.waitingOn ch.val false ≠ [] →
    ∃ u q t, Served s u ch.val false q ∧ exec (.memReadComplete ch ecc syn) s = .next t ∧
      ∀ l mc port : Nat, l = lineOf q.req.addr.toNat → mc = pgMc (mcOf s.fuse.grade l) → port = q.req.port.val →
        (∀ x, s.memCheck port l 64 false = some x → t.rsp.error = true ∧
          t = { u with rsp := t.rsp, regs := t.regs, plicPending := t.plicPending }) ∧
        (s.memCheck port l 64 false = none → l ∉ s.poison →
          (ecc ≠ .uncorrectable → s.lineBad l = false →
            t.rsp = ⟨false, false, w32 (leNat (s.rawBytes q.req.addr.toNat 4))⟩ ∧
            (port = 20 → mapGet? t.l2 l = some ⟨s.rawBytes l 64, false⟩ ∧ ∀ y, y ≠ l → mapGet? t.l2 y = mapGet? s.l2 y) ∧
            (port ≠ 20 → t.l2 = s.l2) ∧
            (ecc = .clean → mapGet? s.cellErr l = none → t = { u with l2 := t.l2, rsp := t.rsp }) ∧
            (ecc = .corrected ∨ (mapGet? s.cellErr l).isSome = true → t.reg mc 0x154 = satInc (s.reg mc 0x154) ∧
              (ecc = .corrected → mapGet? t.cellErr l = some (false, syn)) ∧
              t = { u with cellErr := t.cellErr, l2 := t.l2, rsp := t.rsp, regs := t.regs, plicPending := t.plicPending,
                           ceLast := t.ceLast })) ∧
          (ecc = .uncorrectable ∨ s.lineBad l = true → t.rsp.error = true ∧ t.reg mc 0x158 = satInc (s.reg mc 0x158) ∧
            bit (t.rn mc 0x10) 0 = true ∧ (ecc = .uncorrectable → mapGet? t.cellErr l = some (true, syn)))) ∧
        (s.memCheck port l 64 false = none → l ∈ s.poison → t.rsp.error = true ∧ t.reg mc 0x158 = s.reg mc 0x158 ∧
          t.cellErr = s.cellErr) ∧
        (s.memCheck port l 64 false = none → s.lineBad l = true ∨ ecc = .uncorrectable →
          (port ≠ 20 → port ≠ 21 → t = { u with cellErr := t.cellErr, rsp := t.rsp, regs := t.regs, plicPending := t.plicPending }) ∧
          (port = 20 ∨ port = 21 → bit (t.rn pgFaults 0x10) 0 = true))) ∧
  (∀ (s : State) (ch : Fin 64), s.waitingOn ch.val true = [] →
    exec (.memWrite ch) s = .next s) ∧
  (∀ (s : State) (ch : Fin 64), s.waitingOn ch.val true ≠ [] →
    ∃ u q t, Served s u ch.val true q ∧ exec (.memWrite ch) s = .next t ∧
      ∀ a n port : Nat, a = q.req.addr.toNat → n = q.req.data.length → port = q.req.port.val →
        (∀ x, s.memCheck port a n true = some x → t.rsp.error = true ∧
          t = { u with rsp := t.rsp, regs := t.regs, plicPending := t.plicPending }) ∧
        (s.memCheck port a n true = none → q.nibs = [] ∨ q.nibs.length = n → t.rsp = ⟨false, false, 0⟩ ∧
          t = { u with dram := t.dram, poison := t.poison, cellErr := t.cellErr, tags := t.tags, rsp := t.rsp, regs := t.regs,
                       plicPending := t.plicPending, free := t.free } ∧
          (q.req.merge = false ∨ q.req.poisoned = true → t.free = u.free) ∧
          (u.tagFinds.2 = none ∨ q.req.merge = false ∨ q.req.poisoned = true → t.regs = u.regs) ∧
          (q.req.poisoned = true → t.tags = s.tags ∧ (∀ x, t.byte x = if x / 64 ∈ unitsTouched 64 a n then 0 else s.byte x) ∧
            ∀ l, l ∈ t.poison ↔ l ∈ s.poison ∨ (l % 64 = 0 ∧ l / 64 ∈ unitsTouched 64 a n)) ∧
          (q.req.poisoned = false →
            (∀ x, a ≤ x → x < a + n → t.byte x = (q.nibs[x - a]?).elim (q.req.data.getD (x - a) 0)
              (fun m => mergeNib (s.byte x) (m, (q.req.data.getD (x - a) 0).toNat))) ∧
            (∀ x, x < a ∨ a + n ≤ x → t.byte x =
              if q.req.merge = true ∧ s.lineBad (lineOf x) = true ∧ blockOf x = blockOf a ∧ lineOf x ∉ coveredLines a n then 0
              else s.byte x) ∧
            (∀ l, l ∈ coveredLines a n → l ∉ t.poison ∧ mapGet? t.cellErr l = none) ∧
            (∀ l, l ∉ coveredLines a n → (l ∈ t.poison ↔ l ∈ s.poison ∨
              (q.req.merge = true ∧ l % 64 = 0 ∧ s.lineBad l = true ∧ blockOf l = blockOf a))) ∧
            (q.req.merge = false → ∀ l, l ∉ coveredLines a n → mapGet? t.cellErr l = mapGet? s.cellErr l) ∧
            (u.tagFinds.2 = none ∨ q.req.merge = false → t.tagsOk a n = true) ∧
            (u.tagFinds.2 ≠ none → q.req.merge = true → t.tagsOk (1024 * blockOf a) 1024 = false)))) ∧
  (∀ (s : State) (ch : Fin 64) (n : Nat) (mine : List Queued), mine = s.firstServed n (s.queue.filter (fun q => q.ch == ch.val)) →
    ∃ t, exec (.cmdParityError ch n) s = .next t ∧ (mine = [] → t = s) ∧ t.queue = mine.foldl (fun l q => l.erase q) s.queue ∧
      (∀ q, mine.head? = some q → t.rsp.error = true ∧ ∀ x ∈ s.queue, x.ch = ch.val → s.slotRank q ≤ s.slotRank x) ∧
      (∀ q ∈ mine, q.ch = ch.val ∧ ∀ a m, (a, m) = reqSpan q.req → s.memCheck q.req.port.val a m q.req.write = none →
        bit (t.rn (pgMc (ch.val / 8)) 0x10) 0 = true ∧
        (q.req.write = true → ∀ u ∈ unitsTouched 64 a m, u * 64 ∈ t.poison ∧ ∀ x, u * 64 ≤ x → x < u * 64 + 64 → t.byte x = 0)) ∧
      ((∀ q ∈ mine, q.req.write = false ∨ s.memCheck q.req.port.val q.req.addr.toNat q.req.data.length true ≠ none) →
        t.dram = s.dram ∧ t.poison = s.poison) ∧
      t = { s with queue := t.queue, dram := t.dram, poison := t.poison, cellErr := t.cellErr, rsp := t.rsp, regs := t.regs,
                   plicPending := t.plicPending })

/-- REFRESH, DRAM_TEMP_READ, BAND_CHANGE_SERVICE, ZERO_FILL, ZERO_FILL_DONE and DMA_TRANSFER_DONE (R368 to R373, R390, R471): a
channel's next bank is refreshed, and after its last the next rows; a temperature moves BAND and REFRESH_2X, raises
BAND_CHANGE and judges DLY_STALE; its service loads the band's fused codes; ZERO_FILL takes a segment that nothing bound
needs and ends with it zero and readable at every controller; the copy engine's state follows its end, with what MEM records
of a line ECC corrected or could not. Where it rests on the model's choices: log 34, 54, 57. -/
def Obligations.DramIsRefreshedTunedAndFilled : Prop :=
  ∀ (s : State),
    (∀ (ch : Fin 64) (b k : Nat), ch.val < s.fuse.grade.channels → b = mapGet s.refreshBank ch.val 0 → k = bankKey ch.val b →
      ∃ t, exec (.refresh ch) s = .next t ∧
        t = { s with refreshBank := t.refreshBank, refreshRow := t.refreshRow, bankFree := t.bankFree } ∧
        mapGet t.refreshBank ch.val 0 = (b + 1) % 32 ∧
        (b = 31 → mapGet t.refreshRow ch.val 0 = (mapGet s.refreshRow ch.val 0 + 1) % 8192) ∧
        (b ≠ 31 → t.refreshRow = s.refreshRow) ∧ mapGet t.bankFree k 0 = max (mapGet s.bankFree k 0) s.uptime + 23040 ∧
        (∀ x, x ≠ k → mapGet t.bankFree x 0 = mapGet s.bankFree x 0) ∧
        (∀ x, x ≠ ch.val → mapGet t.refreshBank x 0 = mapGet s.refreshBank x 0 ∧
          mapGet t.refreshRow x 0 = mapGet s.refreshRow x 0)) ∧
    (∀ ch : Fin 64, s.fuse.grade.channels ≤ ch.val → exec (.refresh ch) s = .next s) ∧
    (∀ (mc : Fin 8) (deg : Byte) (T : Int), s.pagePresent (pgMc mc.val) = true → T = sext 8 deg.toNat →
      ∃ t, exec (.dramTempRead mc deg) s = .next t ∧ t.rn (pgMc mc.val) 0x104 = deg.toNat ∧
        bits (t.rn (pgMc mc.val) 0x100) 9 8 = bandAfter (bits (s.rn (pgMc mc.val) 0x100) 9 8) T ∧
        (bit (t.rn (pgMc mc.val) 0x100) 10 = true ↔ 85 < T ∨ (82 < T ∧ bit (s.rn (pgMc mc.val) 0x100) 10 = true) ∨
          bit (s.rn (pgMc mc.val) 0x400) 0 = true) ∧
        bit (t.rn (pgMc mc.val) 0x100) 12 = bandStale (mapGet s.bandInForce mc.val 0) T ∧
        (bits (t.rn (pgMc mc.val) 0x100) 9 8 ≠ bits (s.rn (pgMc mc.val) 0x100) 9 8 → bit (t.rn (pgMc mc.val) 0x10) 2 = true) ∧
        (bit (t.rn (pgMc mc.val) 0x100) 12 = true → bit (s.rn (pgMc mc.val) 0x100) 12 = false →
          bit (t.rn (pgMc mc.val) 0x10) 7 = true) ∧
        OtherRegs s t [(pgMc mc.val, 0x10), (pgMc mc.val, 0x100), (pgMc mc.val, 0x104)] ∧
        t = { s with regs := t.regs, plicPending := t.plicPending }) ∧
    (∀ (mc : Fin 8) (deg : Byte), s.pagePresent (pgMc mc.val) = false → exec (.dramTempRead mc deg) s = .next s) ∧
    (∀ (mc : Fin 8) (band : Nat), s.pagePresent (pgMc mc.val) = true → bit (s.rn (pgMc mc.val) 0x10) 2 = true →
      band = bits (s.rn (pgMc mc.val) 0x100) 9 8 →
      (s.armed (pgMc mc.val) = false → s.stagedOf (pgMc mc.val) = [] → s.mcOwnFails mc.val = [] →
        s.lock (pgMc mc.val) 2 ≠ 3 → ∃ t, exec (.bandChangeService mc) s = .next t ∧ t.accepted ∧
          bit (t.rn (pgMc mc.val) 0x10) 2 = false ∧
          (∀ i, i < 352 → t.dlyCode mc.val i = Config.fusedDly mc.val i band &&& 0x7F7F7F7F) ∧
          (∀ m i, m ≠ mc.val → i < 352 → t.dlyCode m i = s.dlyCode m i) ∧ t.stagedOf (pgMc mc.val) = [] ∧
          bits (t.rn (pgMc mc.val) 0x24) 3 0 = 1 ∧ mapGet t.bandInForce mc.val 0 = band ∧
          bit (t.rn (pgMc mc.val) 0x100) 12 = bandStale band (sext 8 (s.rn (pgMc mc.val) 0x104)) ∧
          t.armed (pgMc mc.val) = false ∧
          OtherRegs s t [(pgMc mc.val, 0xC), (pgMc mc.val, 0x10), (pgMc mc.val, 0x24), (pgMc mc.val, 0x100)] ∧
          t = { s with staged := t.staged, dly := t.dly, dlyBand := t.dlyBand, bandInForce := t.bandInForce, regs := t.regs,
                       rsp := t.rsp, sec := t.sec, plicPending := t.plicPending }) ∧
      (s.armed (pgMc mc.val) = true → ∃ t, exec (.bandChangeService mc) s = .next t ∧
        bit (t.rn (pgMc mc.val) 0x10) 2 = false ∧ ErrorRecorded s t (pgMc mc.val) 0x85 .sec true ∧ t.staged = s.staged ∧
        OtherRegs s t [(pgMc mc.val, 0x10), (pgMc mc.val, 0x18), (pgMc mc.val, 0x1C)])) ∧
    (∀ mc : Fin 8, s.pagePresent (pgMc mc.val) = false ∨ bit (s.rn (pgMc mc.val) 0x10) 2 = false →
      exec (.bandChangeService mc) s = .next s) ∧
    (∀ (who : Requester) (v : Word) (r : Row) (g : Nat), Opens s who (pgMc 0) 0x180 .mc 0 r → g = v.toNat % 64 →
      (bit v.toNat 31 = true → g < s.fuse.grade.segments → s.segInUse g = false → ∃ t, exec (.zeroFill who v) s = .next t ∧
        t.accepted ∧ (∀ m, m < s.fuse.grade.controllers → segKey m g ∈ t.fills ∧ segKey m g ∉ t.segInit) ∧
        (∀ x, (∀ m, m < s.fuse.grade.controllers → x ≠ segKey m g) →
          (x ∈ t.fills ↔ x ∈ s.fills) ∧ (x ∈ t.segInit ↔ x ∈ s.segInit)) ∧
        t = { s with fills := t.fills, segInit := t.segInit, rsp := t.rsp, sec := t.sec }) ∧
      (bit v.toNat 31 = true → g < s.fuse.grade.segments → s.segInUse g = true → ∃ t, exec (.zeroFill who v) s = .next t ∧
        t.discarded ∧ ErrorRecorded s t (pgMc 0) 0x89 who true ∧ t = { s with regs := t.regs, rsp := t.rsp }) ∧
      (bit v.toNat 31 = false ∨ s.fuse.grade.segments ≤ g → ∃ t, exec (.zeroFill who v) s = .next t ∧ t.accepted ∧
        t = { s with rsp := t.rsp, sec := t.sec })) ∧
    (∀ g : Fin 64, ∃ t, exec (.zeroFillDone g) s = .next t ∧
      (∀ m, m < s.fuse.grade.controllers → segKey m g.val ∉ t.fills ∧
        (segKey m g.val ∈ s.fills → segKey m g.val ∈ t.segInit)) ∧
      (∀ x, (∀ m, m < s.fuse.grade.controllers → x ≠ segKey m g.val) →
        (x ∈ t.fills ↔ x ∈ s.fills) ∧ (x ∈ t.segInit ↔ x ∈ s.segInit)) ∧
      (∀ filled : Nat → Prop, (∀ x, filled x ↔ dramBase ≤ x ∧ segOf x = g.val ∧
          segKey (mcOf s.fuse.grade x) g.val ∈ s.fills) →
        (∀ x, filled x → t.byte x = 0) ∧ (∀ x, ¬ filled x → t.byte x = s.byte x) ∧
        (∀ l, l ∈ t.poison ↔ l ∈ s.poison ∧ ¬ filled l) ∧ (∀ l, filled l → mapGet? t.cellErr l = none) ∧
        (∀ l, ¬ filled l → mapGet? t.cellErr l = mapGet? s.cellErr l) ∧
        (∀ b, filled (1024 * b) → mapGet? t.tags b = none) ∧ (∀ b, ¬ filled (1024 * b) → mapGet? t.tags b = mapGet? s.tags b)) ∧
      ((∀ m, m < s.fuse.grade.controllers → segKey m g.val ∉ s.fills) → t = s) ∧
      t = { s with fills := t.fills, segInit := t.segInit, dram := t.dram, tags := t.tags, poison := t.poison,
                   cellErr := t.cellErr }) ∧
    exec (.dmaTransferDone .ok) s = .next { s with dma := ⟨true, false⟩ } ∧
    exec (.dmaTransferDone .corrupt) s = .next { s with dma := ⟨true, false⟩ } ∧
    exec (.dmaTransferDone .error) s = .next { s with dma := ⟨false, true⟩ } ∧
    (∃ t l, exec (.dmaTransferDone .corrected) s = .next t ∧ t.dma = ⟨true, false⟩ ∧ dramBase ≤ l ∧ l < s.fuse.grade.dramEnd ∧
      l % 64 = 0 ∧ (s.lineBad l = false → (mapGet? t.cellErr l).isSome = true ∧
        t.reg (pgMc (mcOf s.fuse.grade l)) 0x154 = satInc (s.reg (pgMc (mcOf s.fuse.grade l)) 0x154)) ∧
      t = { s with dma := t.dma, free := t.free, cellErr := t.cellErr, ceLast := t.ceLast, regs := t.regs,
                   plicPending := t.plicPending }) ∧
    (∃ t l, exec (.dmaTransferDone .poisoned) s = .next t ∧ t.dma = ⟨false, true⟩ ∧ dramBase ≤ l ∧ l < s.fuse.grade.dramEnd ∧
      l % 64 = 0 ∧ (l ∉ s.poison → t.reg (pgMc (mcOf s.fuse.grade l)) 0x158 =
        satInc (s.reg (pgMc (mcOf s.fuse.grade l)) 0x158)) ∧ bit (t.rn pgFaults 0x10) 0 = true ∧
      t.staged = s.staged ∧ t.queue = s.queue ∧ t.jobs = s.jobs ∧ t.cores = s.cores)

/-- LINK_UP, LINK_DOWN, FRAME_RECEIVE, PFC_REFRESH, PFC_RECEIVE, PFC_PAUSE_EXPIRY, APU_RX_FRAME and TX_FRAME_DONE (R394 to
R408): links come and go and are flagged; a frame is counted and enters the command buffer or ingress staging, or is
discarded and counted; staging that fills sends a PFC frame, and a received one pauses classes 0 to 5; the APU ring takes
what is its own; the first frame of the highest class that PFC and its shaper let pass leaves under its SA. What a frame
weighs on the link, that one too long for R393 counts nowhere, and the FEC counts are the model's choices (log 58). Where it
rests on the model's choices: log 44, 45, 58. -/
def Obligations.PortsReceiveAndSendFrames : Prop :=
  ∀ (s : State) (p : Fin 4) (x : Port), x = s.port p.val →
    (s.enabled (pgPort p.val) = true → x.link = false → ∃ t, exec (.linkUp p) s = .next t ∧ (t.port p.val).link = true ∧
      (bit (s.rn (pgPort p.val) 0x100) 1 = false → (t.port p.val).master = bit (s.rn (pgPort p.val) 0x100) 0) ∧
      bit (t.rn (pgPort p.val) 0x10) 0 = true ∧ (∀ q, q ≠ p.val → t.port q = s.port q) ∧
      OtherRegs s t [(pgPort p.val, 0x10)] ∧
      t = { s with ports := t.ports, regs := t.regs, plicPending := t.plicPending, free := t.free }) ∧
    (s.enabled (pgPort p.val) = false ∨ x.link = true → exec (.linkUp p) s = .next s) ∧
    (x.link = true → ∃ t, exec (.linkDown p) s = .next t ∧ (t.port p.val).link = false ∧ (t.port p.val).master = false ∧
      bit (t.rn (pgPort p.val) 0x10) 0 = true ∧ (t.port p.val).staging = x.staging ∧ (t.port p.val).cmdBuf = x.cmdBuf ∧
      ((t.port p.val).egress = x.egress ∨ ∃ f, s.nextTx p.val = some f ∧ (t.port p.val).egress = x.egress.erase f) ∧
      (∀ q, q ≠ p.val → t.port q = s.port q) ∧ ((∀ f, s.nextTx p.val = some f → f.desc = none) →
        t = { s with ports := t.ports, regs := t.regs, plicPending := t.plicPending, free := t.free })) ∧
    (x.link = false → exec (.linkDown p) s = .next s) ∧
    (∀ f : Frame, s.enabled (pgPort p.val) = false ∨ x.link = false ∨ 9216 < frameLen f → exec (.frameReceive p f) s = .next s) ∧
    (∀ f : Frame, s.enabled (pgPort p.val) = true → x.link = true → frameLen f ≤ 9216 → ∃ t, exec (.frameReceive p f) s = .next t ∧
      t = { s with ports := t.ports, regs := t.regs, plicPending := t.plicPending, free := t.free } ∧
      (∀ q, q ≠ p.val → t.port q = s.port q) ∧
      t.rn (pgPort p.val) 0x144 = (s.rn (pgPort p.val) 0x144 + 1) % 2 ^ 32 ∧
      (f.payload = .pause → t.ports = s.ports ∧ t.reg (pgPort p.val) 0x158 = satInc (s.reg (pgPort p.val) 0x158)) ∧
      (f.payload ≠ .pause → s.replayed p.val f = true →
        t.ports = s.ports ∧ t.reg pgMacsec (0x130 + 4 * p.val) = satInc (s.reg pgMacsec (0x130 + 4 * p.val))) ∧
      (f.payload ≠ .pause → s.replayed p.val f = false →
        (s.verified p.val f = false → bit (s.rn (pgPort p.val) 0x100) 2 = true ∧ s.linkExempt p.val f = false ∨
            bit (s.rn (pgPort p.val) 0x100) 2 = false ∧ bit (s.secy p.val) 0 = true ∧ bits (s.secy p.val) 2 1 = 2 →
          t.ports = s.ports ∧ t.reg pgMacsec (0x120 + 4 * p.val) = satInc (s.reg pgMacsec (0x120 + 4 * p.val))) ∧
        (s.verified p.val f = true ∨ bit (s.rn (pgPort p.val) 0x100) 2 = true ∧ s.linkExempt p.val f = true ∨
            bit (s.rn (pgPort p.val) 0x100) 2 = false ∧ (bit (s.secy p.val) 0 = false ∨ bits (s.secy p.val) 2 1 ≠ 2) →
          ∀ g : Frame, g = { f with secured := if s.verified p.val f then f.secured else none } →
          (t.port p.val).rxSas = (if s.verified p.val f then
            x.rxSas.map (fun a => if a.an = f.an.toNat then { a with pn := max a.pn (f.pn.toNat + 1) } else a) else x.rxSas) ∧
          (s.cmdClass f = true → bufFill x.cmdBuf + frameLen f ≤ 32768 →
            t.port p.val = { x with cmdBuf := x.cmdBuf ++ [g], rxSas := (t.port p.val).rxSas }) ∧
          (s.cmdClass f = true → 32768 < bufFill x.cmdBuf + frameLen f →
            t.port p.val = { x with rxSas := (t.port p.val).rxSas } ∧
            t.reg pgCmd (0x120 + 4 * p.val) = satInc (s.reg pgCmd (0x120 + 4 * p.val))) ∧
          (s.cmdClass f = false → bufFill x.staging + frameLen f ≤ 393216 →
            (t.port p.val).staging = x.staging ++ [g] ∧ (t.port p.val).cmdBuf = x.cmdBuf ∧
            (x.xoff = false → bufFill (x.staging ++ [g]) < 1024 * s.rn (pgPort p.val) 0x110 →
              (t.port p.val).xoff = false ∧ (t.port p.val).egress = x.egress) ∧
            (x.xoff = false → 1024 * s.rn (pgPort p.val) 0x110 ≤ bufFill (x.staging ++ [g]) → (t.port p.val).xoff = true ∧
              PfcSent s t p.val 0xFFFF)) ∧
          (s.cmdClass f = false → 393216 < bufFill x.staging + frameLen f →
            t.port p.val = { x with rxSas := (t.port p.val).rxSas } ∧
            t.reg (pgPort p.val) 0x148 = satInc (s.reg (pgPort p.val) 0x148) ∧ bit (t.rn (pgPort p.val) 0x10) 2 = true)))) ∧
    (x.xoff = true → x.link = true → ∃ t, exec (.pfcRefresh p) s = .next t ∧ t = { s with ports := t.ports, regs := t.regs } ∧
      PfcSent s t p.val 0xFFFF ∧ t.port p.val = { x with egress := (t.port p.val).egress } ∧
      (∀ q, q ≠ p.val → t.port q = s.port q) ∧ OtherRegs s t [(pgPort p.val, 0x154)]) ∧
    (x.xoff = false ∨ x.link = false → exec (.pfcRefresh p) s = .next s) ∧
    (∀ (en : BitVec 8) (qs : Vector (BitVec 16) 8), s.enabled (pgPort p.val) = true → x.link = true →
      ∃ t, exec (.pfcReceive p en qs) s = .next t ∧ t = { s with ports := t.ports, regs := t.regs } ∧
        OtherRegs s t [(pgPort p.val, 0x144), (pgPort p.val, 0x158)] ∧ (∀ q, q ≠ p.val → t.port q = s.port q) ∧
        t.port p.val = { x with paused := (t.port p.val).paused } ∧
        t.rn (pgPort p.val) 0x144 = (s.rn (pgPort p.val) 0x144 + 1) % 2 ^ 32 ∧
        t.reg (pgPort p.val) 0x158 =
          (if 64 ≤ en.toNat then satInc (s.reg (pgPort p.val) 0x158) else s.reg (pgPort p.val) 0x158) ∧
        ∀ c, c ∈ (t.port p.val).paused ↔
          (if c < 6 ∧ bit en.toNat c = true then (qs[c]?.getD 0).toNat ≠ 0 else c ∈ x.paused)) ∧
    (∀ (en : BitVec 8) (qs : Vector (BitVec 16) 8), s.enabled (pgPort p.val) = false ∨ x.link = false →
      exec (.pfcReceive p en qs) s = .next s) ∧
    (∀ c : Fin 8, ∃ t, exec (.pfcPauseExpiry p c) s = .next t ∧ t = { s with ports := t.ports } ∧
      (∀ q, q ≠ p.val → t.port q = s.port q) ∧ t.port p.val = { x with paused := (t.port p.val).paused } ∧
      ∀ d, d ∈ (t.port p.val).paused ↔ d ≠ c.val ∧ d ∈ x.paused) ∧
    (∀ (f : Frame) (fs : List Frame) (a : Nat) (ring cmd : Bool),
      (cmd = true ∧ x.cmdBuf = f :: fs ∧ s.forApu f = true) ∨ (cmd = false ∧ x.cmdBuf = [] ∧ x.staging = f :: fs ∧
        s.flowOf p.val f = none ∧ bit (s.rn (pgPort p.val) 0x100) 3 = true) →
      a = s.descAt p.val 0x160 (s.rn (pgPort p.val) 0x168) →
      ring = (s.ringOn p.val 0x160 && s.rn (pgPort p.val) 0x168 % 2 ^ s.ringLog p.val 0x160 !=
        s.rn (pgPort p.val) 0x16C % 2 ^ s.ringLog p.val 0x160) →
      ∃ t, exec (.apuRxFrame p) s = .next t ∧
        (t.port p.val).cmdBuf = (if cmd then fs else x.cmdBuf) ∧ (t.port p.val).staging = (if cmd then x.staging else fs) ∧
        (ring = false → t.reg (pgPort p.val) 0x148 = satInc (s.reg (pgPort p.val) 0x148) ∧
          bit (t.rn (pgPort p.val) 0x10) 2 = true ∧ t.dram = s.dram) ∧
        (ring = true → t.rn (pgPort p.val) 0x168 =
            (s.rn (pgPort p.val) 0x168 + 1) % 2 ^ s.ringLog p.val 0x160 ∧
          (s.memCheck (netPort p.val) a 32 false = none → s.isPoison a 32 = false →
            s.memCheck (netPort p.val) a 32 true = none →
            t.rawBytes (a + 8) 2 = leBytes 2 (min f.raw.length (fld (s.rawBytes a 32) 10 2)) ∧
            (t.byte (a + 12)).toNat = (if f.tagged then f.pcp.toNat else if cmd then 7 else 0) ∧
            bit (t.byte (a + 13)).toNat 0 = true ∧ bit (t.byte (a + 13)).toNat 2 = cmd ∧
            bit (t.byte (a + 13)).toNat 3 = f.secured.isSome ∧
            (bit (t.byte (a + 13)).toNat 4 = true ↔ fld (s.rawBytes a 32) 10 2 < f.raw.length) ∧
            t.rawBytes (a + 14) 2 = leBytes 2 (if f.tagged then f.vid.toNat + 32768 else 0) ∧
            t.rawBytes (a + 16) 5 = leBytes 5 (s.rxTime p.val f)))) ∧
    (∀ (f : Frame) (fs : List Frame), x.cmdBuf = [] → x.staging = f :: fs →
      (s.flowOf p.val f = none → bit (s.rn (pgPort p.val) 0x100) 3 = false → ∃ t, exec (.apuRxFrame p) s = .next t ∧
        (t.port p.val).staging = fs ∧ t.reg pgNet 0x12C = satInc (s.reg pgNet 0x12C) ∧
        t = { s with ports := t.ports, regs := t.regs }) ∧
      ((s.flowOf p.val f).isSome = true → exec (.apuRxFrame p) s = .next s)) ∧
    (x.link = false ∨ s.nextTx p.val = none → exec (.txFrameDone p) s = .next s) ∧
    (∀ f : TxFrame, s.nextTx p.val = some f → f ∈ x.egress ∧ x.held f.cls = false ∧
      (s.idleSlope p.val f.cls = 0 ∨ 0 ≤ s.creditFor p.val f) ∧
      ∀ g ∈ x.egress, f.cls < g.cls → g.cls ≤ 8 → x.held g.cls = true ∨ (s.idleSlope p.val g.cls ≠ 0 ∧
        ∃ k ∈ x.egress, k.cls = g.cls ∧ s.creditFor p.val k < 0)) ∧
    (∀ f : TxFrame, x.link = true → s.nextTx p.val = some f → ∃ t, exec (.txFrameDone p) s = .next t ∧
      (t.port p.val).egress = x.egress.erase f ∧ (t.port p.val).staging = x.staging ∧ (t.port p.val).cmdBuf = x.cmdBuf ∧
      (∀ q, q ≠ p.val → t.port q = s.port q) ∧
      (x.txSa = none ∨ bit (s.secy p.val) 0 = false ∨ f.cls = 8 → (t.port p.val).txSa = x.txSa ∧
        (t.port p.val).lastTx = some { f with tag := none }) ∧
      (∀ sa, x.txSa = some sa → bit (s.secy p.val) 0 = true → f.cls ≠ 8 →
        (sa.pn < 0xFFFFFFFF → (t.port p.val).txSa = some { sa with pn := sa.pn + 1 } ∧
          (t.port p.val).lastTx = some { f with tag := some ⟨sa.an, sa.pn, bit (s.secy p.val) 4⟩ } ∧
          (sa.pn + 1 = 0xF0000000 → bit (t.rn pgMacsec 0x10) 0 = true)) ∧
        (∀ nx, 0xFFFFFFFF ≤ sa.pn → x.txNext = some nx → (t.port p.val).txSa = some { nx with pn := nx.pn + 1 } ∧
          (t.port p.val).txNext = none ∧
          (t.port p.val).lastTx = some { f with tag := some ⟨nx.an, nx.pn, bit (s.secy p.val) 4⟩ } ∧
          t.reg pgMacsec (0x110 + 4 * p.val) = w32 nx.an) ∧
        (0xFFFFFFFF ≤ sa.pn → x.txNext = none → (t.port p.val).lastTx = x.lastTx ∧ bit (t.rn pgMacsec 0x10) 1 = true ∧
          t.reg pgMacsec (0x140 + 4 * p.val) = satInc (s.reg pgMacsec (0x140 + 4 * p.val)))) ∧
      (∀ send : Nat, s.idleSlope p.val f.cls ≠ 0 → send = 10000 - s.idleSlope p.val f.cls → (t.port p.val).credit.getD f.cls 0 =
        max (s.creditFor p.val f - send * f.wire * 2048) (-(send * s.rn (pgPort p.val) 0x10C * 2048 : Int))) ∧
      (f.cls = 7 → s.rn pgCmd (0x130 + 4 * p.val) ≤ t.rn pgCmd (0x130 + 4 * p.val) ∧
        t.rn pgCmd (0x130 + 4 * p.val) ≤ max (s.rn pgCmd (0x130 + 4 * p.val)) 7500) ∧
      (f.desc = none → t = { s with ports := t.ports, regs := t.regs, plicPending := t.plicPending, free := t.free }) ∧
      (∀ i a, f.desc = some i → a = s.descAt p.val 0x170 i → s.memCheck (netPort p.val) a 32 false = none →
        s.isPoison a 32 = false → s.memCheck (netPort p.val) a 32 true = none → t.byte (a + 13) = s.byte (a + 13) ||| 1 ∧
        (x.txSa = none → bit (s.byte (a + 13)).toNat 1 = true →
          t.rawBytes (a + 16) 5 = leBytes 5 (shiftTk s.tk (s.egressLat p.val)))))

/-- ATTACH, DETACH, CMD_FRAME, ACK_FRAME, ACK_SEND, CMPL_SEND, CMPL_RETRY and SESSION_LOST (R421, R423 to R428): a session's
frames attach a reel, bring commands in sequence to its ring, where SOURCE is 2 and there is room (a frame for another
SOURCE counts as one without room, log 55), and acknowledge completions; completions leave in order and again until they are
acknowledged; a lost session's reels are detached. Where it rests on the model's choices: log 46, 55. -/
def Obligations.ReelFramesCarryASession : Prop :=
  ∀ (s : State),
    (∀ (p : Fin 4) (h : ReelHdr) (body : List Byte) (i : Fin 256) (n : Nat), SessionFront s p 0x02 h body i → n = h.reel.toNat →
      ((h.flags = 0 → s.reelSource n = 2 → (s.reel n).attached = none ∨ (s.reel n).attached = some i →
        roleMeets (s.sessionRole i.val) (s.lock pgReels 2) = true → s.reelOn n = true →
        ∃ t, exec (.attach p) s = .next t ∧ t = { s with ports := t.ports, reels := t.reels, sec := t.sec, free := t.free } ∧
          t.reel n = { s.reel n with attached := some i, lastSession := some (i, (s.session i.val).gen), cmdSeq := 1, cmplSeq := 1,
                                     unacked := [], ctail := (s.reel n).chead, sent := (s.reel n).chead, ackOwed := false } ∧
          (∀ m, m ≠ n → t.reel m = s.reel m) ∧ SentTo s t p i 0x02 n 0 none (attachBody 0 1 1)) ∧
      (h.flags = 1 → s.attachStatus i n true = 0 → ∃ t, exec (.attach p) s = .next t ∧ (t.reel n).attached = some i ∧
        (t.reel n).cmdSeq = (s.reel n).cmdSeq ∧ (t.reel n).cmplSeq = (s.reel n).cmplSeq ∧ (t.reel n).head = (s.reel n).head ∧
        (t.reel n).tail = (s.reel n).tail ∧ (t.reel n).unacked = (s.reel n).unacked.map (fun u => (u.1, u.2.1, u.2.2.1, 1)) ∧
        (t.port p.val).egress.length = (s.port p.val).egress.length + 1 + (s.reel n).unacked.length) ∧
      (∀ st, s.attachStatus i n (h.flags == 1) = st → st ≠ 0 → ∃ t b, exec (.attach p) s = .next t ∧ t.reels = s.reels ∧
        SentTo s t p i 0x02 n 0 none (beBytes 1 st ++ beBytes 3 0 ++ b)))) ∧
    (∀ (p : Fin 4) (h : ReelHdr) (body : List Byte) (i : Fin 256) (n : Nat), SessionFront s p 0x03 h body i → n = h.reel.toNat →
      ∃ t, exec (.detach p) s = .next t ∧ t = { s with ports := t.ports, reels := t.reels, sec := t.sec, free := t.free } ∧
        t.reel n = (if (s.reel n).attached = some i then { s.reel n with attached := none, ackOwed := false } else s.reel n) ∧
        (∀ m, m ≠ n → t.reel m = s.reel m) ∧ SentTo s t p i 0x03 n 0 none []) ∧
    (∀ (p : Fin 4) (h : ReelHdr) (body : List Byte) (i : Fin 256) (n : Nat), SessionFront s p 0x10 h body i → n = h.reel.toNat →
      (s.reel n).attached = some i → ∃ t, exec (.cmdFrame p) s = .next t ∧ (∀ m, m ≠ n → t.reel m = s.reel m) ∧
        (t.reel n).head = (s.reel n).head ∧ (t.session i.val).idleFrom = s.uptime ∧
        (h.seq = (s.reel n).cmdSeq → s.reelSource n = 2 → h.count.toNat ≤ s.reelRoom n →
          (t.reel n).cmdSeq = (s.reel n).cmdSeq + 1 ∧ (t.reel n).ackOwed = true ∧
          (t.reel n).tags.length = (s.reel n).tags.length + h.count.toNat ∧
          ((s.reel n).tail < 2 ^ (s.reelLog n + 1) →
            (t.reel n).tail = ((s.reel n).tail + h.count.toNat) % 2 ^ (s.reelLog n + 1) ∧
            ∀ j a, j < h.count.toNat → a = s.reelBase n + 64 * (((s.reel n).tail + j) % 2 ^ s.reelLog n) →
              s.memCheck 19 a 64 true = none → t.rawBytes a 64 = (body.drop (64 * j)).take 64)) ∧
        (h.seq = (s.reel n).cmdSeq → s.reelSource n ≠ 2 ∨ s.reelRoom n < h.count.toNat → (t.reel n).cmdSeq = (s.reel n).cmdSeq ∧
          (t.reel n).tail = (s.reel n).tail ∧ t.reg pgReels (0x300 + 4 * n) = satInc (s.reg pgReels (0x300 + 4 * n))) ∧
        (seqDiff h.seq (s.reel n).cmdSeq < 0 → (t.reel n).cmdSeq = (s.reel n).cmdSeq ∧ (t.reel n).tail = (s.reel n).tail ∧
          (t.reel n).ackOwed = true) ∧
        (0 < seqDiff h.seq (s.reel n).cmdSeq → (t.reel n).cmdSeq = (s.reel n).cmdSeq ∧ (t.reel n).tail = (s.reel n).tail ∧
          t.reg pgNet 0x128 = satInc (s.reg pgNet 0x128) ∧ SentTo s t p i 0x12 n 0 none [])) ∧
    (∀ (p : Fin 4) (h : ReelHdr) (body : List Byte) (i : Fin 256) (n : Nat), SessionFront s p 0x12 h body i → n = h.reel.toNat →
      (s.reel n).attached = some i → ∃ t, exec (.ackFrame p) s = .next t ∧ t = { s with ports := t.ports, reels := t.reels, sec := t.sec } ∧
        (∀ m, m ≠ n → t.reel m = s.reel m) ∧
        ((∀ u ∈ (s.reel n).unacked, 0 < seqDiff u.1 h.ack) → t.reel n = s.reel n) ∧
        (∀ us u, (s.reel n).unacked.filter (fun u => seqDiff u.1 h.ack ≤ 0) = us ++ [u] →
          t.reel n = { s.reel n with unacked := (s.reel n).unacked.filter (fun u => 0 < seqDiff u.1 h.ack)
                                     ctail := (u.2.1 + u.2.2.1) % 2 ^ (s.reelLog n + 1) })) ∧
    (∀ (n : Fin 32) (i : Fin 256) (p : Fin 4), (s.reel n.val).attached = some i → (s.session i.val).port = some p →
      ((s.reel n.val).ackOwed = true → ∃ t, exec (.ackSend n) s = .next t ∧
        t = { s with ports := t.ports, reels := t.reels, free := t.free } ∧ (∀ m, m ≠ n.val → t.reel m = s.reel m) ∧
        t.reel n.val = { s.reel n.val with ackOwed := false } ∧ SentTo s t p i 0x12 n.val 0 none []) ∧
      ((s.reel n.val).ackOwed = false → exec (.ackSend n) s = .next s) ∧
      (∀ (k : Nat) (a : Nat → Nat), k = min 8 (ringCount (s.reelLog n.val) (s.reel n.val).chead (s.reel n.val).sent) → 0 < k →
        s.reelSource n.val = 2 →
        a = (fun j => s.reelBase n.val + 64 * 2 ^ s.reelLog n.val + 64 * (((s.reel n.val).sent + j) % 2 ^ s.reelLog n.val)) →
        (∀ j, j < k → s.memCheck (netPort p.val) (a j) 64 false = none ∧ s.linesClean (a j) 64 = true) →
        ∃ t, exec (.cmplSend n) s = .next t ∧ t = { s with ports := t.ports, reels := t.reels } ∧
          (∀ m, m ≠ n.val → t.reel m = s.reel m) ∧
          t.reel n.val = { s.reel n.val with
            cmplSeq := (s.reel n.val).cmplSeq + 1, sent := ((s.reel n.val).sent + k) % 2 ^ (s.reelLog n.val + 1), ackOwed := false
            unacked := (s.reel n.val).unacked ++ [((s.reel n.val).cmplSeq, (s.reel n.val).sent, k, 1)] } ∧
          SentTo s t p i 0x11 n.val k (some (s.reel n.val).cmplSeq) ((List.range k).flatMap (fun j => s.rawBytes (a j) 64))) ∧
      (∀ (q : Word) (first k tries : Nat) (us : List (Word × Nat × Nat × Nat)) (a : Nat → Nat),
        (s.reel n.val).unacked = (q, first, k, tries) :: us → tries ≤ s.rn pgNet 0x10C → k ≤ 8 →
        a = (fun j => s.reelBase n.val + 64 * 2 ^ s.reelLog n.val + 64 * ((first + j) % 2 ^ s.reelLog n.val)) →
        (∀ j, j < k → s.memCheck (netPort p.val) (a j) 64 false = none ∧ s.linesClean (a j) 64 = true) →
        ∃ t, exec (.cmplRetry n) s = .next t ∧ t = { s with ports := t.ports, reels := t.reels } ∧
          (∀ m, m ≠ n.val → t.reel m = s.reel m) ∧
          t.reel n.val = { s.reel n.val with unacked := (q, first, k, tries + 1) :: us, ackOwed := false } ∧
          SentTo s t p i 0x11 n.val k (some q) ((List.range k).flatMap (fun j => s.rawBytes (a j) 64)))) ∧
    (∀ i : Fin 256, (∃ m, m < 32 ∧ (s.reel m).attached = some i) → ∃ t, exec (.sessionLost i) s = .next t ∧
      (∀ m, m < 32 → t.reel m =
        (if (s.reel m).attached = some i then { s.reel m with attached := none, ackOwed := false } else s.reel m)) ∧
      bit (t.rn pgNet 0x10) 0 = true ∧
      ((s.session i.val).isOpen = false ∨ (∃ m, m < 32 ∧ (s.reel m).attached = some i ∧
          ∃ u ∈ (s.reel m).unacked, s.rn pgNet 0x10C + 1 ≤ u.2.2.2) → t.time = s.time) ∧
      ((s.session i.val).isOpen = true → (∀ m, m < 32 → (s.reel m).attached = some i →
          ∀ u ∈ (s.reel m).unacked, u.2.2.2 < s.rn pgNet 0x10C + 1) →
        t.uptime = max s.uptime ((s.session i.val).idleFrom + 256000000 * s.rn pgNet 0x104)) ∧
      t = { s with reels := t.reels, regs := t.regs, plicPending := t.plicPending, time := t.time, uptime := t.uptime }) ∧
    (∀ i : Fin 256, (∀ m, m < 32 → (s.reel m).attached ≠ some i) → exec (.sessionLost i) s = .next s)

/-- HANDSHAKE_FRAME, FLOW_FRAME and PHASE_FRAME (R409 to R418, R422, R431): a handshake frame within HS_RATE reaches the
management core's inbox; a flow's packets make its access unit, which a sequence jump discards and the end mark writes
behind WR_BLK; a PHASE frame's samples are measurements of the axes that follow its flow. Where it rests on the model's
choices: log 47. -/
def Obligations.FlowsAndPhasesAreTakenFromFrames : Prop :=
  ∀ (s : State) (p : Fin 4),
    (∀ (f : Frame) (h : ReelHdr) (body : List Byte) (n : Nat), ReelFront s p 0x01 f h body →
      n = (if (s.port p.val).hsSecond = s.uptime / 256000000000 then (s.port p.val).hsCount else 0) →
      ∃ t, exec (.handshakeFrame p) s = .next t ∧ (t.port p.val).cmdBuf = (s.port p.val).cmdBuf.drop 1 ∧
        t = { s with ports := t.ports, sec := t.sec, regs := t.regs } ∧
        (s.rn pgCmd 0x104 ≤ n → t.sec = s.sec ∧ t.reg pgCmd (0x120 + 4 * p.val) = satInc (s.reg pgCmd (0x120 + 4 * p.val)) ∧
          OtherRegs s t [(pgCmd, 0x120 + 4 * p.val)]) ∧
        (n < s.rn pgCmd 0x104 → t.regs = s.regs ∧ (t.port p.val).hsCount = n + 1 ∧
          (t.port p.val).hsSecond = s.uptime / 256000000000 ∧
          (∀ ip, f.ip = some ip → s.sec.frags = [] → 8 ≤ body.length → beFld body 2 1 = 0 → beFld body 3 1 = 1 →
            beFld body 4 4 = (body.drop 8).length → t.sec = { s.sec with inbox := s.sec.inbox ++
              [⟨.port p, BitVec.ofNat 8 (beFld body 0 1), BitVec.ofNat 8 (beFld body 1 1), body.drop 8, f.srcMac, ip.srcIp,
                ip.srcUdp, f.secured⟩] }))) ∧
    (∀ (fr : Frame) (rest : List Frame) (e : Nat), (s.port p.val).staging = fr :: rest → s.flowOf p.val fr = some e →
      s.flowType e ≠ 6 → ∃ t, exec (.flowFrame p) s = .next t ∧ (t.port p.val).staging = rest ∧
        (ipBad fr = true → t.reg pgNet 0x120 = satInc (s.reg pgNet 0x120) ∧ t.flows = s.flows) ∧
        (ipBad fr = false → bit (s.flowNat e 1 1) 7 = true → t.flows = s.flows ∧
          t.flowNat e 104 4 = min (s.flowNat e 104 4 + 1) 0xFFFFFFFF) ∧
        (∀ k : Pkt, ipBad fr = false → bit (s.flowNat e 1 1) 7 = false → pktOf fr = some k →
          (∀ q, (s.flow e).lastSeq = some q → k.seq ≠ (q + 1) % 2 ^ k.width → (s.flow e).open_ = true →
            t.flow e = { s.flow e with
              open_ := false, data := [], fu := false, gap := true, lastSeq := some k.seq, skip := !k.last } ∧
            t.flowNat e 100 4 = min (s.flowNat e 100 4 + 1) 0xFFFFFFFF) ∧
          ((∀ q, (s.flow e).lastSeq = some q → k.seq = (q + 1) % 2 ^ k.width) → (s.flow e).skip = false →
            ∀ (bs : List Byte) (fu : Bool) (next : Nat), partOf (s.flowType e) (s.flow e) k = some (bs, fu, next) →
            ((s.flow e).open_ = true → k.last = false → t.dram = s.dram ∧ t.flow e = { s.flow e with
              lastSeq := some k.seq, data := (s.flow e).data ++ bs, fu := fu, nextOff := next
              secured := (s.flow e).secured && fr.secured.isSome }) ∧
            ((s.flow e).open_ = false → k.last = false → (t.flow e).open_ = true ∧ (t.flow e).data = bs ∧
              (t.flow e).lastSeq = some k.seq ∧ (t.flow e).firstSeq = k.seq % 65536 ∧ (t.flow e).mediaTs = k.ts ∧
              (t.flow e).gap = (s.flow e).gap) ∧
            ((s.flow e).open_ = true → k.last = true → fu = false → ∀ len room base : Nat,
              len = ((s.flow e).data ++ bs).length →
              room = 2 ^ s.flowNat e 64 1 - 1 - auUsed (s.flow e).wr (s.flow e).rd → base = s.flowNat e 56 8 % 2 ^ 40 →
              (t.flow e).open_ = false ∧ (t.flow e).lastSeq = some k.seq ∧
              (auBlocks len ≤ room → (t.flow e).auSeq = (s.flow e).auSeq + 1 ∧ (t.flow e).gap = false ∧
                t.flowNat e 92 4 = min (s.flowNat e 92 4 + 1) 0xFFFFFFFF ∧
                (s.memCheck (netPort p.val) base 4 true = none →
                  t.rawBytes base 4 = leBytes 4 ((s.flow e).wr + auBlocks len))) ∧
              (room < auBlocks len → (t.flow e).auSeq = (s.flow e).auSeq ∧ (t.flow e).gap = true ∧ t.dram = s.dram ∧
                t.flowNat e 96 4 = min (s.flowNat e 96 4 + 1) 0xFFFFFFFF))))) ∧
    (∀ (f : Frame) (rest : List Frame) (e : Nat), (s.port p.val).cmdBuf = [] → (s.port p.val).staging = f :: rest →
      s.flowOf p.val f = some e → s.flowType e = 6 →
      (∀ h body, f.payload = .reel h body → ipBad f = true ∨ hdrOk h body = false ∨ h.type ≠ 0x21) →
      ∃ t, exec (.phaseFrame p) s = .next t ∧ (t.port p.val).staging = rest ∧
        t.reg pgNet 0x120 = satInc (s.reg pgNet 0x120) ∧ t = { s with ports := t.ports, regs := t.regs }) ∧
    (∀ (f : Frame) (h : ReelHdr) (body : List Byte), ReelFront s p 0x21 f h body ∨ ((s.port p.val).cmdBuf = [] ∧
        (s.port p.val).staging.head? = some f ∧ f.payload = .reel h body ∧ ipBad f = false ∧ hdrOk h body = true ∧ h.type = 0x21 ∧
        ∃ e, s.flowOf p.val f = some e ∧ s.flowType e = 6) →
      ∃ t, exec (.phaseFrame p) s = .next t ∧
        ((s.port p.val).cmdBuf ≠ [] → (t.port p.val).cmdBuf = (s.port p.val).cmdBuf.drop 1 ∧
          (t.port p.val).staging = (s.port p.val).staging) ∧
        ((s.port p.val).cmdBuf = [] → (t.port p.val).staging = (s.port p.val).staging.drop 1) ∧
        (s.flowOf p.val f = none → t.axes = s.axes ∧ t.reg pgNet 0x12C = satInc (s.reg pgNet 0x12C)) ∧
        (∀ e, s.flowOf p.val f = some e → bit (s.flowNat e 1 1) 7 = true → t.axes = s.axes ∧
          t.flowNat e 104 4 = min (s.flowNat e 104 4 + 1) 0xFFFFFFFF) ∧
        (∀ (e n : Nat) (z T : Int), s.flowOf p.val f = some e → bit (s.flowNat e 1 1) 7 = false → h.count.toNat = 1 → n < 8 →
          z = sext 64 (beFld body 0 8) →
          T = s.extendTk ((beFld body 8 6 * 1000000000 + beFld body 14 4) % 2 ^ 32 * 256 + beFld body 18 1) →
          (s.axSource n = 6 → s.rn (pgAx n) 0x124 % 2048 = e → (∀ l, (s.axis n).lastT = some l → l < T) →
            t.axis n = { s.axis n with meas := some (s.axReduce n z, T), lastT := some T }) ∧
          (s.axSource n ≠ 6 ∨ s.rn (pgAx n) 0x124 % 2048 ≠ e → t.axis n = s.axis n)))

/-- CSI_PACKET, CLK_LOSS, ISP_PARAM_LOAD and ISP_FRAME_DONE (R437 to R445): a line is counted and reaches the ISP that names its
stream, with its time and the phase of the ISP's axis, unless it comes before the ISP is done with the last (that an ISP
buffers no more input is the model's choice, log 58); errors are counted and flagged; parameters are taken when they read
clean; a finished frame writes its enabled output's frame, record and WR_SEQ, and frees the line store. Where it rests on
the model's choices: log 48, 58. -/
def Obligations.LinesBecomeFrames : Prop :=
  ∀ (s : State),
    (∀ (p : Fin 4) (k : CsiPacket), s.pagePresent (pgCsi p.val) = false ∨ s.enabled (pgCsi p.val) = false →
      exec (.csiPacket p k) s = .next s) ∧
    (∀ p : Fin 4, s.pagePresent (pgCsi p.val) = true → s.enabled (pgCsi p.val) = true →
      (∃ t, exec (.csiPacket p .badHeader) s = .next t ∧ p.val ∈ t.csiClk ∧
        t.reg (pgCsi p.val) 0x114 = satInc (s.reg (pgCsi p.val) 0x114) ∧ bit (t.rn (pgCsi p.val) 0x10) 0 = true ∧
        OtherRegs s t [(pgCsi p.val, 0x114), (pgCsi p.val, 0x10)] ∧
        t = { s with csiClk := t.csiClk, regs := t.regs, plicPending := t.plicPending }) ∧
      (∀ (vc : BitVec 4) (fixed : Bool),
        (∃ t, exec (.csiPacket p (.frameStart vc fixed)) s = .next t ∧
          (fixed = true → t.reg (pgCsi p.val) 0x110 = satInc (s.reg (pgCsi p.val) 0x110)) ∧
          (bit (s.rn (pgCsi p.val) 0x100) (16 + vc.toNat) = false → t.isps = s.isps) ∧
          ∀ m, m ∈ s.ispsOfVc p.val vc.toNat → bit (s.rn (pgCsi p.val) 0x100) (16 + vc.toNat) = true →
            (t.isp m).active = true ∧ (t.isp m).lines = [] ∧ (t.isp m).complete = false ∧ (t.isp m).lineErr = false) ∧
        (∃ t, exec (.csiPacket p (.frameEnd vc fixed)) s = .next t ∧
          t = { s with csiClk := t.csiClk, isps := t.isps, regs := t.regs } ∧ OtherRegs s t [(pgCsi p.val, 0x110)] ∧
          t.reg (pgCsi p.val) 0x110 = (if fixed then satInc (s.reg (pgCsi p.val) 0x110) else s.reg (pgCsi p.val) 0x110) ∧
          ∀ m, m < 4 → t.isp m = (if m ∈ s.ispsOfVc p.val vc.toNat ∧ (s.isp m).active = true ∧
              bit (s.rn (pgCsi p.val) 0x100) (16 + vc.toNat) = true then
            { s.isp m with active := false, complete := !(s.isp m).lines.isEmpty } else s.isp m))) ∧
      (∀ (vc : BitVec 4) (dt : BitVec 6) (tk : Tk) (fixed crc : Bool) (vs : List (BitVec 16)),
        ∃ t, exec (.csiPacket p (.line vc dt tk fixed crc vs)) s = .next t ∧
          t.rn (pgCsi p.val) 0x10C = (s.rn (pgCsi p.val) 0x10C + 1) % 2 ^ 32 ∧
          (fixed = true → t.reg (pgCsi p.val) 0x110 = satInc (s.reg (pgCsi p.val) 0x110)) ∧
          (crc = false → t.reg (pgCsi p.val) 0x118 = satInc (s.reg (pgCsi p.val) 0x118) ∧ bit (t.rn (pgCsi p.val) 0x10) 1 = true) ∧
          (∀ (sh m : Nat) (old : List IspLine), dtShift dt.toNat = some sh → s.ispOf p.val vc.toNat dt.toNat = some m →
            bit (s.rn (pgCsi p.val) 0x100) (16 + vc.toNat) = true → s.enabled (pgIsp m) = true → s.lineEarly m tk = false →
            ((s.isp m).active = true ∧ old = (s.isp m).lines ∨ (s.isp m).active = false ∧ s.lineScan m = true ∧ old = []) →
            old.length < s.ispHeight m →
            vs.length = (if dt.toNat = 0x1E then 2 * s.ispWidth m else s.ispWidth m) →
            (t.isp m).lines = old ++ [⟨tk, s.interp (s.ispAxis m)
                (s.extendTk tk.toNat - 256 * (s.rn (pgIsp m) 0x118 / 256 : Nat)), (s.axis (s.ispAxis m)).velValid,
              vs.map (fun (v : BitVec 16) => v <<< sh)⟩] ∧ (t.isp m).lastLine = some tk ∧
            (s.lineScan m = true → old.length + 1 = s.ispHeight m → (t.isp m).complete = true ∧ (t.isp m).active = false) ∧
            (s.lineScan m = false → (t.isp m).complete = (s.isp m).complete ∧ (t.isp m).active = true) ∧
            (∀ k, k ≠ m → t.isp k = s.isp k) ∧
            ((s.isp m).active = true → (t.isp m).lineErr = ((s.isp m).lineErr || !crc) ∧
              (crc = true → fixed = false → OtherRegs s t [(pgCsi p.val, 0x10C)]) ∧
              (crc = false → t.reg (pgIsp m) 0x1A4 = satInc (s.reg (pgIsp m) 0x1A4) ∧ bit (t.rn (pgIsp m) 0x10) 2 = true))) ∧
          (∀ (sh m : Nat), dtShift dt.toNat = some sh → s.ispOf p.val vc.toNat dt.toNat = some m →
            bit (s.rn (pgCsi p.val) 0x100) (16 + vc.toNat) = true → s.enabled (pgIsp m) = true → (s.isp m).active = true →
            s.ispHeight m ≤ (s.isp m).lines.length ∨ s.lineEarly m tk = true →
            t.isp m = { s.isp m with lineErr := true } ∧ t.reg (pgIsp m) 0x1A4 = satInc (s.reg (pgIsp m) 0x1A4) ∧
              bit (t.rn (pgIsp m) 0x10) 2 = true) ∧
          (dtShift dt.toNat = none ∨ s.ispOf p.val vc.toNat dt.toNat = none ∨
              bit (s.rn (pgCsi p.val) 0x100) (16 + vc.toNat) = false → t.isps = s.isps ∧
            t.reg (pgCsi p.val) 0x11C = satInc (s.reg (pgCsi p.val) 0x11C)))) ∧
    (∀ p : Fin 4, (p.val ∈ s.csiClk → ∃ t, exec (.clkLoss p) s = .next t ∧ p.val ∉ t.csiClk ∧
        bit (t.rn (pgCsi p.val) 0x10) 2 = true ∧ (∀ q, q ≠ p.val → (q ∈ t.csiClk ↔ q ∈ s.csiClk)) ∧
        OtherRegs s t [(pgCsi p.val, 0x10)] ∧
        t = { s with csiClk := t.csiClk, regs := t.regs, plicPending := t.plicPending }) ∧
      (p.val ∉ s.csiClk → exec (.clkLoss p) s = .next s)) ∧
    (∀ (m : Fin 4) (r : Resp) (a : Nat), (s.isp m.val).wantParams = true → a = s.rn (pgIsp m.val) 0x11C % 2 ^ 28 * 4096 →
      s.memCheck (8 + m.val) a 29192 false = none → s.linesClean a 29192 = true →
      ∃ t, exec (.ispParamLoad m r) s = .next t ∧ (t.isp m.val).wantParams = false ∧ (∀ k, k ≠ m.val → t.isp k = s.isp k) ∧
        (r = .ok ∨ r = .corrupt → t = { s with isps := t.isps }) ∧
        (r = .ok ∨ r = .corrupt ∨ r = .corrected →
          t.isp m.val = { s.isp m.val with wantParams := false, params := s.rawBytes a 29192 }) ∧
        (r = .error ∨ r = .poisoned → (t.isp m.val).params = (s.isp m.val).params) ∧
        (r = .error → t = { s with isps := t.isps }) ∧
        (r = .poisoned → bit (s.rn (pgIsp m.val) 0x18) 31 = false → bits (t.rn (pgIsp m.val) 0x18) 7 0 = 0x0A)) ∧
    (∀ (m : Fin 4), (s.isp m.val).wantParams = false → ∀ r, exec (.ispParamLoad m r) s = .next s) ∧
    (∀ (m : Fin 4), (s.isp m.val).complete = false → exec (.ispFrameDone m) s = .next s) ∧
    (∀ (m : Fin 4), (s.isp m.val).complete = true →
      ∃ t, exec (.ispFrameDone m) s = .next t ∧ (t.isp m.val).complete = false ∧ (t.isp m.val).lines = [] ∧
        (t.isp m.val).lineErr = false ∧ (∀ k, k ≠ m.val → t.isp k = s.isp k) ∧
        t.rn (pgIsp m.val) 0x1A0 = (s.rn (pgIsp m.val) 0x1A0 + 1) % 2 ^ 32 ∧ bit (t.rn (pgIsp m.val) 0x10) 0 = true ∧
        (∀ (k count : Nat) (o : OutDesc), k < 3 → bit (s.outW m.val k 0) 0 = true → (s.isp m.val).skips.getD k false = false →
          (∀ j, j < 3 → j ≠ k → bit (s.outW m.val j 0) 0 = false) → o = s.ispOut m.val k → count = (s.isp m.val).wr.getD k 0 →
          k < (s.isp m.val).wr.length →
          (t.isp m.val).wr = (s.isp m.val).wr.set k (count + 1) ∧ t.outW m.val k 0x14 = (count + 1) % 65536 ∧
          (o.clmem = none → s.memCheck o.port o.base 4 true = none → t.rawBytes o.base 4 = leBytes 4 (count + 1)) ∧
          (∀ got : List Nat, o.clmem = none → o.format ≠ 3 → s.ispExact m.val o = true → s.lineTbl m.val = false →
            got = (s.isp m.val).lines.flatMap (fun l => l.samples.map (fun v => v.toNat - s.rn (pgIsp m.val) 0x108 % 65536)) →
            got.length = o.width * o.height * o.channels → 0 < o.frameBytes →
            s.memCheck o.port (o.base + 2048 + count % o.nbuf * o.stride) (pad1K o.frameBytes) true = none →
            t.rawBytes (o.base + 2048 + count % o.nbuf * o.stride) o.frameBytes =
              (outPixels o (o.width * o.height) got).1)))

/-- DECODE_PICTURE, ENCODE_FRAME and TRK_FRAME (R446 to R462): the context with the oldest complete access unit has it worked on
and RD_BLK passes it, an access unit with a gap counts as an error; an encoder takes its source's next frame once, and drops
one that is overwritten; TRK discards a list that R453 refuses, and a detection in a free context is born as a track. Where
it rests on the model's choices: log 49, 50. -/
def Obligations.CodecsAndTracksTakeTheirFrames : Prop :=
  (∀ (s : State) (v : Fin 2) (c wr rd base n : Nat) (x : Int) (hd : List Byte), s.pagePresent (pgVc v.val) = true →
    s.enabled (pgVc v.val) = true → s.vcChoose v.val (s.vcIds v.val) = some (c, wr, rd, x) → s.vcRing v.val c = some (base, n) →
    s.memCheck (vcPort v.val) (auBlock base n rd) 64 false = none → s.isPoison (auBlock base n rd) 64 = false →
    hd = s.rawBytes (auBlock base n rd) 64 →
    ∃ t, exec (.decodePicture v) s = .next t ∧
      (s.memCheck (vcPort v.val) (base + 64) 4 true = none →
        t.rawBytes (base + 64) 4 = leBytes 4 (rd + min (auBlocks (fld hd 0 4)) (auUsed wr rd))) ∧
      t.vcNat v.val c 108 4 = fld hd 4 4 ∧
      (bit (fld hd 13 1) 0 = true → (t.vcCtx v.val c).lost = true ∧
        t.vcNat v.val c 104 4 = min (s.vcNat v.val c 104 4 + 1) 0xFFFFFFFF ∧
        t.reg (pgVc v.val) 0x110 = satInc (s.reg (pgVc v.val) 0x110) ∧ bit (t.rn (pgVc v.val) 0x10) 1 = true)) ∧
  (∀ (s : State) (v : Fin 2), s.vcChoose v.val (s.vcIds v.val) = none → exec (.decodePicture v) s = .next s) ∧
  (∀ (s : State) (v : Fin 2) (c : Fin 1024) (src seq wr : Nat), s.pagePresent (pgVc v.val) = true → s.enabled (pgVc v.val) = true →
    s.vcMode v.val c.val = 3 → src = s.vcNat v.val c.val 8 8 → s.memCheck (vcPort v.val) src 64 false = none →
    s.linesClean src 64 = true → wr = fld (s.rawBytes src 64) 0 4 → seq = (s.vcCtx v.val c.val).srcSeq →
    (wr = seq % 2 ^ 32 → exec (.encodeFrame v c) s = .next s) ∧
    (wr ≠ seq % 2 ^ 32 → ∃ t, exec (.encodeFrame v c) s = .next t ∧ (t.vcCtx v.val c.val).srcSeq = seq + 1 ∧
      (∀ o, s.nv12At src = some o → o.nbuf < auUsed wr (seq % 2 ^ 32) → t.dram = s.dram ∧
        t.vcNat v.val c.val 100 4 = min (s.vcNat v.val c.val 100 4 + 1) 0xFFFFFFFF ∧
        t.reg (pgVc v.val) 0x10C = satInc (s.reg (pgVc v.val) 0x10C) ∧ bit (t.rn (pgVc v.val) 0x10) 2 = true))) ∧
  (∀ (s : State) (v : Fin 2) (c : Fin 1024), s.pagePresent (pgVc v.val) = false ∨ s.enabled (pgVc v.val) = false ∨
    s.vcMode v.val c.val ≠ 3 → exec (.encodeFrame v c) s = .next s) ∧
  (∀ (s : State) (f : Fin 16), f.val ∉ s.trkDue → exec (.trkFrame f) s = .next s) ∧
  (∀ (s : State) (f : Fin 16), f.val ∈ s.trkDue → s.enabled pgTrk = false ∨ bit (s.feedW f.val 0) 0 = false ∨
    s.job? (BitVec.ofNat 16 (s.feedW f.val 1)) = none → exec (.trkFrame f) s = .next { s with trkDue := delN s.trkDue f.val }) ∧
  (∀ (s : State) (f : Fin 16) (j : Job) (a : Nat) (h : DetHead) (hb : List Byte), f.val ∈ s.trkDue →
    s.job? (BitVec.ofNat 16 (s.feedW f.val 1)) = some j →
    s.enabled pgTrk = true → bit (s.feedW f.val 0) 0 = true → a = j.areaPart (4 + j.half) + s.feedW f.val 2 →
    s.feedW f.val 2 + 64 ≤ s.shTakeBuf j.slot.val → s.memCheck 18 a 64 false = none → s.linesClean a 64 = true →
    s.tagsOk a 64 = true → hb = s.rawBytes a 64 → h = ⟨fld hb 0 4, fld hb 4 4, fldS hb 8 8, fldS hb 16 8, fld hb 24 5⟩ →
    ∃ t, exec (.trkFrame f) s = .next t ∧ (∀ x, x ∈ t.trkDue ↔ x ∈ s.trkDue ∧ x ≠ f.val) ∧
      (1024 < h.count ∨ s.shTakeBuf j.slot.val < s.feedW f.val 2 + 64 + 96 * h.count →
        t.reg pgTrk 0x10C = satInc (s.reg pgTrk 0x10C) ∧ bit (t.rn pgTrk 0x10) 1 = true ∧ t.dram = s.dram ∧
        OtherRegs s t [(pgTrk, 0x10), (pgTrk, 0x10C)]) ∧
      (∀ (b : Nat) (old : Trk) (d : Det), h.count = 1 → s.feedW f.val 2 + 160 ≤ s.shTakeBuf j.slot.val →
        s.memCheck 18 (a + 64) 96 false = none → s.isPoison (a + 64) 96 = false → s.tagsOk (a + 64) 96 = true →
        d = detOf (s.rawBytes (a + 64) 96) → b = s.partBase f.val → s.partCount f.val = 1 →
        s.memCheck 18 (s.trkAddr b) 128 false = none → s.isPoison (s.trkAddr b) 128 = false →
        s.tagsOk (s.trkAddr b) 128 = true → old = trkOf (s.rawBytes (s.trkAddr b) 128) → old.st = 0 →
        loH (s.feedW f.val 7) ≤ d.score → (∀ r, r < 16 → bit (s.ruleW r 0) 0 = false) →
        s.memCheck 18 (s.trkAddr b) 128 true = none →
        t.rawBytes (s.trkAddr b) 128 = (old.born f.val (bits (s.feedW f.val 0) 15 8) h d).bytes b ∧
        t.rn pgTrk 0x108 = (s.rn pgTrk 0x108 + 1) % 2 ^ 32 ∧ bit (t.rn pgTrk 0x10) 0 = true ∧ t.cues = s.cues))

/-- DAILY_START, DAILY_COMPLETE, DAILY_OVERDUE, PACK_VERIFY and HEALTH_WRITE (R489, R490, R493 to R498): an idle unit that is
due runs its daily; a pass counts and can bring it back to healthy, a failure retires it; every result is reported; a busy
unit overdue is flagged; a signed pack of no lower version comes into force; a written state holds at once with PASSES 0.
Where it rests on the model's choices: log 29. -/
def Obligations.DailiesAndHealth : Prop :=
  ∀ (s : State) (u : Fin 142),
    (s.unitHere u.val = true → (s.healthOf u.val).st ≠ 3 → (s.healthOf u.val).running = false → s.sec.pack ≠ none →
      (s.healthOf u.val).withheld = true ∨ (s.dailyEn = true ∧ s.dueFrom u.val ≤ s.uptime) → s.unitIdle u.val = true →
      ∃ t, exec (.dailyStart u) s = .next t ∧ t.healthOf u.val = { s.healthOf u.val with running := true } ∧
        (∀ k, k ≠ u.val → t.healthOf k = s.healthOf k) ∧
        (u.val < 128 → (t.core u.val).daily = true ∧ (t.core u.val).mode = .running ∧ (t.core u.val).icache = []) ∧
        (∀ n, n ≠ u.val → t.core n = s.core n) ∧ t = { s with health := t.health, cores := t.cores }) ∧
    (s.unitIdle u.val = false → exec (.dailyStart u) s = .next s) ∧
    (∀ (tests : BitVec 16) (dur : Word) (p st : Nat), (s.healthOf u.val).running = true →
      (u.val < 128 → (s.core u.val).daily = true ∧ (s.core u.val).mode ≠ .stopped) → p = min 255 ((s.healthOf u.val).passes + 1) →
      st = (if ((s.healthOf u.val).st = 1 ∨ (s.healthOf u.val).st = 2) ∧ 96 ≤ p then 0 else (s.healthOf u.val).st) →
      ∃ t, exec (.dailyComplete u .pass tests dur) s = .next t ∧
        t.healthOf u.val = { s.healthOf u.val with
          st := st, passes := p, lastDaily := some s.uptime, overdue := false, withheld := false, running := false } ∧
        (∀ k, k ≠ u.val → t.healthOf k = s.healthOf k) ∧ (u.val < 128 → (t.core u.val).mode = .idle) ∧
        t.rn pgHealth 0x128 = (s.rn pgHealth 0x128 + 1) % 2 ^ 32 ∧
        (∀ a : Nat, bit (s.rn pgHealth 0x118) 31 = true →
          ringFull (s.rn pgHealth 0x11C) (s.rn pgHealth 0x120) (s.rn pgHealth 0x118 % 16) = false →
          a = s.rn pgHealth 0x114 % 2 ^ 28 * 4096 + 64 * (s.rn pgHealth 0x11C % 2 ^ (s.rn pgHealth 0x118 % 16)) →
          t.rn pgHealth 0x11C = (s.rn pgHealth 0x11C + 1) % 2 ^ (s.rn pgHealth 0x118 % 16 + 1) ∧
          (s.memCheck 22 a 64 true = none →
            t.rawBytes a 6 = leBytes 1 1 ++ leBytes 1 (s.healthOf u.val).st ++ leBytes 1 st ++ leBytes 1 0 ++ leBytes 2 u.val)) ∧
        (bit (s.rn pgHealth 0x118) 31 = false → t.dram = s.dram ∧ t.reg pgHealth 0x124 = satInc (s.reg pgHealth 0x124) ∧
          bit (t.rn pgHealth 0x10) 2 = true)) ∧
    (∀ (r : DailyResult) (tests : BitVec 16) (dur : Word), r ≠ .pass → (s.healthOf u.val).running = true →
      (u.val < 128 → (s.core u.val).daily = true) → ∃ t, exec (.dailyComplete u r tests dur) s = .next t ∧
        (t.healthOf u.val).st = 3 ∧ (t.healthOf u.val).passes = 0 ∧ (t.healthOf u.val).running = false ∧
        (t.healthOf u.val).lastDaily = some s.uptime ∧ t.reg pgHealth 0x12C = satInc (s.reg pgHealth 0x12C) ∧
        bit (t.rn pgHealth 0x10) 1 = true) ∧
    (s.unitHere u.val = true → (s.healthOf u.val).st ≠ 3 → s.dailyEn = true → (s.healthOf u.val).running = false →
      s.unitIdle u.val = false → (s.healthOf u.val).overdue = false → s.dueFrom u.val + s.dailyInt u.val < s.uptime →
      ∃ t, exec (.dailyOverdue u) s = .next t ∧ t.healthOf u.val = { s.healthOf u.val with overdue := true } ∧
        (∀ k, k ≠ u.val → t.healthOf k = s.healthOf k) ∧ bit (t.rn pgHealth 0x10) 3 = true ∧ OtherRegs s t [(pgHealth, 0x10)] ∧
        t = { s with health := t.health, regs := t.regs, plicPending := t.plicPending }) ∧
    (∀ (a len ver old : Nat) (bs : List Byte) (good : Bool), s.sec.packBusy = true → a = s.rn pgHealth 0x10C % 2 ^ 28 * 4096 →
      s.memCheck 22 a 64 false = none → s.linesClean a 64 = true →
      len = max 64 (min (fld (s.rawBytes a 64) 16 4) (s.fuse.grade.dramEnd - a)) →
      s.memCheck 22 a len false = none → s.linesClean a len = true → bs = s.rawBytes a len → ver = fld bs 4 2 →
      old = (s.sec.pack.map (·.1)).getD 0 →
      good = (trailerOk "WQ-PACK" (bs.take (len - trailerLen)) (bs.drop (len - trailerLen)) &&
        s.makerKey ((bs.drop (len - trailerLen)).take pubLen)) →
      ∃ t, exec .packVerify s = .next t ∧ t.sec.packBusy = false ∧ t = { s with sec := t.sec, regs := t.regs } ∧
        OtherRegs s t [(pgHealth, 0x110)] ∧
        (good = true → packBad bs len = false → old ≤ ver → t.rn pgHealth 0x110 = 1 + 65536 * ver ∧
          t.sec.pack = some (ver, BitVec.ofNat 64 (fld bs 8 8), (bs.drop 64).take (32 * fld bs 6 2)) ∧
          t.sec.meas = s.sec.meas.set 5 (Config.sha3 (digestBytes (s.sec.meas.getD 5 0) ++ digestBytes (Config.sha3 bs)))) ∧
        (good = false ∨ packBad bs len = true ∨ ver < old → t.sec = { s.sec with packBusy := false } ∧
          bits (t.rn pgHealth 0x110) 15 8 = (if good = false then 1 else if packBad bs len = true then 2 else 3))) ∧
    (s.sec.packBusy = false → exec .packVerify s = .next s) ∧
    (∀ (who : Requester) (v : Word) (r : Row), Opens s who pgHealth (0x800 + 4 * u.val) .health 0 r → s.unitHere u.val = true →
      ∃ t, exec (.healthWrite who u v) s = .next t ∧ t.accepted ∧
        t.healthOf u.val = { s.healthOf u.val with st := v.toNat % 4, passes := 0 } ∧
        (∀ k, k ≠ u.val → t.healthOf k = s.healthOf k) ∧
        ((s.healthOf u.val).st ≠ v.toNat % 4 → bit (t.rn pgHealth 0x10) 0 = true) ∧
        (∀ p, v.toNat % 4 = 3 → unitPage u.val = some p → s.pagePresent p = true →
          t.enabled p = false ∧ (s.enabled p = true → t.armed p = false)))

/-- HELLO, OFFER, ACCEPT, DONE, HS_TIMEOUT, CLOSE, SESS_CLOSE, SESSION_LIFETIME_EXPIRY, MBOX_CMD, REKEY and REKEY_TX_SWITCH
(R401, R428, R540 to R545, R562): a handshake runs to an open session, with SAK_0 on a link, or ends with its status or in
time; a session closes for the four causes; a hart's message reaches the inbox; the next SAK is installed and then sent
with. Where it rests on the model's choices: log 6, 40. -/
def Obligations.SessionsOpenAndClose : Prop :=
  ∀ (s : State),
    (∀ (o : HsOrigin) (m : HsMsg) (rest : List HsMsg), MsgFront s o 0x01 m rest →
      (m.body.length = 36 → beFld m.body 3 1 = 0 → beFld m.body 2 1 ≤ 1 → (∀ h ∈ s.sec.hands, h.isOf m = false) →
        ∃ (t : State) (h : Handshake), exec (.hello o) s = .next t ∧ t = { s with sec := t.sec } ∧ t.sec.inbox = rest ∧
          t.sec.hands = s.sec.hands ++ [h] ∧ h.hello = m.body ∧ h.offer = [] ∧ h.accepted = false ∧ h.started = s.uptime ∧
          h.origin = m.origin ∧ h.hsId = m.hsId ∧ h.role = roleOfNum (beFld m.body 0 1) ∧ h.keySlot = beFld m.body 1 1 ∧
          h.status = s.helloStatus m.origin (beFld m.body 1 1) (beFld m.body 0 1) (bit (beFld m.body 2 1) 0) ∧
          (h.status = 0 → ∃ i : Fin 256, h.session = some i ∧ i.val ≠ 0 ∧ (s.session i.val).isOpen = false ∧
            (∀ k ∈ s.sec.hands, k.session ≠ some i) ∧ (t.session i.val).gen = (s.session i.val).gen + 1 ∧
            h.gen = (t.session i.val).gen) ∧
          (h.status ≠ 0 → h.session = none ∧ t.sec.sessions = s.sec.sessions)) ∧
      (m.body.length ≠ 36 ∨ beFld m.body 3 1 ≠ 0 ∨ 1 < beFld m.body 2 1 →
        exec (.hello o) s = .next { s with sec := { s.sec with inbox := rest } })) ∧
    (∀ (o : HsOrigin) (id : Byte) (h : Handshake) (rest : List Handshake), HandFront s o id (fun x => x.offer = []) h rest →
      ∃ t, exec (.offer o id) s = .next t ∧ t.sec.sessions = s.sec.sessions ∧ MessageSent s t o 6235 ∧
        (h.status ≠ 0 → t.sec.hands = rest) ∧
        (h.status = 0 → ∃ (m : List Byte) (n : Nat), m.length = 6235 ∧ t.sec.hands = s.sec.hands.map (fun x =>
          if x.origin = h.origin ∧ x.hsId = h.hsId ∧ x.mac = h.mac ∧ x.ip = h.ip ∧ x.udp = h.udp then
            { h with offer := m, kem := n } else x))) ∧
    (∀ (o : HsOrigin) (m : HsMsg) (rest : List HsMsg) (h : Handshake) (th2 : Digest), MsgFront s o 0x03 m rest →
      s.sec.hands = [h] → h.isOf m = true → h.offer ≠ [] → h.accepted = false →
      th2 = Config.sha3 (h.hello ++ h.offer ++ m.body.take (m.body.length - 4627)) →
      ∃ t, exec (.accept o) s = .next t ∧ t.sec = { s.sec with
        inbox := rest
        hands := [{ h with
          accepted := true, status := if h.status = 0 then s.acceptStatus h m.body th2 else h.status, th2 := th2, sc := m.sc
          k := sessionKey (fitBytes 32 (Config.kemDecaps h.kem ((m.body.drop 4).take 1568))) th2 }] } ∧
        t = { s with sec := t.sec }) ∧
    (∀ (o : HsOrigin) (id : Byte) (h : Handshake) (rest : List Handshake) (i : Fin 256),
      HandFront s o id (fun x => x.accepted = true) h rest → h.session = some i →
      (h.status = 0 → s.slotDigest h.keySlot = some h.keyDigest → ∃ t, exec (.done o id) s = .next t ∧ t.sec.hands = rest ∧
        MessageSent s t o 44 ∧ (t.session i.val).isOpen = true ∧ (t.session i.val).role = h.role ∧
        (t.session i.val).gen = h.gen ∧ (t.session i.val).k = h.k ∧ (t.session i.val).link = h.link ∧
        (t.session i.val).mac = h.mac ∧ (t.session i.val).ip = h.ip ∧ (t.session i.val).udp = h.udp ∧
        (t.session i.val).opened = s.uptime ∧ bit (t.rn pgSess 0x10) 0 = true ∧
        (∀ n, o = .hart n → t.hartSession n.val = i) ∧
        (∃ es e, t.sec.staged = s.sec.staged ++ es ++ [e] ∧ e.event = 5 ∧ e.session = i.val ∧ e.role = roleNum h.role) ∧
        (∀ p, o = .port p → h.link = true → (t.port p.val).linkSession = some i ∧
          (t.port p.val).txSa = some ⟨0, sakOf h.k 0, 1⟩ ∧ (t.port p.val).rxSas = [⟨0, sakOf h.k 0, 1⟩] ∧
          bit (t.rn pgMacsec (0x100 + 4 * p.val)) 0 = true)) ∧
      (h.status ≠ 0 ∨ s.slotDigest h.keySlot ≠ some h.keyDigest → ∃ t, exec (.done o id) s = .next t ∧
        t.sec.hands = rest ∧ t.sec.sessions = s.sec.sessions ∧ MessageSent s t o 44)) ∧
    (∀ (o : HsOrigin) (id : Byte) (h : Handshake) (rest : List Handshake), HandFront s o id (fun _ => True) h rest →
      ∃ t, exec (.hsTimeout o id) s = .next t ∧ t.sec.hands = rest ∧ t.sec.sessions = s.sec.sessions ∧
        t.uptime = max s.uptime (h.started + 256000000 * s.rn pgSess 0x100) ∧
        MessageSent s t o (if h.offer = [] then 6235 else 44)) ∧
    (∀ (o : HsOrigin) (m : HsMsg) (rest : List HsMsg), MsgFront s o 0x05 m rest →
      (∀ i, s.tagged m 8 = some i → ∃ t, exec (.close o) s = .next t ∧ SessionClosed s t i 1 ∧ t.sec.inbox = rest) ∧
      (s.tagged m 8 = none → exec (.close o) s = .next { s with sec := { s.sec with inbox := rest } })) ∧
    (∀ (who : Requester) (v : Word) (r : Row) (i : Fin 256), Opens s who pgSess 0x108 .sess 0 r → v.toNat % 256 = i.val → i.val ≠ 0 →
      (s.session i.val).isOpen = true → ∃ t, exec (.sessClose who v) s = .next t ∧ t.accepted ∧ SessionClosed s t i 2) ∧
    (∀ i : Fin 256, i.val ≠ 0 → (s.session i.val).isOpen = true → ∃ t, exec (.sessionLifetimeExpiry i) s = .next t ∧
      SessionClosed s t i 4 ∧ t.uptime = max s.uptime ((s.session i.val).opened + 256000000000 * s.rn pgSess 0x104)) ∧
    (∀ i : Fin 256, i.val = 0 ∨ (s.session i.val).isOpen = false → exec (.sessionLifetimeExpiry i) s = .next s) ∧
    (∀ (h : Fin 8) (r : Row) (a len : Nat) (b : List Byte), Opens s (.hart h) pgSess 0x114 .sess 0 r →
      a = (mapGet s.sec.mboxAddr h.val 0).toNat % 2 ^ 28 * 4096 → s.memCheck 22 a 8 false = none → s.linesClean a 8 = true →
      len = beFld (s.rawBytes a 8) 4 4 → s.memCheck 22 (a + 8) len false = none → s.linesClean (a + 8) len = true →
      b = s.rawBytes a 8 ++ s.rawBytes (a + 8) len → s.sec.frags = [] → beFld b 2 1 = 0 → beFld b 3 1 = 1 →
      ∃ t, exec (.mboxCmd (.hart h) 1) s = .next t ∧ t.accepted ∧ h.val ∉ t.sec.mboxReply ∧
        t.sec.inbox = s.sec.inbox ++ [⟨.hart h, BitVec.ofNat 8 (beFld b 0 1), BitVec.ofNat 8 (beFld b 1 1), b.drop 8, 0, 0, 0, none⟩] ∧
        t = { s with sec := t.sec, rsp := t.rsp }) ∧
    (∀ (p : Fin 4) (sa : Sa) (i : Fin 256), (s.port p.val).txSa = some sa → (s.port p.val).linkSession = some i →
      (0xF0000000 ≤ sa.pn → (s.port p.val).txNext = none → ∃ t, exec (.rekey p) s = .next t ∧
        (t.port p.val).txNext = some ⟨(sa.an + 1) % 2, sakOf (s.session i.val).k ((s.port p.val).rekeyN + 1), 1⟩ ∧
        (t.port p.val).rekeyN = (s.port p.val).rekeyN + 1 ∧ (t.port p.val).txSa = some sa ∧
        ⟨(sa.an + 1) % 2, sakOf (s.session i.val).k ((s.port p.val).rekeyN + 1), 1⟩ ∈ (t.port p.val).rxSas ∧
        (t.port p.val).egress.length = (s.port p.val).egress.length + 1 ∧ t = { s with ports := t.ports, free := t.free }) ∧
      (sa.pn < 0xF0000000 → exec (.rekey p) s = .next s)) ∧
    (∀ (p : Fin 4) (sa : Sa), (s.port p.val).txNext = some sa → ∃ t, exec (.rekeyTxSwitch p) s = .next t ∧
      t.port p.val = { s.port p.val with txSa := some sa, txNext := none } ∧ (∀ q, q ≠ p.val → t.port q = s.port q) ∧
      t.rn pgMacsec (0x110 + 4 * p.val) = sa.an % 2 ^ 32 ∧ t = { s with ports := t.ports, regs := t.regs })

/-- ATTEST_REQ, ATT_REQ, ATTEST_RSP, MEAS_EXTEND, FW_INSTALL, DEBUG_TOKEN, JTAG_INSTRUCTION and AUDIT_FLASH_PROGRAM (R547, R550,
R552 to R560): requests wait in order and the oldest is answered with its report; a measurement is extended; an image that
verifies goes into the other set; a token's scopes unlock; audit entries reach flash in order, each 256th with a checkpoint.
Where it rests on the model's choices: log 6, 20, 41. -/
def Obligations.ProofsOfIdentityAndFirmware : Prop :=
  ∀ (s : State),
    (∀ (o : HsOrigin) (m : HsMsg) (rest : List HsMsg) (i : Fin 256), MsgFront s o 0x06 m rest → s.tagged m 40 = some i →
      beFld m.body 4 1 ≤ 1 → beFld m.body 5 3 = 0 → exec (.attestReq o) s = .next { s with sec := { s.sec with
        inbox := rest
        att := s.sec.att ++ [⟨some o, m.hsId, (m.body.drop 8).take 32, bit (beFld m.body 4 1) 0, 0, m.mac, m.ip, m.udp⟩] } }) ∧
    (∀ (o : HsOrigin) (m : HsMsg) (rest : List HsMsg), MsgFront s o 0x06 m rest → s.tagged m 40 = none →
      exec (.attestReq o) s = .next { s with sec := { s.sec with inbox := rest } }) ∧
    (∀ (who : Requester) (v : Word) (r : Row) (a : Nat), Opens s who pgAttest 0x100 .attest 0 r → a = v.toNat % 2 ^ 28 * 4096 →
      s.memCheck 22 a 32 false = none → s.linesClean a 32 = true → ∃ t, exec (.attReq who v) s = .next t ∧ t.accepted ∧
        t.sec.att = s.sec.att ++ [⟨none, 0, s.rawBytes a 32, false, a, 0, 0, 0⟩] ∧ t.rn pgAttest 0x104 = 0 ∧
        OtherRegs s t [(pgAttest, 0x104)] ∧ t = { s with regs := t.regs, sec := t.sec, rsp := t.rsp }) ∧
    (∀ (q : AttReq) (qs : List AttReq), s.sec.att = q :: qs → ∃ t, exec .attestRsp s = .next t ∧ t.sec.att = qs ∧
      (∀ o, q.origin = some o → (∀ p, o = .port p → t.dram = s.dram ∧
        (s.port p.val).egress.length < (t.port p.val).egress.length) ∧ (∀ h, o = .hart h → h.val ∈ t.sec.mboxReply)) ∧
      (q.origin = none → ∀ n, n = (s.report q.nonce).length + trailerLen →
        t.rn pgAttest 0x104 = (2 + 65536 * n) % 2 ^ 32 ∧
        (s.memCheck 22 q.buffer n true = none → t.rawBytes q.buffer (s.report q.nonce).length = s.report q.nonce))) ∧
    (s.sec.att = [] → exec .attestRsp s = .next s) ∧
    (∀ (who : Requester) (v : Word) (r : Row) (a : Nat), Opens s who pgAttest 0x108 .attest 0 r → a = v.toNat % 2 ^ 28 * 4096 →
      s.memCheck 22 a 64 false = none → s.linesClean a 64 = true → ∃ t, exec (.measExtend who v) s = .next t ∧ t.accepted ∧
        t.sec.meas = s.sec.meas.set 7 (Config.sha3 (digestBytes (s.sec.meas.getD 7 0) ++
          digestBytes (BitVec.ofNat 512 (leNat (s.rawBytes a 64))))) ∧ t = { s with sec := t.sec, rsp := t.rsp }) ∧
    (∀ (who : Requester) (v : Word) (r : Row) (a n set : Nat) (b : List Byte), Opens s who pgSec 0x108 .sec 0 r →
      a = v.toNat % 2 ^ 28 * 4096 → s.memCheck 22 a 256 false = none → s.linesClean a 256 = true →
      n = fld (s.rawBytes a 256) 8 4 → fwLenOk n = true → s.memCheck 22 a n false = none → s.linesClean a n = true →
      b = s.rawBytes a n → set = 1 - s.bootSet → ∃ t, exec (.fwInstall who v) s = .next t ∧ t.accepted ∧
        bit (t.rn pgSec 0x10) 0 = true ∧ t = { s with sec := t.sec, regs := t.regs, plicPending := t.plicPending, rsp := t.rsp,
                                                       free := t.free } ∧
        (s.fwStatus b ≠ 0 → t.rn pgSec 0x10C = 2 + 16 * s.fwStatus b ∧ t.sec.flashFw = s.sec.flashFw ∧ t.sec.trySet = s.sec.trySet) ∧
        (s.fwStatus b = 0 →
          (t.rn pgSec 0x10C = 2 + 16 * 4 ∧ t.sec.flashFw = s.sec.flashFw ∧ t.sec.trySet = s.sec.trySet) ∨
          (t.rn pgSec 0x10C = 2 ∧ t.sec.flashFw = mapPut s.sec.flashFw (4 * set + fld b 4 1 - 1) b ∧ t.sec.trySet = some set ∧
            ∃ es e, t.sec.staged = s.sec.staged ++ es ++ [e] ∧ e.event = 9))) ∧
    (∀ (who : Requester) (v : Word) (b : List Byte),
      (s.tokenStatus b ≠ 0 → ∃ t, exec (.debugToken (some b) who v) s = .next t ∧ t = { s with regs := t.regs } ∧
        OtherRegs s t [(pgSec, 0x134)] ∧ t.rn pgSec 0x134 = s.sec.dbgScopes.toNat + 16 * s.tokenStatus b) ∧
      (s.tokenStatus b = 0 → ∃ t, exec (.debugToken (some b) who v) s = .next t ∧
        t.sec.dbgScopes = s.sec.dbgScopes ||| BitVec.ofNat 4 (fld b 4 4) ∧ t.sec.nonceCount = s.sec.nonceCount + 1 ∧
        t.rn pgSec 0x134 = t.sec.dbgScopes.toNat ∧
        t.sec.meas = s.sec.meas.set 6 (Config.sha3 (digestBytes (s.sec.meas.getD 6 0) ++ digestBytes (Config.sha3 b))) ∧
        (∃ es e, t.sec.staged = s.sec.staged ++ es ++ [e] ∧ e.event = 11 ∧ e.value = w32 (fld b 4 4)) ∧
        (bit (fld b 4 4) 3 = false → t.sec.sessions = s.sec.sessions ∧ t.sec.deviceKeyOk = s.sec.deviceKeyOk) ∧
        (bit (fld b 4 4) 3 = true → t.sec.deviceKeyOk = false ∧ t.sec.secDebugSince = true ∧
          ∀ i : Fin 256, i.val ≠ 0 → (t.session i.val).isOpen = false))) ∧
    (∀ (who : Requester) (v : Word) (r : Row) (a : Nat) (b : List Byte), Opens s who pgSec 0x130 .sec 0 r →
      a = v.toNat % 2 ^ 28 * 4096 → s.memCheck 22 a (72 + trailerLen) false = none → s.linesClean a (72 + trailerLen) = true →
      b = s.rawBytes a (72 + trailerLen) → ∃ t, exec (.debugToken none who v) s = .next t ∧ t.accepted ∧
        (s.tokenStatus b ≠ 0 → t.rn pgSec 0x134 = s.sec.dbgScopes.toNat + 16 * s.tokenStatus b ∧
          t.sec.dbgScopes = s.sec.dbgScopes) ∧
        (s.tokenStatus b = 0 → t.sec.dbgScopes = s.sec.dbgScopes ||| BitVec.ofNat 4 (fld b 4 4))) ∧
    (∀ i : JtagInstr, exec (.jtagInstruction i) s = .next { s with sec := { s.sec with
      jtag := if s.jtagOpen i = true then i else .bypass } }) ∧
    (∀ (e : AuditEntry) (es : List AuditEntry), s.sec.staged = e :: es →
      (∃ t, exec (.auditFlashProgram true) s = .next t ∧ t.sec.staged = es ∧ t.sec.flash = lastN 65536 (s.sec.flash ++ [e]) ∧
        t.sec.auditFail = s.sec.auditFail ∧ t = { s with sec := t.sec, free := t.free } ∧
        (e.seq.toNat % 256 = 255 → ∃ tr : List Byte, tr.length = trailerLen ∧
          mapGet? t.sec.checkpoints (e.seq.toNat / 256 % 256) =
            some (leBytes 8 e.seq.toNat ++ digestBytes e.chain ++ fitBytes 32 s.sec.deviceId ++ tr)) ∧
        (e.seq.toNat % 256 ≠ 255 → t.sec.checkpoints = s.sec.checkpoints)) ∧
      (∃ t, exec (.auditFlashProgram false) s = .next t ∧ t.sec = { s.sec with auditFail := true } ∧
        bit (t.rn pgAudit 0x10) 0 = true ∧ t.rn pgAudit 0x10C = 1 ∧ OtherRegs s t [(pgAudit, 0x10), (pgAudit, 0x10C)] ∧
        t = { s with sec := t.sec, regs := t.regs, plicPending := t.plicPending }))

/-- ENROL, FUSE_PROG_OEM_HASH, FUSE_REVOKE_ROOT and FUSE_REVOKE_OEM (R536, R538, R539, R543, R563): a record is refused with its
status or replaces or removes its key, extends M4, and closes the sessions of the key that ends; the OEM digest is burnt; a
root or OEM key is revoked while the other one stays valid, with its sessions, and not otherwise. Where it rests on the
model's choices: log 6, 41. -/
def Obligations.KeysAreEnrolledAndRevoked : Prop :=
  ∀ (s : State) (who : Requester) (v : Word),
    (∀ (r : Row) (a kind slot : Nat) (b pub : List Byte), Opens s who pgKeys 0x100 .keystore 0 r → a = v.toNat % 2 ^ 28 * 4096 →
      s.memCheck 22 a recordLen false = none → s.linesClean a recordLen = true → b = s.rawBytes a recordLen →
      kind = fld b 4 1 → slot = fld b 5 1 → pub = (b.drop 48).take pubLen →
      ∃ t, exec (.enrol who v) s = .next t ∧ t.accepted ∧ t.rn pgKeys 0x104 = 16 * s.enrolStatus b ∧ t.fuse = s.fuse ∧
        (s.enrolStatus b ≠ 0 → t.sec.keys = s.sec.keys ∧ t.sec.meas = s.sec.meas ∧ t.sec.sessions = s.sec.sessions) ∧
        (s.enrolStatus b = 0 → t.sec.keys.enrolSeq = BitVec.ofNat 64 (fld b 8 8) ∧
          (kind = 1 → t.sec.keys.installer = some pub ∧ t.sec.keys.operators = s.sec.keys.operators) ∧
          (kind = 2 → t.sec.keys.installer = s.sec.keys.installer ∧ mapGet? t.sec.keys.operators slot = some pub ∧
            ∀ k, k ≠ slot → mapGet? t.sec.keys.operators k = mapGet? s.sec.keys.operators k) ∧
          (kind = 3 → t.sec.keys.installer = s.sec.keys.installer ∧ mapGet? t.sec.keys.operators slot = none ∧
            ∀ k, k ≠ slot → mapGet? t.sec.keys.operators k = mapGet? s.sec.keys.operators k) ∧
          (kind = 4 → t.sec.keys.installer = none ∧ t.sec.keys.operators = s.sec.keys.operators) ∧
          t.sec.meas = s.sec.meas.set 4 (Config.sha3 (digestBytes (s.sec.meas.getD 4 0) ++ digestBytes t.sec.keys.digest)) ∧
          (∃ es e fs, t.sec.staged = s.sec.staged ++ es ++ [e] ++ fs ∧ e.event = 7 ∧ e.value = w32 kind ∧ e.aux = w32 slot) ∧
          (∀ p, (kind = 2 ∨ kind = 3) → mapGet? s.sec.keys.operators slot = some p → ∀ i : Fin 256,
            ((t.session i.val).isOpen = true ↔ (s.session i.val).isOpen = true ∧
              ¬ (i.val ≠ 0 ∧ (s.session i.val).keyDigest = Config.sha3 p ∧ (s.session i.val).keySlot = slot))))) ∧
    (∀ (r : Row) (a : Nat), Opens s who pgFuses 0x128 .fuses 0 r → v.toNat % 16 = 1 → a = v.toNat / 16 % 2 ^ 28 * 4096 →
      s.memCheck 22 a 64 false = none → s.linesClean a 64 = true →
      (s.fuse.oemRevoked = true → s.fuse.rootValid = false ∨ s.fuse.rootRevoked = true → ∃ t,
        exec (.fuseProgOemHash who v) s = .next t ∧ t.discarded ∧ t.fuse = s.fuse ∧ ErrorRecorded s t pgFuses 0x80 who true) ∧
      (s.fuse.oemRevoked = false ∨ (s.fuse.rootValid = true ∧ s.fuse.rootRevoked = false) →
        ∃ t, exec (.fuseProgOemHash who v) s = .next t ∧ t.accepted ∧
        t.fuse = { s.fuse with oemHash := BitVec.ofNat 512 (leNat (s.rawBytes a 64)), oemValid := true } ∧
        (∃ es e, t.sec.staged = s.sec.staged ++ es ++ [e] ∧ e.event = 10 ∧ e.value = w32 1) ∧ t.dram = s.dram)) ∧
    (∀ r : Row, Opens s who pgFuses 0x128 .fuses 0 r → v.toNat % 16 = 2 →
      (s.fuse.oemValid = true → s.fuse.oemRevoked = false → ∃ t, exec (.fuseRevokeRoot who v) s = .next t ∧ t.accepted ∧
        t.fuse = { s.fuse with rootRevoked := true } ∧
        (∃ es e, t.sec.staged = s.sec.staged ++ es ++ [e] ∧ e.event = 10 ∧ e.value = w32 2) ∧
        ∀ i : Fin 256, ((t.session i.val).isOpen = true ↔ (s.session i.val).isOpen = true ∧
          ¬ (i.val ≠ 0 ∧ (s.session i.val).keyDigest = s.fuse.rootHash ∧ (s.session i.val).keySlot = 0x20))) ∧
      (s.fuse.oemValid = false ∨ s.fuse.oemRevoked = true → ∃ t, exec (.fuseRevokeRoot who v) s = .next t ∧ t.discarded ∧
        t.fuse = s.fuse ∧ ErrorRecorded s t pgFuses 0x80 who true)) ∧
    (∀ r : Row, Opens s who pgFuses 0x128 .fuses 0 r → v.toNat % 16 = 3 →
      (s.fuse.rootValid = true → s.fuse.rootRevoked = false → ∃ t, exec (.fuseRevokeOem who v) s = .next t ∧ t.accepted ∧
        t.fuse = { s.fuse with oemRevoked := true } ∧
        (∃ es e, t.sec.staged = s.sec.staged ++ es ++ [e] ∧ e.event = 10 ∧ e.value = w32 3) ∧
        ∀ i : Fin 256, ((t.session i.val).isOpen = true ↔ (s.session i.val).isOpen = true ∧
          ¬ (i.val ≠ 0 ∧ (s.session i.val).keyDigest = s.fuse.oemHash ∧ (s.session i.val).keySlot = 0x21))) ∧
      (s.fuse.rootValid = false ∨ s.fuse.rootRevoked = true → ∃ t, exec (.fuseRevokeOem who v) s = .next t ∧ t.discarded ∧
        t.fuse = s.fuse ∧ ErrorRecorded s t pgFuses 0x80 who true))
end

