-- ==== Sys2Proof/Laws/Maps.lean ====
section
/-! SUPPORT. Laws of sparse maps and of memory bytes: the canonical form is kept by every write, and what is read after a
write. -/

namespace Sys2Proof.Machine

/-! ### Sparse maps keep their canonical form -/

/-- Every key of a map is above a bound. -/
def mapAbove {α : Type} (b : Nat) (m : SMap α) : Prop := ∀ p ∈ m, b < p.1

theorem mapSorted_cons {α : Type} (p : Nat × α) (m : SMap α) :
    mapSorted (p :: m) = true ↔ mapAbove p.1 m ∧ mapSorted m = true := by
  induction m generalizing p with
  | nil => simp [mapSorted, mapAbove]
  | cons q m ih =>
    obtain ⟨a, v⟩ := p
    obtain ⟨b, w⟩ := q
    constructor
    · intro h
      simp only [mapSorted, Bool.and_eq_true, decide_eq_true_eq] at h
      refine ⟨?_, h.2⟩
      have hb := ((ih (b, w)).1 h.2).1
      intro r hr
      rcases List.mem_cons.1 hr with rfl | hr
      · exact h.1
      · exact Nat.lt_trans h.1 (hb r hr)
    · intro h
      simp only [mapSorted, Bool.and_eq_true, decide_eq_true_eq]
      exact ⟨h.1 (b, w) List.mem_cons_self, h.2⟩

theorem mapPut_above {α : Type} (m : SMap α) (b i : Nat) (v : α) (hi : b < i) (h : mapAbove b m) :
    mapAbove b (mapPut m i v) := by
  induction m with
  | nil =>
    intro r hr
    simp only [mapPut, List.mem_singleton] at hr
    exact hr ▸ hi
  | cons q m ih =>
    obtain ⟨k, w⟩ := q
    have hq := h (k, w) List.mem_cons_self
    have hm : mapAbove b m := fun r hr => h r (List.mem_cons_of_mem _ hr)
    unfold mapPut
    intro r hr
    split at hr
    · rcases List.mem_cons.1 hr with rfl | hr
      · exact hi
      · exact h r hr
    · split at hr
      · rcases List.mem_cons.1 hr with rfl | hr
        · exact hi
        · exact hm r hr
      · rcases List.mem_cons.1 hr with rfl | hr
        · exact hq
        · exact ih hm r hr

theorem mapPut_sorted {α : Type} (m : SMap α) (i : Nat) (v : α) (h : mapSorted m = true) :
    mapSorted (mapPut m i v) = true := by
  induction m with
  | nil => rfl
  | cons q m ih =>
    obtain ⟨k, w⟩ := q
    have ⟨ha, hs⟩ := (mapSorted_cons (k, w) m).1 h
    unfold mapPut
    split
    · rename_i hik
      refine (mapSorted_cons (i, v) _).2 ⟨fun r hr => ?_, h⟩
      rcases List.mem_cons.1 hr with rfl | hr
      · exact hik
      · exact Nat.lt_trans hik (ha r hr)
    · split
      · rename_i hik
        subst hik
        exact (mapSorted_cons (i, v) m).2 ⟨ha, hs⟩
      · exact (mapSorted_cons (k, w) _).2 ⟨mapPut_above m k i v (by omega) ha, ih hs⟩

theorem mapDel_mem {α : Type} (m : SMap α) (i : Nat) (p : Nat × α) (h : p ∈ mapDel m i) : p ∈ m := by
  induction m with
  | nil => exact h
  | cons q m ih =>
    obtain ⟨k, w⟩ := q
    unfold mapDel at h
    split at h
    · exact List.mem_cons_of_mem _ (ih h)
    · rcases List.mem_cons.1 h with rfl | h
      · exact List.mem_cons_self
      · exact List.mem_cons_of_mem _ (ih h)

theorem mapDel_sorted {α : Type} (m : SMap α) (i : Nat) (h : mapSorted m = true) : mapSorted (mapDel m i) = true := by
  induction m with
  | nil => rfl
  | cons q m ih =>
    obtain ⟨k, w⟩ := q
    have ⟨ha, hs⟩ := (mapSorted_cons (k, w) m).1 h
    unfold mapDel
    split
    · exact ih hs
    · exact (mapSorted_cons (k, w) _).2 ⟨fun r hr => ha r (mapDel_mem m i r hr), ih hs⟩

theorem mapPut_mem {α : Type} (m : SMap α) (i : Nat) (v : α) (p : Nat × α) (h : p ∈ mapPut m i v) :
    p = (i, v) ∨ p ∈ m := by
  induction m with
  | nil => exact Or.inl (List.mem_singleton.1 h)
  | cons q m ih =>
    obtain ⟨k, w⟩ := q
    unfold mapPut at h
    split at h
    · rcases List.mem_cons.1 h with rfl | h
      · exact Or.inl rfl
      · exact Or.inr h
    · split at h
      · rcases List.mem_cons.1 h with rfl | h
        · exact Or.inl rfl
        · exact Or.inr (List.mem_cons_of_mem _ h)
      · rcases List.mem_cons.1 h with rfl | h
        · exact Or.inr List.mem_cons_self
        · exact (ih h).imp id (List.mem_cons_of_mem _)

theorem mapWf_iff {α : Type} [DecidableEq α] (d : α) (m : SMap α) :
    mapWf d m = true ↔ mapSorted m = true ∧ ∀ p ∈ m, p.2 ≠ d := by
  simp [mapWf, List.all_eq_true]

/-- Writing a map where unlisted keys read `d` keeps it canonical. -/
theorem mapSet_wf {α : Type} [DecidableEq α] (m : SMap α) (i : Nat) (d v : α) (h : mapWf d m = true) :
    mapWf d (mapSet m i d v) = true := by
  obtain ⟨hs, hn⟩ := (mapWf_iff d m).1 h
  unfold mapSet
  split
  · exact (mapWf_iff d _).2 ⟨mapDel_sorted m i hs, fun p hp => hn p (mapDel_mem m i p hp)⟩
  · rename_i hv
    refine (mapWf_iff d _).2 ⟨mapPut_sorted m i v hs, fun p hp => ?_⟩
    rcases mapPut_mem m i v p hp with rfl | hp
    · exact hv
    · exact hn p hp

/-- Keeping some of a canonical map's entries keeps it canonical. -/
theorem filter_wf {α : Type} [DecidableEq α] {d : α} (f : Nat × α → Bool) (m : SMap α) (h : mapWf d m = true) :
    mapWf d (m.filter f) = true := by
  obtain ⟨hs, hn⟩ := (mapWf_iff d m).1 h
  refine (mapWf_iff d _).2 ⟨?_, fun p hp => hn p (List.mem_filter.1 hp).1⟩
  clear hn h
  induction m with
  | nil => rfl
  | cons q m ih =>
    have ⟨ha, hm⟩ := (mapSorted_cons q m).1 hs
    rw [List.filter_cons]
    split
    · exact (mapSorted_cons q _).2 ⟨fun r hr => ha r (List.mem_filter.1 hr).1, ih hm⟩
    · exact ih hm

/-- Writing bytes keeps memory canonical. -/
theorem putBytes_wf (bs : List Byte) (m : SMap Byte) (a : Nat) (h : mapWf 0 m = true) :
    mapWf 0 (putBytes m a bs) = true := by
  induction bs generalizing m a with
  | nil => exact h
  | cons b bs ih => exact ih _ _ (mapSet_wf m a 0 b h)

theorem foldl_putBytes_wf (ls : List Nat) (bs : List Byte) (m : SMap Byte) (h : mapWf 0 m = true) :
    mapWf 0 (ls.foldl (fun m l => putBytes m l bs) m) = true := by
  induction ls generalizing m with
  | nil => exact h
  | cons l ls ih => exact ih _ (putBytes_wf bs m l h)

/-! ### What a map reads after a write -/

theorem mapGet?_mapPut_same {α : Type} (m : SMap α) (i : Nat) (v : α) : mapGet? (mapPut m i v) i = some v := by
  induction m with
  | nil => simp [mapPut, mapGet?]
  | cons q m ih =>
    obtain ⟨k, w⟩ := q
    unfold mapPut
    split
    · simp [mapGet?]
    · split
      · simp [mapGet?]
      · rename_i h
        rw [mapGet?, if_neg (fun e => h e.symm)]
        exact ih

theorem mapGet?_mapPut_other {α : Type} (m : SMap α) (i j : Nat) (v : α) (h : j ≠ i) :
    mapGet? (mapPut m i v) j = mapGet? m j := by
  induction m with
  | nil => simp [mapPut, mapGet?, Ne.symm h]
  | cons q m ih =>
    obtain ⟨k, w⟩ := q
    unfold mapPut
    split
    · simp [mapGet?, Ne.symm h]
    · split
      · rename_i e
        subst e
        simp [mapGet?, Ne.symm h]
      · simp only [mapGet?, ih]

theorem mapGet?_mapDel_same {α : Type} (m : SMap α) (i : Nat) : mapGet? (mapDel m i) i = none := by
  induction m with
  | nil => rfl
  | cons q m ih =>
    obtain ⟨k, w⟩ := q
    unfold mapDel
    split
    · exact ih
    · rename_i h
      rw [mapGet?, if_neg h]
      exact ih

theorem mapGet?_mapDel_other {α : Type} (m : SMap α) (i j : Nat) (h : j ≠ i) : mapGet? (mapDel m i) j = mapGet? m j := by
  induction m with
  | nil => rfl
  | cons q m ih =>
    obtain ⟨k, w⟩ := q
    unfold mapDel
    split
    · rename_i e
      subst e
      rw [ih, mapGet?, if_neg (Ne.symm h)]
    · simp only [mapGet?, ih]

/-- Reading a key after writing it. -/
@[simp] theorem mapGet_mapSet_same {α : Type} [DecidableEq α] (m : SMap α) (i : Nat) (d v : α) :
    mapGet (mapSet m i d v) i d = v := by
  unfold mapGet mapSet
  split
  · rename_i h
    rw [mapGet?_mapDel_same, h]
    rfl
  · rw [mapGet?_mapPut_same]
    rfl

/-- Reading a key after writing another. -/
theorem mapGet_mapSet_other {α : Type} [DecidableEq α] (m : SMap α) (i j : Nat) (d e v : α) (h : j ≠ i) :
    mapGet (mapSet m i d v) j e = mapGet m j e := by
  unfold mapGet mapSet
  split
  · rw [mapGet?_mapDel_other m i j h]
  · rw [mapGet?_mapPut_other m i j v h]

/-- What memory reads after bytes are written from an address on. -/
theorem mapGet_putBytes (bs : List Byte) (m : SMap Byte) (a x : Nat) :
    mapGet (putBytes m a bs) x 0 = if a ≤ x ∧ x < a + bs.length then bs.getD (x - a) 0 else mapGet m x 0 := by
  induction bs generalizing m a with
  | nil =>
    have : ¬(a ≤ x ∧ x < a + ([] : List Byte).length) := by simp
    rw [if_neg this, putBytes]
  | cons b bs ih =>
    rw [putBytes, ih]
    by_cases h : x = a
    · subst h
      rw [if_neg (by omega), mapGet_mapSet_same, if_pos (by simp)]
      simp
    · rw [mapGet_mapSet_other _ _ _ _ _ _ h]
      by_cases h1 : a + 1 ≤ x ∧ x < a + 1 + bs.length
      · rw [if_pos h1, if_pos (by simp; omega)]
        have e : x - a = (x - (a + 1)) + 1 := by omega
        rw [e]
        simp
      · rw [if_neg h1, if_neg (by simp; omega)]

end Sys2Proof.Machine
end

