-- ==== Sys2Proof/Laws/State.lean ====
section
/-! SUPPORT. One lemma per field and update of `State`, and what a register, core, cluster, axis or other unit reads after
its own update and after another's. -/

namespace Sys2Proof.Machine

/-! ### Updates said by other updates -/

@[simp] theorem State.ok_eq (s : State) : s.ok = s.answer ⟨false, false, 0⟩ := rfl
@[simp] theorem State.okData_eq (s : State) (v : Word) : s.okData v = s.answer ⟨false, false, v⟩ := rfl
@[simp] theorem State.discard_eq (s : State) : s.discard = s.answer ⟨false, true, 0⟩ := rfl
@[simp] theorem State.errorRsp_eq (s : State) : s.errorRsp = s.answer ⟨true, false, 0⟩ := rfl
@[simp] theorem State.setRn_eq (s : State) (p o n : Nat) : s.setRn p o n = s.setReg p o (w32 n) := rfl
@[simp] theorem State.modCore_eq (s : State) (n : Nat) (f : Core → Core) : s.modCore n f = s.setCore n (f (s.core n)) := rfl
@[simp] theorem State.modCluster_eq (s : State) (n : Nat) (f : Cluster → Cluster) :
    s.modCluster n f = s.setCluster n (f (s.cluster n)) := rfl
@[simp] theorem State.modReel_eq (s : State) (n : Nat) (f : Reel → Reel) : s.modReel n f = s.setReel n (f (s.reel n)) := rfl
@[simp] theorem State.modPort_eq (s : State) (p : Nat) (f : Port → Port) : s.modPort p f = s.setPort p (f (s.port p)) := rfl

/-! ### Fields after an update -/

@[simp] theorem State.answer_rsp (s : State) (r : Rsp) : (s.answer r).rsp = r := rfl
@[simp] theorem State.answer_pending (s : State) (r : Rsp) : (s.answer r).pending = s.pending := rfl
@[simp] theorem State.answer_free (s : State) (r : Rsp) : (s.answer r).free = s.free := rfl
@[simp] theorem State.answer_fuse (s : State) (r : Rsp) : (s.answer r).fuse = s.fuse := rfl
@[simp] theorem State.answer_regs (s : State) (r : Rsp) : (s.answer r).regs = s.regs := rfl
@[simp] theorem State.answer_staged (s : State) (r : Rsp) : (s.answer r).staged = s.staged := rfl
@[simp] theorem State.answer_winBusy (s : State) (r : Rsp) : (s.answer r).winBusy = s.winBusy := rfl
@[simp] theorem State.answer_winTab (s : State) (r : Rsp) : (s.answer r).winTab = s.winTab := rfl
@[simp] theorem State.answer_winGen (s : State) (r : Rsp) : (s.answer r).winGen = s.winGen := rfl
@[simp] theorem State.answer_plicClaimed (s : State) (r : Rsp) : (s.answer r).plicClaimed = s.plicClaimed := rfl
@[simp] theorem State.answer_plicPending (s : State) (r : Rsp) : (s.answer r).plicPending = s.plicPending := rfl
@[simp] theorem State.answer_dram (s : State) (r : Rsp) : (s.answer r).dram = s.dram := rfl
@[simp] theorem State.answer_tags (s : State) (r : Rsp) : (s.answer r).tags = s.tags := rfl
@[simp] theorem State.answer_poison (s : State) (r : Rsp) : (s.answer r).poison = s.poison := rfl
@[simp] theorem State.answer_queue (s : State) (r : Rsp) : (s.answer r).queue = s.queue := rfl
@[simp] theorem State.answer_held (s : State) (r : Rsp) : (s.answer r).held = s.held := rfl
@[simp] theorem State.answer_meters (s : State) (r : Rsp) : (s.answer r).meters = s.meters := rfl
@[simp] theorem State.answer_fills (s : State) (r : Rsp) : (s.answer r).fills = s.fills := rfl
@[simp] theorem State.answer_segInit (s : State) (r : Rsp) : (s.answer r).segInit = s.segInit := rfl
@[simp] theorem State.answer_refreshBank (s : State) (r : Rsp) : (s.answer r).refreshBank = s.refreshBank := rfl
@[simp] theorem State.answer_selfRefresh (s : State) (r : Rsp) : (s.answer r).selfRefresh = s.selfRefresh := rfl
@[simp] theorem State.answer_bandInForce (s : State) (r : Rsp) : (s.answer r).bandInForce = s.bandInForce := rfl
@[simp] theorem State.answer_ceLast (s : State) (r : Rsp) : (s.answer r).ceLast = s.ceLast := rfl
@[simp] theorem State.answer_cores (s : State) (r : Rsp) : (s.answer r).cores = s.cores := rfl
@[simp] theorem State.answer_clusters (s : State) (r : Rsp) : (s.answer r).clusters = s.clusters := rfl
@[simp] theorem State.answer_slots (s : State) (r : Rsp) : (s.answer r).slots = s.slots := rfl
@[simp] theorem State.answer_jobs (s : State) (r : Rsp) : (s.answer r).jobs = s.jobs := rfl
@[simp] theorem State.answer_runCount (s : State) (r : Rsp) : (s.answer r).runCount = s.runCount := rfl
@[simp] theorem State.answer_reels (s : State) (r : Rsp) : (s.answer r).reels = s.reels := rfl
@[simp] theorem State.answer_time (s : State) (r : Rsp) : (s.answer r).time = s.time := rfl
@[simp] theorem State.answer_uptime (s : State) (r : Rsp) : (s.answer r).uptime = s.uptime := rfl
@[simp] theorem State.answer_axes (s : State) (r : Rsp) : (s.answer r).axes = s.axes := rfl
@[simp] theorem State.answer_cues (s : State) (r : Rsp) : (s.answer r).cues = s.cues := rfl
@[simp] theorem State.answer_evts (s : State) (r : Rsp) : (s.answer r).evts = s.evts := rfl
@[simp] theorem State.answer_pins (s : State) (r : Rsp) : (s.answer r).pins = s.pins := rfl
@[simp] theorem State.answer_ppsHigh (s : State) (r : Rsp) : (s.answer r).ppsHigh = s.ppsHigh := rfl
@[simp] theorem State.answer_servo (s : State) (r : Rsp) : (s.answer r).servo = s.servo := rfl
@[simp] theorem State.answer_ports (s : State) (r : Rsp) : (s.answer r).ports = s.ports := rfl
@[simp] theorem State.answer_flows (s : State) (r : Rsp) : (s.answer r).flows = s.flows := rfl
@[simp] theorem State.answer_isps (s : State) (r : Rsp) : (s.answer r).isps = s.isps := rfl
@[simp] theorem State.answer_csiClk (s : State) (r : Rsp) : (s.answer r).csiClk = s.csiClk := rfl
@[simp] theorem State.answer_vcs (s : State) (r : Rsp) : (s.answer r).vcs = s.vcs := rfl
@[simp] theorem State.answer_trkDue (s : State) (r : Rsp) : (s.answer r).trkDue = s.trkDue := rfl
@[simp] theorem State.answer_faults (s : State) (r : Rsp) : (s.answer r).faults = s.faults := rfl
@[simp] theorem State.answer_faultBuf (s : State) (r : Rsp) : (s.answer r).faultBuf = s.faultBuf := rfl
@[simp] theorem State.answer_faultSeq (s : State) (r : Rsp) : (s.answer r).faultSeq = s.faultSeq := rfl
@[simp] theorem State.answer_recovering (s : State) (r : Rsp) : (s.answer r).recovering = s.recovering := rfl
@[simp] theorem State.answer_c2Active (s : State) (r : Rsp) : (s.answer r).c2Active = s.c2Active := rfl
@[simp] theorem State.answer_dailyFrom (s : State) (r : Rsp) : (s.answer r).dailyFrom = s.dailyFrom := rfl
@[simp] theorem State.answer_health (s : State) (r : Rsp) : (s.answer r).health = s.health := rfl
@[simp] theorem State.answer_sec (s : State) (r : Rsp) : (s.answer r).sec = s.sec := rfl
@[simp] theorem State.answer_power (s : State) (r : Rsp) : (s.answer r).power = s.power := rfl
@[simp] theorem State.answer_dma (s : State) (r : Rsp) : (s.answer r).dma = s.dma := rfl
@[simp] theorem State.answer_cellErr (s : State) (r : Rsp) : (s.answer r).cellErr = s.cellErr := rfl
@[simp] theorem State.answer_bankFree (s : State) (r : Rsp) : (s.answer r).bankFree = s.bankFree := rfl
@[simp] theorem State.answer_refreshRow (s : State) (r : Rsp) : (s.answer r).refreshRow = s.refreshRow := rfl
@[simp] theorem State.answer_dly (s : State) (r : Rsp) : (s.answer r).dly = s.dly := rfl
@[simp] theorem State.answer_dlyBand (s : State) (r : Rsp) : (s.answer r).dlyBand = s.dlyBand := rfl
@[simp] theorem State.answer_l2 (s : State) (r : Rsp) : (s.answer r).l2 = s.l2 := rfl
@[simp] theorem State.answer_secRam (s : State) (r : Rsp) : (s.answer r).secRam = s.secRam := rfl
@[simp] theorem State.answer_ppsAt (s : State) (r : Rsp) : (s.answer r).ppsAt = s.ppsAt := rfl
@[simp] theorem State.answer_resSeen (s : State) (r : Rsp) : (s.answer r).resSeen = s.resSeen := rfl
@[simp] theorem State.answer_turn (s : State) (r : Rsp) : (s.answer r).turn = s.turn := rfl
@[simp] theorem State.setReg_pending (s : State) (p o : Nat) (v : Word) : (s.setReg p o v).pending = s.pending := rfl
@[simp] theorem State.setReg_rsp (s : State) (p o : Nat) (v : Word) : (s.setReg p o v).rsp = s.rsp := rfl
@[simp] theorem State.setReg_free (s : State) (p o : Nat) (v : Word) : (s.setReg p o v).free = s.free := rfl
@[simp] theorem State.setReg_fuse (s : State) (p o : Nat) (v : Word) : (s.setReg p o v).fuse = s.fuse := rfl
@[simp] theorem State.setReg_staged (s : State) (p o : Nat) (v : Word) : (s.setReg p o v).staged = s.staged := rfl
@[simp] theorem State.setReg_winBusy (s : State) (p o : Nat) (v : Word) : (s.setReg p o v).winBusy = s.winBusy := rfl
@[simp] theorem State.setReg_winTab (s : State) (p o : Nat) (v : Word) : (s.setReg p o v).winTab = s.winTab := rfl
@[simp] theorem State.setReg_winGen (s : State) (p o : Nat) (v : Word) : (s.setReg p o v).winGen = s.winGen := rfl
@[simp] theorem State.setReg_plicClaimed (s : State) (p o : Nat) (v : Word) : (s.setReg p o v).plicClaimed = s.plicClaimed := rfl
@[simp] theorem State.setReg_plicPending (s : State) (p o : Nat) (v : Word) : (s.setReg p o v).plicPending = s.plicPending := rfl
@[simp] theorem State.setReg_dram (s : State) (p o : Nat) (v : Word) : (s.setReg p o v).dram = s.dram := rfl
@[simp] theorem State.setReg_tags (s : State) (p o : Nat) (v : Word) : (s.setReg p o v).tags = s.tags := rfl
@[simp] theorem State.setReg_poison (s : State) (p o : Nat) (v : Word) : (s.setReg p o v).poison = s.poison := rfl
@[simp] theorem State.setReg_queue (s : State) (p o : Nat) (v : Word) : (s.setReg p o v).queue = s.queue := rfl
@[simp] theorem State.setReg_held (s : State) (p o : Nat) (v : Word) : (s.setReg p o v).held = s.held := rfl
@[simp] theorem State.setReg_meters (s : State) (p o : Nat) (v : Word) : (s.setReg p o v).meters = s.meters := rfl
@[simp] theorem State.setReg_fills (s : State) (p o : Nat) (v : Word) : (s.setReg p o v).fills = s.fills := rfl
@[simp] theorem State.setReg_segInit (s : State) (p o : Nat) (v : Word) : (s.setReg p o v).segInit = s.segInit := rfl
@[simp] theorem State.setReg_refreshBank (s : State) (p o : Nat) (v : Word) : (s.setReg p o v).refreshBank = s.refreshBank := rfl
@[simp] theorem State.setReg_selfRefresh (s : State) (p o : Nat) (v : Word) : (s.setReg p o v).selfRefresh = s.selfRefresh := rfl
@[simp] theorem State.setReg_bandInForce (s : State) (p o : Nat) (v : Word) : (s.setReg p o v).bandInForce = s.bandInForce := rfl
@[simp] theorem State.setReg_ceLast (s : State) (p o : Nat) (v : Word) : (s.setReg p o v).ceLast = s.ceLast := rfl
@[simp] theorem State.setReg_cores (s : State) (p o : Nat) (v : Word) : (s.setReg p o v).cores = s.cores := rfl
@[simp] theorem State.setReg_clusters (s : State) (p o : Nat) (v : Word) : (s.setReg p o v).clusters = s.clusters := rfl
@[simp] theorem State.setReg_slots (s : State) (p o : Nat) (v : Word) : (s.setReg p o v).slots = s.slots := rfl
@[simp] theorem State.setReg_jobs (s : State) (p o : Nat) (v : Word) : (s.setReg p o v).jobs = s.jobs := rfl
@[simp] theorem State.setReg_runCount (s : State) (p o : Nat) (v : Word) : (s.setReg p o v).runCount = s.runCount := rfl
@[simp] theorem State.setReg_reels (s : State) (p o : Nat) (v : Word) : (s.setReg p o v).reels = s.reels := rfl
@[simp] theorem State.setReg_time (s : State) (p o : Nat) (v : Word) : (s.setReg p o v).time = s.time := rfl
@[simp] theorem State.setReg_uptime (s : State) (p o : Nat) (v : Word) : (s.setReg p o v).uptime = s.uptime := rfl
@[simp] theorem State.setReg_axes (s : State) (p o : Nat) (v : Word) : (s.setReg p o v).axes = s.axes := rfl
@[simp] theorem State.setReg_cues (s : State) (p o : Nat) (v : Word) : (s.setReg p o v).cues = s.cues := rfl
@[simp] theorem State.setReg_evts (s : State) (p o : Nat) (v : Word) : (s.setReg p o v).evts = s.evts := rfl
@[simp] theorem State.setReg_pins (s : State) (p o : Nat) (v : Word) : (s.setReg p o v).pins = s.pins := rfl
@[simp] theorem State.setReg_ppsHigh (s : State) (p o : Nat) (v : Word) : (s.setReg p o v).ppsHigh = s.ppsHigh := rfl
@[simp] theorem State.setReg_servo (s : State) (p o : Nat) (v : Word) : (s.setReg p o v).servo = s.servo := rfl
@[simp] theorem State.setReg_ports (s : State) (p o : Nat) (v : Word) : (s.setReg p o v).ports = s.ports := rfl
@[simp] theorem State.setReg_flows (s : State) (p o : Nat) (v : Word) : (s.setReg p o v).flows = s.flows := rfl
@[simp] theorem State.setReg_isps (s : State) (p o : Nat) (v : Word) : (s.setReg p o v).isps = s.isps := rfl
@[simp] theorem State.setReg_csiClk (s : State) (p o : Nat) (v : Word) : (s.setReg p o v).csiClk = s.csiClk := rfl
@[simp] theorem State.setReg_vcs (s : State) (p o : Nat) (v : Word) : (s.setReg p o v).vcs = s.vcs := rfl
@[simp] theorem State.setReg_trkDue (s : State) (p o : Nat) (v : Word) : (s.setReg p o v).trkDue = s.trkDue := rfl
@[simp] theorem State.setReg_faults (s : State) (p o : Nat) (v : Word) : (s.setReg p o v).faults = s.faults := rfl
@[simp] theorem State.setReg_faultBuf (s : State) (p o : Nat) (v : Word) : (s.setReg p o v).faultBuf = s.faultBuf := rfl
@[simp] theorem State.setReg_faultSeq (s : State) (p o : Nat) (v : Word) : (s.setReg p o v).faultSeq = s.faultSeq := rfl
@[simp] theorem State.setReg_recovering (s : State) (p o : Nat) (v : Word) : (s.setReg p o v).recovering = s.recovering := rfl
@[simp] theorem State.setReg_c2Active (s : State) (p o : Nat) (v : Word) : (s.setReg p o v).c2Active = s.c2Active := rfl
@[simp] theorem State.setReg_dailyFrom (s : State) (p o : Nat) (v : Word) : (s.setReg p o v).dailyFrom = s.dailyFrom := rfl
@[simp] theorem State.setReg_health (s : State) (p o : Nat) (v : Word) : (s.setReg p o v).health = s.health := rfl
@[simp] theorem State.setReg_sec (s : State) (p o : Nat) (v : Word) : (s.setReg p o v).sec = s.sec := rfl
@[simp] theorem State.setReg_power (s : State) (p o : Nat) (v : Word) : (s.setReg p o v).power = s.power := rfl
@[simp] theorem State.setReg_dma (s : State) (p o : Nat) (v : Word) : (s.setReg p o v).dma = s.dma := rfl
@[simp] theorem State.setReg_cellErr (s : State) (p o : Nat) (v : Word) : (s.setReg p o v).cellErr = s.cellErr := rfl
@[simp] theorem State.setReg_bankFree (s : State) (p o : Nat) (v : Word) : (s.setReg p o v).bankFree = s.bankFree := rfl
@[simp] theorem State.setReg_refreshRow (s : State) (p o : Nat) (v : Word) : (s.setReg p o v).refreshRow = s.refreshRow := rfl
@[simp] theorem State.setReg_dly (s : State) (p o : Nat) (v : Word) : (s.setReg p o v).dly = s.dly := rfl
@[simp] theorem State.setReg_dlyBand (s : State) (p o : Nat) (v : Word) : (s.setReg p o v).dlyBand = s.dlyBand := rfl
@[simp] theorem State.setReg_l2 (s : State) (p o : Nat) (v : Word) : (s.setReg p o v).l2 = s.l2 := rfl
@[simp] theorem State.setReg_secRam (s : State) (p o : Nat) (v : Word) : (s.setReg p o v).secRam = s.secRam := rfl
@[simp] theorem State.setReg_ppsAt (s : State) (p o : Nat) (v : Word) : (s.setReg p o v).ppsAt = s.ppsAt := rfl
@[simp] theorem State.setReg_resSeen (s : State) (p o : Nat) (v : Word) : (s.setReg p o v).resSeen = s.resSeen := rfl
@[simp] theorem State.setReg_turn (s : State) (p o : Nat) (v : Word) : (s.setReg p o v).turn = s.turn := rfl
@[simp] theorem State.setCore_pending (s : State) (n : Nat) (c : Core) : (s.setCore n c).pending = s.pending := rfl
@[simp] theorem State.setCore_rsp (s : State) (n : Nat) (c : Core) : (s.setCore n c).rsp = s.rsp := rfl
@[simp] theorem State.setCore_free (s : State) (n : Nat) (c : Core) : (s.setCore n c).free = s.free := rfl
@[simp] theorem State.setCore_fuse (s : State) (n : Nat) (c : Core) : (s.setCore n c).fuse = s.fuse := rfl
@[simp] theorem State.setCore_regs (s : State) (n : Nat) (c : Core) : (s.setCore n c).regs = s.regs := rfl
@[simp] theorem State.setCore_staged (s : State) (n : Nat) (c : Core) : (s.setCore n c).staged = s.staged := rfl
@[simp] theorem State.setCore_winBusy (s : State) (n : Nat) (c : Core) : (s.setCore n c).winBusy = s.winBusy := rfl
@[simp] theorem State.setCore_winTab (s : State) (n : Nat) (c : Core) : (s.setCore n c).winTab = s.winTab := rfl
@[simp] theorem State.setCore_winGen (s : State) (n : Nat) (c : Core) : (s.setCore n c).winGen = s.winGen := rfl
@[simp] theorem State.setCore_plicClaimed (s : State) (n : Nat) (c : Core) : (s.setCore n c).plicClaimed = s.plicClaimed := rfl
@[simp] theorem State.setCore_plicPending (s : State) (n : Nat) (c : Core) : (s.setCore n c).plicPending = s.plicPending := rfl
@[simp] theorem State.setCore_dram (s : State) (n : Nat) (c : Core) : (s.setCore n c).dram = s.dram := rfl
@[simp] theorem State.setCore_tags (s : State) (n : Nat) (c : Core) : (s.setCore n c).tags = s.tags := rfl
@[simp] theorem State.setCore_poison (s : State) (n : Nat) (c : Core) : (s.setCore n c).poison = s.poison := rfl
@[simp] theorem State.setCore_queue (s : State) (n : Nat) (c : Core) : (s.setCore n c).queue = s.queue := rfl
@[simp] theorem State.setCore_held (s : State) (n : Nat) (c : Core) : (s.setCore n c).held = s.held := rfl
@[simp] theorem State.setCore_meters (s : State) (n : Nat) (c : Core) : (s.setCore n c).meters = s.meters := rfl
@[simp] theorem State.setCore_fills (s : State) (n : Nat) (c : Core) : (s.setCore n c).fills = s.fills := rfl
@[simp] theorem State.setCore_segInit (s : State) (n : Nat) (c : Core) : (s.setCore n c).segInit = s.segInit := rfl
@[simp] theorem State.setCore_refreshBank (s : State) (n : Nat) (c : Core) : (s.setCore n c).refreshBank = s.refreshBank := rfl
@[simp] theorem State.setCore_selfRefresh (s : State) (n : Nat) (c : Core) : (s.setCore n c).selfRefresh = s.selfRefresh := rfl
@[simp] theorem State.setCore_bandInForce (s : State) (n : Nat) (c : Core) : (s.setCore n c).bandInForce = s.bandInForce := rfl
@[simp] theorem State.setCore_ceLast (s : State) (n : Nat) (c : Core) : (s.setCore n c).ceLast = s.ceLast := rfl
@[simp] theorem State.setCore_clusters (s : State) (n : Nat) (c : Core) : (s.setCore n c).clusters = s.clusters := rfl
@[simp] theorem State.setCore_slots (s : State) (n : Nat) (c : Core) : (s.setCore n c).slots = s.slots := rfl
@[simp] theorem State.setCore_jobs (s : State) (n : Nat) (c : Core) : (s.setCore n c).jobs = s.jobs := rfl
@[simp] theorem State.setCore_runCount (s : State) (n : Nat) (c : Core) : (s.setCore n c).runCount = s.runCount := rfl
@[simp] theorem State.setCore_reels (s : State) (n : Nat) (c : Core) : (s.setCore n c).reels = s.reels := rfl
@[simp] theorem State.setCore_time (s : State) (n : Nat) (c : Core) : (s.setCore n c).time = s.time := rfl
@[simp] theorem State.setCore_uptime (s : State) (n : Nat) (c : Core) : (s.setCore n c).uptime = s.uptime := rfl
@[simp] theorem State.setCore_axes (s : State) (n : Nat) (c : Core) : (s.setCore n c).axes = s.axes := rfl
@[simp] theorem State.setCore_cues (s : State) (n : Nat) (c : Core) : (s.setCore n c).cues = s.cues := rfl
@[simp] theorem State.setCore_evts (s : State) (n : Nat) (c : Core) : (s.setCore n c).evts = s.evts := rfl
@[simp] theorem State.setCore_pins (s : State) (n : Nat) (c : Core) : (s.setCore n c).pins = s.pins := rfl
@[simp] theorem State.setCore_ppsHigh (s : State) (n : Nat) (c : Core) : (s.setCore n c).ppsHigh = s.ppsHigh := rfl
@[simp] theorem State.setCore_servo (s : State) (n : Nat) (c : Core) : (s.setCore n c).servo = s.servo := rfl
@[simp] theorem State.setCore_ports (s : State) (n : Nat) (c : Core) : (s.setCore n c).ports = s.ports := rfl
@[simp] theorem State.setCore_flows (s : State) (n : Nat) (c : Core) : (s.setCore n c).flows = s.flows := rfl
@[simp] theorem State.setCore_isps (s : State) (n : Nat) (c : Core) : (s.setCore n c).isps = s.isps := rfl
@[simp] theorem State.setCore_csiClk (s : State) (n : Nat) (c : Core) : (s.setCore n c).csiClk = s.csiClk := rfl
@[simp] theorem State.setCore_vcs (s : State) (n : Nat) (c : Core) : (s.setCore n c).vcs = s.vcs := rfl
@[simp] theorem State.setCore_trkDue (s : State) (n : Nat) (c : Core) : (s.setCore n c).trkDue = s.trkDue := rfl
@[simp] theorem State.setCore_faults (s : State) (n : Nat) (c : Core) : (s.setCore n c).faults = s.faults := rfl
@[simp] theorem State.setCore_faultBuf (s : State) (n : Nat) (c : Core) : (s.setCore n c).faultBuf = s.faultBuf := rfl
@[simp] theorem State.setCore_faultSeq (s : State) (n : Nat) (c : Core) : (s.setCore n c).faultSeq = s.faultSeq := rfl
@[simp] theorem State.setCore_recovering (s : State) (n : Nat) (c : Core) : (s.setCore n c).recovering = s.recovering := rfl
@[simp] theorem State.setCore_c2Active (s : State) (n : Nat) (c : Core) : (s.setCore n c).c2Active = s.c2Active := rfl
@[simp] theorem State.setCore_dailyFrom (s : State) (n : Nat) (c : Core) : (s.setCore n c).dailyFrom = s.dailyFrom := rfl
@[simp] theorem State.setCore_health (s : State) (n : Nat) (c : Core) : (s.setCore n c).health = s.health := rfl
@[simp] theorem State.setCore_sec (s : State) (n : Nat) (c : Core) : (s.setCore n c).sec = s.sec := rfl
@[simp] theorem State.setCore_power (s : State) (n : Nat) (c : Core) : (s.setCore n c).power = s.power := rfl
@[simp] theorem State.setCore_dma (s : State) (n : Nat) (c : Core) : (s.setCore n c).dma = s.dma := rfl
@[simp] theorem State.setCore_cellErr (s : State) (n : Nat) (c : Core) : (s.setCore n c).cellErr = s.cellErr := rfl
@[simp] theorem State.setCore_bankFree (s : State) (n : Nat) (c : Core) : (s.setCore n c).bankFree = s.bankFree := rfl
@[simp] theorem State.setCore_refreshRow (s : State) (n : Nat) (c : Core) : (s.setCore n c).refreshRow = s.refreshRow := rfl
@[simp] theorem State.setCore_dly (s : State) (n : Nat) (c : Core) : (s.setCore n c).dly = s.dly := rfl
@[simp] theorem State.setCore_dlyBand (s : State) (n : Nat) (c : Core) : (s.setCore n c).dlyBand = s.dlyBand := rfl
@[simp] theorem State.setCore_l2 (s : State) (n : Nat) (c : Core) : (s.setCore n c).l2 = s.l2 := rfl
@[simp] theorem State.setCore_secRam (s : State) (n : Nat) (c : Core) : (s.setCore n c).secRam = s.secRam := rfl
@[simp] theorem State.setCore_ppsAt (s : State) (n : Nat) (c : Core) : (s.setCore n c).ppsAt = s.ppsAt := rfl
@[simp] theorem State.setCore_resSeen (s : State) (n : Nat) (c : Core) : (s.setCore n c).resSeen = s.resSeen := rfl
@[simp] theorem State.setCore_turn (s : State) (n : Nat) (c : Core) : (s.setCore n c).turn = s.turn := rfl
@[simp] theorem State.setCluster_pending (s : State) (n : Nat) (c : Cluster) : (s.setCluster n c).pending = s.pending := rfl
@[simp] theorem State.setCluster_rsp (s : State) (n : Nat) (c : Cluster) : (s.setCluster n c).rsp = s.rsp := rfl
@[simp] theorem State.setCluster_free (s : State) (n : Nat) (c : Cluster) : (s.setCluster n c).free = s.free := rfl
@[simp] theorem State.setCluster_fuse (s : State) (n : Nat) (c : Cluster) : (s.setCluster n c).fuse = s.fuse := rfl
@[simp] theorem State.setCluster_regs (s : State) (n : Nat) (c : Cluster) : (s.setCluster n c).regs = s.regs := rfl
@[simp] theorem State.setCluster_staged (s : State) (n : Nat) (c : Cluster) : (s.setCluster n c).staged = s.staged := rfl
@[simp] theorem State.setCluster_winBusy (s : State) (n : Nat) (c : Cluster) : (s.setCluster n c).winBusy = s.winBusy := rfl
@[simp] theorem State.setCluster_winTab (s : State) (n : Nat) (c : Cluster) : (s.setCluster n c).winTab = s.winTab := rfl
@[simp] theorem State.setCluster_winGen (s : State) (n : Nat) (c : Cluster) : (s.setCluster n c).winGen = s.winGen := rfl
@[simp] theorem State.setCluster_plicClaimed (s : State) (n : Nat) (c : Cluster) : (s.setCluster n c).plicClaimed = s.plicClaimed := rfl
@[simp] theorem State.setCluster_plicPending (s : State) (n : Nat) (c : Cluster) : (s.setCluster n c).plicPending = s.plicPending := rfl
@[simp] theorem State.setCluster_dram (s : State) (n : Nat) (c : Cluster) : (s.setCluster n c).dram = s.dram := rfl
@[simp] theorem State.setCluster_tags (s : State) (n : Nat) (c : Cluster) : (s.setCluster n c).tags = s.tags := rfl
@[simp] theorem State.setCluster_poison (s : State) (n : Nat) (c : Cluster) : (s.setCluster n c).poison = s.poison := rfl
@[simp] theorem State.setCluster_queue (s : State) (n : Nat) (c : Cluster) : (s.setCluster n c).queue = s.queue := rfl
@[simp] theorem State.setCluster_held (s : State) (n : Nat) (c : Cluster) : (s.setCluster n c).held = s.held := rfl
@[simp] theorem State.setCluster_meters (s : State) (n : Nat) (c : Cluster) : (s.setCluster n c).meters = s.meters := rfl
@[simp] theorem State.setCluster_fills (s : State) (n : Nat) (c : Cluster) : (s.setCluster n c).fills = s.fills := rfl
@[simp] theorem State.setCluster_segInit (s : State) (n : Nat) (c : Cluster) : (s.setCluster n c).segInit = s.segInit := rfl
@[simp] theorem State.setCluster_refreshBank (s : State) (n : Nat) (c : Cluster) : (s.setCluster n c).refreshBank = s.refreshBank := rfl
@[simp] theorem State.setCluster_selfRefresh (s : State) (n : Nat) (c : Cluster) : (s.setCluster n c).selfRefresh = s.selfRefresh := rfl
@[simp] theorem State.setCluster_bandInForce (s : State) (n : Nat) (c : Cluster) : (s.setCluster n c).bandInForce = s.bandInForce := rfl
@[simp] theorem State.setCluster_ceLast (s : State) (n : Nat) (c : Cluster) : (s.setCluster n c).ceLast = s.ceLast := rfl
@[simp] theorem State.setCluster_cores (s : State) (n : Nat) (c : Cluster) : (s.setCluster n c).cores = s.cores := rfl
@[simp] theorem State.setCluster_slots (s : State) (n : Nat) (c : Cluster) : (s.setCluster n c).slots = s.slots := rfl
@[simp] theorem State.setCluster_jobs (s : State) (n : Nat) (c : Cluster) : (s.setCluster n c).jobs = s.jobs := rfl
@[simp] theorem State.setCluster_runCount (s : State) (n : Nat) (c : Cluster) : (s.setCluster n c).runCount = s.runCount := rfl
@[simp] theorem State.setCluster_reels (s : State) (n : Nat) (c : Cluster) : (s.setCluster n c).reels = s.reels := rfl
@[simp] theorem State.setCluster_time (s : State) (n : Nat) (c : Cluster) : (s.setCluster n c).time = s.time := rfl
@[simp] theorem State.setCluster_uptime (s : State) (n : Nat) (c : Cluster) : (s.setCluster n c).uptime = s.uptime := rfl
@[simp] theorem State.setCluster_axes (s : State) (n : Nat) (c : Cluster) : (s.setCluster n c).axes = s.axes := rfl
@[simp] theorem State.setCluster_cues (s : State) (n : Nat) (c : Cluster) : (s.setCluster n c).cues = s.cues := rfl
@[simp] theorem State.setCluster_evts (s : State) (n : Nat) (c : Cluster) : (s.setCluster n c).evts = s.evts := rfl
@[simp] theorem State.setCluster_pins (s : State) (n : Nat) (c : Cluster) : (s.setCluster n c).pins = s.pins := rfl
@[simp] theorem State.setCluster_ppsHigh (s : State) (n : Nat) (c : Cluster) : (s.setCluster n c).ppsHigh = s.ppsHigh := rfl
@[simp] theorem State.setCluster_servo (s : State) (n : Nat) (c : Cluster) : (s.setCluster n c).servo = s.servo := rfl
@[simp] theorem State.setCluster_ports (s : State) (n : Nat) (c : Cluster) : (s.setCluster n c).ports = s.ports := rfl
@[simp] theorem State.setCluster_flows (s : State) (n : Nat) (c : Cluster) : (s.setCluster n c).flows = s.flows := rfl
@[simp] theorem State.setCluster_isps (s : State) (n : Nat) (c : Cluster) : (s.setCluster n c).isps = s.isps := rfl
@[simp] theorem State.setCluster_csiClk (s : State) (n : Nat) (c : Cluster) : (s.setCluster n c).csiClk = s.csiClk := rfl
@[simp] theorem State.setCluster_vcs (s : State) (n : Nat) (c : Cluster) : (s.setCluster n c).vcs = s.vcs := rfl
@[simp] theorem State.setCluster_trkDue (s : State) (n : Nat) (c : Cluster) : (s.setCluster n c).trkDue = s.trkDue := rfl
@[simp] theorem State.setCluster_faults (s : State) (n : Nat) (c : Cluster) : (s.setCluster n c).faults = s.faults := rfl
@[simp] theorem State.setCluster_faultBuf (s : State) (n : Nat) (c : Cluster) : (s.setCluster n c).faultBuf = s.faultBuf := rfl
@[simp] theorem State.setCluster_faultSeq (s : State) (n : Nat) (c : Cluster) : (s.setCluster n c).faultSeq = s.faultSeq := rfl
@[simp] theorem State.setCluster_recovering (s : State) (n : Nat) (c : Cluster) : (s.setCluster n c).recovering = s.recovering := rfl
@[simp] theorem State.setCluster_c2Active (s : State) (n : Nat) (c : Cluster) : (s.setCluster n c).c2Active = s.c2Active := rfl
@[simp] theorem State.setCluster_dailyFrom (s : State) (n : Nat) (c : Cluster) : (s.setCluster n c).dailyFrom = s.dailyFrom := rfl
@[simp] theorem State.setCluster_health (s : State) (n : Nat) (c : Cluster) : (s.setCluster n c).health = s.health := rfl
@[simp] theorem State.setCluster_sec (s : State) (n : Nat) (c : Cluster) : (s.setCluster n c).sec = s.sec := rfl
@[simp] theorem State.setCluster_power (s : State) (n : Nat) (c : Cluster) : (s.setCluster n c).power = s.power := rfl
@[simp] theorem State.setCluster_dma (s : State) (n : Nat) (c : Cluster) : (s.setCluster n c).dma = s.dma := rfl
@[simp] theorem State.setCluster_cellErr (s : State) (n : Nat) (c : Cluster) : (s.setCluster n c).cellErr = s.cellErr := rfl
@[simp] theorem State.setCluster_bankFree (s : State) (n : Nat) (c : Cluster) : (s.setCluster n c).bankFree = s.bankFree := rfl
@[simp] theorem State.setCluster_refreshRow (s : State) (n : Nat) (c : Cluster) : (s.setCluster n c).refreshRow = s.refreshRow := rfl
@[simp] theorem State.setCluster_dly (s : State) (n : Nat) (c : Cluster) : (s.setCluster n c).dly = s.dly := rfl
@[simp] theorem State.setCluster_dlyBand (s : State) (n : Nat) (c : Cluster) : (s.setCluster n c).dlyBand = s.dlyBand := rfl
@[simp] theorem State.setCluster_l2 (s : State) (n : Nat) (c : Cluster) : (s.setCluster n c).l2 = s.l2 := rfl
@[simp] theorem State.setCluster_secRam (s : State) (n : Nat) (c : Cluster) : (s.setCluster n c).secRam = s.secRam := rfl
@[simp] theorem State.setCluster_ppsAt (s : State) (n : Nat) (c : Cluster) : (s.setCluster n c).ppsAt = s.ppsAt := rfl
@[simp] theorem State.setCluster_resSeen (s : State) (n : Nat) (c : Cluster) : (s.setCluster n c).resSeen = s.resSeen := rfl
@[simp] theorem State.setCluster_turn (s : State) (n : Nat) (c : Cluster) : (s.setCluster n c).turn = s.turn := rfl
@[simp] theorem State.setJob_pending (s : State) (j : Job) : (s.setJob j).pending = s.pending := rfl
@[simp] theorem State.setJob_rsp (s : State) (j : Job) : (s.setJob j).rsp = s.rsp := rfl
@[simp] theorem State.setJob_free (s : State) (j : Job) : (s.setJob j).free = s.free := rfl
@[simp] theorem State.setJob_fuse (s : State) (j : Job) : (s.setJob j).fuse = s.fuse := rfl
@[simp] theorem State.setJob_regs (s : State) (j : Job) : (s.setJob j).regs = s.regs := rfl
@[simp] theorem State.setJob_staged (s : State) (j : Job) : (s.setJob j).staged = s.staged := rfl
@[simp] theorem State.setJob_winBusy (s : State) (j : Job) : (s.setJob j).winBusy = s.winBusy := rfl
@[simp] theorem State.setJob_winTab (s : State) (j : Job) : (s.setJob j).winTab = s.winTab := rfl
@[simp] theorem State.setJob_winGen (s : State) (j : Job) : (s.setJob j).winGen = s.winGen := rfl
@[simp] theorem State.setJob_plicClaimed (s : State) (j : Job) : (s.setJob j).plicClaimed = s.plicClaimed := rfl
@[simp] theorem State.setJob_plicPending (s : State) (j : Job) : (s.setJob j).plicPending = s.plicPending := rfl
@[simp] theorem State.setJob_dram (s : State) (j : Job) : (s.setJob j).dram = s.dram := rfl
@[simp] theorem State.setJob_tags (s : State) (j : Job) : (s.setJob j).tags = s.tags := rfl
@[simp] theorem State.setJob_poison (s : State) (j : Job) : (s.setJob j).poison = s.poison := rfl
@[simp] theorem State.setJob_queue (s : State) (j : Job) : (s.setJob j).queue = s.queue := rfl
@[simp] theorem State.setJob_held (s : State) (j : Job) : (s.setJob j).held = s.held := rfl
@[simp] theorem State.setJob_meters (s : State) (j : Job) : (s.setJob j).meters = s.meters := rfl
@[simp] theorem State.setJob_fills (s : State) (j : Job) : (s.setJob j).fills = s.fills := rfl
@[simp] theorem State.setJob_segInit (s : State) (j : Job) : (s.setJob j).segInit = s.segInit := rfl
@[simp] theorem State.setJob_refreshBank (s : State) (j : Job) : (s.setJob j).refreshBank = s.refreshBank := rfl
@[simp] theorem State.setJob_selfRefresh (s : State) (j : Job) : (s.setJob j).selfRefresh = s.selfRefresh := rfl
@[simp] theorem State.setJob_bandInForce (s : State) (j : Job) : (s.setJob j).bandInForce = s.bandInForce := rfl
@[simp] theorem State.setJob_ceLast (s : State) (j : Job) : (s.setJob j).ceLast = s.ceLast := rfl
@[simp] theorem State.setJob_cores (s : State) (j : Job) : (s.setJob j).cores = s.cores := rfl
@[simp] theorem State.setJob_clusters (s : State) (j : Job) : (s.setJob j).clusters = s.clusters := rfl
@[simp] theorem State.setJob_slots (s : State) (j : Job) : (s.setJob j).slots = s.slots := rfl
@[simp] theorem State.setJob_runCount (s : State) (j : Job) : (s.setJob j).runCount = s.runCount := rfl
@[simp] theorem State.setJob_reels (s : State) (j : Job) : (s.setJob j).reels = s.reels := rfl
@[simp] theorem State.setJob_time (s : State) (j : Job) : (s.setJob j).time = s.time := rfl
@[simp] theorem State.setJob_uptime (s : State) (j : Job) : (s.setJob j).uptime = s.uptime := rfl
@[simp] theorem State.setJob_axes (s : State) (j : Job) : (s.setJob j).axes = s.axes := rfl
@[simp] theorem State.setJob_cues (s : State) (j : Job) : (s.setJob j).cues = s.cues := rfl
@[simp] theorem State.setJob_evts (s : State) (j : Job) : (s.setJob j).evts = s.evts := rfl
@[simp] theorem State.setJob_pins (s : State) (j : Job) : (s.setJob j).pins = s.pins := rfl
@[simp] theorem State.setJob_ppsHigh (s : State) (j : Job) : (s.setJob j).ppsHigh = s.ppsHigh := rfl
@[simp] theorem State.setJob_servo (s : State) (j : Job) : (s.setJob j).servo = s.servo := rfl
@[simp] theorem State.setJob_ports (s : State) (j : Job) : (s.setJob j).ports = s.ports := rfl
@[simp] theorem State.setJob_flows (s : State) (j : Job) : (s.setJob j).flows = s.flows := rfl
@[simp] theorem State.setJob_isps (s : State) (j : Job) : (s.setJob j).isps = s.isps := rfl
@[simp] theorem State.setJob_csiClk (s : State) (j : Job) : (s.setJob j).csiClk = s.csiClk := rfl
@[simp] theorem State.setJob_vcs (s : State) (j : Job) : (s.setJob j).vcs = s.vcs := rfl
@[simp] theorem State.setJob_trkDue (s : State) (j : Job) : (s.setJob j).trkDue = s.trkDue := rfl
@[simp] theorem State.setJob_faults (s : State) (j : Job) : (s.setJob j).faults = s.faults := rfl
@[simp] theorem State.setJob_faultBuf (s : State) (j : Job) : (s.setJob j).faultBuf = s.faultBuf := rfl
@[simp] theorem State.setJob_faultSeq (s : State) (j : Job) : (s.setJob j).faultSeq = s.faultSeq := rfl
@[simp] theorem State.setJob_recovering (s : State) (j : Job) : (s.setJob j).recovering = s.recovering := rfl
@[simp] theorem State.setJob_c2Active (s : State) (j : Job) : (s.setJob j).c2Active = s.c2Active := rfl
@[simp] theorem State.setJob_dailyFrom (s : State) (j : Job) : (s.setJob j).dailyFrom = s.dailyFrom := rfl
@[simp] theorem State.setJob_health (s : State) (j : Job) : (s.setJob j).health = s.health := rfl
@[simp] theorem State.setJob_sec (s : State) (j : Job) : (s.setJob j).sec = s.sec := rfl
@[simp] theorem State.setJob_power (s : State) (j : Job) : (s.setJob j).power = s.power := rfl
@[simp] theorem State.setJob_dma (s : State) (j : Job) : (s.setJob j).dma = s.dma := rfl
@[simp] theorem State.setJob_cellErr (s : State) (j : Job) : (s.setJob j).cellErr = s.cellErr := rfl
@[simp] theorem State.setJob_bankFree (s : State) (j : Job) : (s.setJob j).bankFree = s.bankFree := rfl
@[simp] theorem State.setJob_refreshRow (s : State) (j : Job) : (s.setJob j).refreshRow = s.refreshRow := rfl
@[simp] theorem State.setJob_dly (s : State) (j : Job) : (s.setJob j).dly = s.dly := rfl
@[simp] theorem State.setJob_dlyBand (s : State) (j : Job) : (s.setJob j).dlyBand = s.dlyBand := rfl
@[simp] theorem State.setJob_l2 (s : State) (j : Job) : (s.setJob j).l2 = s.l2 := rfl
@[simp] theorem State.setJob_secRam (s : State) (j : Job) : (s.setJob j).secRam = s.secRam := rfl
@[simp] theorem State.setJob_ppsAt (s : State) (j : Job) : (s.setJob j).ppsAt = s.ppsAt := rfl
@[simp] theorem State.setJob_resSeen (s : State) (j : Job) : (s.setJob j).resSeen = s.resSeen := rfl
@[simp] theorem State.setJob_turn (s : State) (j : Job) : (s.setJob j).turn = s.turn := rfl
@[simp] theorem State.setSlot_pending (s : State) (n : Nat) (p : PSlot) : (s.setSlot n p).pending = s.pending := rfl
@[simp] theorem State.setSlot_rsp (s : State) (n : Nat) (p : PSlot) : (s.setSlot n p).rsp = s.rsp := rfl
@[simp] theorem State.setSlot_free (s : State) (n : Nat) (p : PSlot) : (s.setSlot n p).free = s.free := rfl
@[simp] theorem State.setSlot_fuse (s : State) (n : Nat) (p : PSlot) : (s.setSlot n p).fuse = s.fuse := rfl
@[simp] theorem State.setSlot_regs (s : State) (n : Nat) (p : PSlot) : (s.setSlot n p).regs = s.regs := rfl
@[simp] theorem State.setSlot_staged (s : State) (n : Nat) (p : PSlot) : (s.setSlot n p).staged = s.staged := rfl
@[simp] theorem State.setSlot_winBusy (s : State) (n : Nat) (p : PSlot) : (s.setSlot n p).winBusy = s.winBusy := rfl
@[simp] theorem State.setSlot_winTab (s : State) (n : Nat) (p : PSlot) : (s.setSlot n p).winTab = s.winTab := rfl
@[simp] theorem State.setSlot_winGen (s : State) (n : Nat) (p : PSlot) : (s.setSlot n p).winGen = s.winGen := rfl
@[simp] theorem State.setSlot_plicClaimed (s : State) (n : Nat) (p : PSlot) : (s.setSlot n p).plicClaimed = s.plicClaimed := rfl
@[simp] theorem State.setSlot_plicPending (s : State) (n : Nat) (p : PSlot) : (s.setSlot n p).plicPending = s.plicPending := rfl
@[simp] theorem State.setSlot_dram (s : State) (n : Nat) (p : PSlot) : (s.setSlot n p).dram = s.dram := rfl
@[simp] theorem State.setSlot_tags (s : State) (n : Nat) (p : PSlot) : (s.setSlot n p).tags = s.tags := rfl
@[simp] theorem State.setSlot_poison (s : State) (n : Nat) (p : PSlot) : (s.setSlot n p).poison = s.poison := rfl
@[simp] theorem State.setSlot_queue (s : State) (n : Nat) (p : PSlot) : (s.setSlot n p).queue = s.queue := rfl
@[simp] theorem State.setSlot_held (s : State) (n : Nat) (p : PSlot) : (s.setSlot n p).held = s.held := rfl
@[simp] theorem State.setSlot_meters (s : State) (n : Nat) (p : PSlot) : (s.setSlot n p).meters = s.meters := rfl
@[simp] theorem State.setSlot_fills (s : State) (n : Nat) (p : PSlot) : (s.setSlot n p).fills = s.fills := rfl
@[simp] theorem State.setSlot_segInit (s : State) (n : Nat) (p : PSlot) : (s.setSlot n p).segInit = s.segInit := rfl
@[simp] theorem State.setSlot_refreshBank (s : State) (n : Nat) (p : PSlot) : (s.setSlot n p).refreshBank = s.refreshBank := rfl
@[simp] theorem State.setSlot_selfRefresh (s : State) (n : Nat) (p : PSlot) : (s.setSlot n p).selfRefresh = s.selfRefresh := rfl
@[simp] theorem State.setSlot_bandInForce (s : State) (n : Nat) (p : PSlot) : (s.setSlot n p).bandInForce = s.bandInForce := rfl
@[simp] theorem State.setSlot_ceLast (s : State) (n : Nat) (p : PSlot) : (s.setSlot n p).ceLast = s.ceLast := rfl
@[simp] theorem State.setSlot_cores (s : State) (n : Nat) (p : PSlot) : (s.setSlot n p).cores = s.cores := rfl
@[simp] theorem State.setSlot_clusters (s : State) (n : Nat) (p : PSlot) : (s.setSlot n p).clusters = s.clusters := rfl
@[simp] theorem State.setSlot_jobs (s : State) (n : Nat) (p : PSlot) : (s.setSlot n p).jobs = s.jobs := rfl
@[simp] theorem State.setSlot_runCount (s : State) (n : Nat) (p : PSlot) : (s.setSlot n p).runCount = s.runCount := rfl
@[simp] theorem State.setSlot_reels (s : State) (n : Nat) (p : PSlot) : (s.setSlot n p).reels = s.reels := rfl
@[simp] theorem State.setSlot_time (s : State) (n : Nat) (p : PSlot) : (s.setSlot n p).time = s.time := rfl
@[simp] theorem State.setSlot_uptime (s : State) (n : Nat) (p : PSlot) : (s.setSlot n p).uptime = s.uptime := rfl
@[simp] theorem State.setSlot_axes (s : State) (n : Nat) (p : PSlot) : (s.setSlot n p).axes = s.axes := rfl
@[simp] theorem State.setSlot_cues (s : State) (n : Nat) (p : PSlot) : (s.setSlot n p).cues = s.cues := rfl
@[simp] theorem State.setSlot_evts (s : State) (n : Nat) (p : PSlot) : (s.setSlot n p).evts = s.evts := rfl
@[simp] theorem State.setSlot_pins (s : State) (n : Nat) (p : PSlot) : (s.setSlot n p).pins = s.pins := rfl
@[simp] theorem State.setSlot_ppsHigh (s : State) (n : Nat) (p : PSlot) : (s.setSlot n p).ppsHigh = s.ppsHigh := rfl
@[simp] theorem State.setSlot_servo (s : State) (n : Nat) (p : PSlot) : (s.setSlot n p).servo = s.servo := rfl
@[simp] theorem State.setSlot_ports (s : State) (n : Nat) (p : PSlot) : (s.setSlot n p).ports = s.ports := rfl
@[simp] theorem State.setSlot_flows (s : State) (n : Nat) (p : PSlot) : (s.setSlot n p).flows = s.flows := rfl
@[simp] theorem State.setSlot_isps (s : State) (n : Nat) (p : PSlot) : (s.setSlot n p).isps = s.isps := rfl
@[simp] theorem State.setSlot_csiClk (s : State) (n : Nat) (p : PSlot) : (s.setSlot n p).csiClk = s.csiClk := rfl
@[simp] theorem State.setSlot_vcs (s : State) (n : Nat) (p : PSlot) : (s.setSlot n p).vcs = s.vcs := rfl
@[simp] theorem State.setSlot_trkDue (s : State) (n : Nat) (p : PSlot) : (s.setSlot n p).trkDue = s.trkDue := rfl
@[simp] theorem State.setSlot_faults (s : State) (n : Nat) (p : PSlot) : (s.setSlot n p).faults = s.faults := rfl
@[simp] theorem State.setSlot_faultBuf (s : State) (n : Nat) (p : PSlot) : (s.setSlot n p).faultBuf = s.faultBuf := rfl
@[simp] theorem State.setSlot_faultSeq (s : State) (n : Nat) (p : PSlot) : (s.setSlot n p).faultSeq = s.faultSeq := rfl
@[simp] theorem State.setSlot_recovering (s : State) (n : Nat) (p : PSlot) : (s.setSlot n p).recovering = s.recovering := rfl
@[simp] theorem State.setSlot_c2Active (s : State) (n : Nat) (p : PSlot) : (s.setSlot n p).c2Active = s.c2Active := rfl
@[simp] theorem State.setSlot_dailyFrom (s : State) (n : Nat) (p : PSlot) : (s.setSlot n p).dailyFrom = s.dailyFrom := rfl
@[simp] theorem State.setSlot_health (s : State) (n : Nat) (p : PSlot) : (s.setSlot n p).health = s.health := rfl
@[simp] theorem State.setSlot_sec (s : State) (n : Nat) (p : PSlot) : (s.setSlot n p).sec = s.sec := rfl
@[simp] theorem State.setSlot_power (s : State) (n : Nat) (p : PSlot) : (s.setSlot n p).power = s.power := rfl
@[simp] theorem State.setSlot_dma (s : State) (n : Nat) (p : PSlot) : (s.setSlot n p).dma = s.dma := rfl
@[simp] theorem State.setSlot_cellErr (s : State) (n : Nat) (p : PSlot) : (s.setSlot n p).cellErr = s.cellErr := rfl
@[simp] theorem State.setSlot_bankFree (s : State) (n : Nat) (p : PSlot) : (s.setSlot n p).bankFree = s.bankFree := rfl
@[simp] theorem State.setSlot_refreshRow (s : State) (n : Nat) (p : PSlot) : (s.setSlot n p).refreshRow = s.refreshRow := rfl
@[simp] theorem State.setSlot_dly (s : State) (n : Nat) (p : PSlot) : (s.setSlot n p).dly = s.dly := rfl
@[simp] theorem State.setSlot_dlyBand (s : State) (n : Nat) (p : PSlot) : (s.setSlot n p).dlyBand = s.dlyBand := rfl
@[simp] theorem State.setSlot_l2 (s : State) (n : Nat) (p : PSlot) : (s.setSlot n p).l2 = s.l2 := rfl
@[simp] theorem State.setSlot_secRam (s : State) (n : Nat) (p : PSlot) : (s.setSlot n p).secRam = s.secRam := rfl
@[simp] theorem State.setSlot_ppsAt (s : State) (n : Nat) (p : PSlot) : (s.setSlot n p).ppsAt = s.ppsAt := rfl
@[simp] theorem State.setSlot_resSeen (s : State) (n : Nat) (p : PSlot) : (s.setSlot n p).resSeen = s.resSeen := rfl
@[simp] theorem State.setSlot_turn (s : State) (n : Nat) (p : PSlot) : (s.setSlot n p).turn = s.turn := rfl
@[simp] theorem State.setReel_pending (s : State) (n : Nat) (r : Reel) : (s.setReel n r).pending = s.pending := rfl
@[simp] theorem State.setReel_rsp (s : State) (n : Nat) (r : Reel) : (s.setReel n r).rsp = s.rsp := rfl
@[simp] theorem State.setReel_free (s : State) (n : Nat) (r : Reel) : (s.setReel n r).free = s.free := rfl
@[simp] theorem State.setReel_fuse (s : State) (n : Nat) (r : Reel) : (s.setReel n r).fuse = s.fuse := rfl
@[simp] theorem State.setReel_regs (s : State) (n : Nat) (r : Reel) : (s.setReel n r).regs = s.regs := rfl
@[simp] theorem State.setReel_staged (s : State) (n : Nat) (r : Reel) : (s.setReel n r).staged = s.staged := rfl
@[simp] theorem State.setReel_winBusy (s : State) (n : Nat) (r : Reel) : (s.setReel n r).winBusy = s.winBusy := rfl
@[simp] theorem State.setReel_winTab (s : State) (n : Nat) (r : Reel) : (s.setReel n r).winTab = s.winTab := rfl
@[simp] theorem State.setReel_winGen (s : State) (n : Nat) (r : Reel) : (s.setReel n r).winGen = s.winGen := rfl
@[simp] theorem State.setReel_plicClaimed (s : State) (n : Nat) (r : Reel) : (s.setReel n r).plicClaimed = s.plicClaimed := rfl
@[simp] theorem State.setReel_plicPending (s : State) (n : Nat) (r : Reel) : (s.setReel n r).plicPending = s.plicPending := rfl
@[simp] theorem State.setReel_dram (s : State) (n : Nat) (r : Reel) : (s.setReel n r).dram = s.dram := rfl
@[simp] theorem State.setReel_tags (s : State) (n : Nat) (r : Reel) : (s.setReel n r).tags = s.tags := rfl
@[simp] theorem State.setReel_poison (s : State) (n : Nat) (r : Reel) : (s.setReel n r).poison = s.poison := rfl
@[simp] theorem State.setReel_queue (s : State) (n : Nat) (r : Reel) : (s.setReel n r).queue = s.queue := rfl
@[simp] theorem State.setReel_held (s : State) (n : Nat) (r : Reel) : (s.setReel n r).held = s.held := rfl
@[simp] theorem State.setReel_meters (s : State) (n : Nat) (r : Reel) : (s.setReel n r).meters = s.meters := rfl
@[simp] theorem State.setReel_fills (s : State) (n : Nat) (r : Reel) : (s.setReel n r).fills = s.fills := rfl
@[simp] theorem State.setReel_segInit (s : State) (n : Nat) (r : Reel) : (s.setReel n r).segInit = s.segInit := rfl
@[simp] theorem State.setReel_refreshBank (s : State) (n : Nat) (r : Reel) : (s.setReel n r).refreshBank = s.refreshBank := rfl
@[simp] theorem State.setReel_selfRefresh (s : State) (n : Nat) (r : Reel) : (s.setReel n r).selfRefresh = s.selfRefresh := rfl
@[simp] theorem State.setReel_bandInForce (s : State) (n : Nat) (r : Reel) : (s.setReel n r).bandInForce = s.bandInForce := rfl
@[simp] theorem State.setReel_ceLast (s : State) (n : Nat) (r : Reel) : (s.setReel n r).ceLast = s.ceLast := rfl
@[simp] theorem State.setReel_cores (s : State) (n : Nat) (r : Reel) : (s.setReel n r).cores = s.cores := rfl
@[simp] theorem State.setReel_clusters (s : State) (n : Nat) (r : Reel) : (s.setReel n r).clusters = s.clusters := rfl
@[simp] theorem State.setReel_slots (s : State) (n : Nat) (r : Reel) : (s.setReel n r).slots = s.slots := rfl
@[simp] theorem State.setReel_jobs (s : State) (n : Nat) (r : Reel) : (s.setReel n r).jobs = s.jobs := rfl
@[simp] theorem State.setReel_runCount (s : State) (n : Nat) (r : Reel) : (s.setReel n r).runCount = s.runCount := rfl
@[simp] theorem State.setReel_time (s : State) (n : Nat) (r : Reel) : (s.setReel n r).time = s.time := rfl
@[simp] theorem State.setReel_uptime (s : State) (n : Nat) (r : Reel) : (s.setReel n r).uptime = s.uptime := rfl
@[simp] theorem State.setReel_axes (s : State) (n : Nat) (r : Reel) : (s.setReel n r).axes = s.axes := rfl
@[simp] theorem State.setReel_cues (s : State) (n : Nat) (r : Reel) : (s.setReel n r).cues = s.cues := rfl
@[simp] theorem State.setReel_evts (s : State) (n : Nat) (r : Reel) : (s.setReel n r).evts = s.evts := rfl
@[simp] theorem State.setReel_pins (s : State) (n : Nat) (r : Reel) : (s.setReel n r).pins = s.pins := rfl
@[simp] theorem State.setReel_ppsHigh (s : State) (n : Nat) (r : Reel) : (s.setReel n r).ppsHigh = s.ppsHigh := rfl
@[simp] theorem State.setReel_servo (s : State) (n : Nat) (r : Reel) : (s.setReel n r).servo = s.servo := rfl
@[simp] theorem State.setReel_ports (s : State) (n : Nat) (r : Reel) : (s.setReel n r).ports = s.ports := rfl
@[simp] theorem State.setReel_flows (s : State) (n : Nat) (r : Reel) : (s.setReel n r).flows = s.flows := rfl
@[simp] theorem State.setReel_isps (s : State) (n : Nat) (r : Reel) : (s.setReel n r).isps = s.isps := rfl
@[simp] theorem State.setReel_csiClk (s : State) (n : Nat) (r : Reel) : (s.setReel n r).csiClk = s.csiClk := rfl
@[simp] theorem State.setReel_vcs (s : State) (n : Nat) (r : Reel) : (s.setReel n r).vcs = s.vcs := rfl
@[simp] theorem State.setReel_trkDue (s : State) (n : Nat) (r : Reel) : (s.setReel n r).trkDue = s.trkDue := rfl
@[simp] theorem State.setReel_faults (s : State) (n : Nat) (r : Reel) : (s.setReel n r).faults = s.faults := rfl
@[simp] theorem State.setReel_faultBuf (s : State) (n : Nat) (r : Reel) : (s.setReel n r).faultBuf = s.faultBuf := rfl
@[simp] theorem State.setReel_faultSeq (s : State) (n : Nat) (r : Reel) : (s.setReel n r).faultSeq = s.faultSeq := rfl
@[simp] theorem State.setReel_recovering (s : State) (n : Nat) (r : Reel) : (s.setReel n r).recovering = s.recovering := rfl
@[simp] theorem State.setReel_c2Active (s : State) (n : Nat) (r : Reel) : (s.setReel n r).c2Active = s.c2Active := rfl
@[simp] theorem State.setReel_dailyFrom (s : State) (n : Nat) (r : Reel) : (s.setReel n r).dailyFrom = s.dailyFrom := rfl
@[simp] theorem State.setReel_health (s : State) (n : Nat) (r : Reel) : (s.setReel n r).health = s.health := rfl
@[simp] theorem State.setReel_sec (s : State) (n : Nat) (r : Reel) : (s.setReel n r).sec = s.sec := rfl
@[simp] theorem State.setReel_power (s : State) (n : Nat) (r : Reel) : (s.setReel n r).power = s.power := rfl
@[simp] theorem State.setReel_dma (s : State) (n : Nat) (r : Reel) : (s.setReel n r).dma = s.dma := rfl
@[simp] theorem State.setReel_cellErr (s : State) (n : Nat) (r : Reel) : (s.setReel n r).cellErr = s.cellErr := rfl
@[simp] theorem State.setReel_bankFree (s : State) (n : Nat) (r : Reel) : (s.setReel n r).bankFree = s.bankFree := rfl
@[simp] theorem State.setReel_refreshRow (s : State) (n : Nat) (r : Reel) : (s.setReel n r).refreshRow = s.refreshRow := rfl
@[simp] theorem State.setReel_dly (s : State) (n : Nat) (r : Reel) : (s.setReel n r).dly = s.dly := rfl
@[simp] theorem State.setReel_dlyBand (s : State) (n : Nat) (r : Reel) : (s.setReel n r).dlyBand = s.dlyBand := rfl
@[simp] theorem State.setReel_l2 (s : State) (n : Nat) (r : Reel) : (s.setReel n r).l2 = s.l2 := rfl
@[simp] theorem State.setReel_secRam (s : State) (n : Nat) (r : Reel) : (s.setReel n r).secRam = s.secRam := rfl
@[simp] theorem State.setReel_ppsAt (s : State) (n : Nat) (r : Reel) : (s.setReel n r).ppsAt = s.ppsAt := rfl
@[simp] theorem State.setReel_resSeen (s : State) (n : Nat) (r : Reel) : (s.setReel n r).resSeen = s.resSeen := rfl
@[simp] theorem State.setReel_turn (s : State) (n : Nat) (r : Reel) : (s.setReel n r).turn = s.turn := rfl
@[simp] theorem State.setAxis_pending (s : State) (n : Nat) (a : Axis) : (s.setAxis n a).pending = s.pending := rfl
@[simp] theorem State.setAxis_rsp (s : State) (n : Nat) (a : Axis) : (s.setAxis n a).rsp = s.rsp := rfl
@[simp] theorem State.setAxis_free (s : State) (n : Nat) (a : Axis) : (s.setAxis n a).free = s.free := rfl
@[simp] theorem State.setAxis_fuse (s : State) (n : Nat) (a : Axis) : (s.setAxis n a).fuse = s.fuse := rfl
@[simp] theorem State.setAxis_regs (s : State) (n : Nat) (a : Axis) : (s.setAxis n a).regs = s.regs := rfl
@[simp] theorem State.setAxis_staged (s : State) (n : Nat) (a : Axis) : (s.setAxis n a).staged = s.staged := rfl
@[simp] theorem State.setAxis_winBusy (s : State) (n : Nat) (a : Axis) : (s.setAxis n a).winBusy = s.winBusy := rfl
@[simp] theorem State.setAxis_winTab (s : State) (n : Nat) (a : Axis) : (s.setAxis n a).winTab = s.winTab := rfl
@[simp] theorem State.setAxis_winGen (s : State) (n : Nat) (a : Axis) : (s.setAxis n a).winGen = s.winGen := rfl
@[simp] theorem State.setAxis_plicClaimed (s : State) (n : Nat) (a : Axis) : (s.setAxis n a).plicClaimed = s.plicClaimed := rfl
@[simp] theorem State.setAxis_plicPending (s : State) (n : Nat) (a : Axis) : (s.setAxis n a).plicPending = s.plicPending := rfl
@[simp] theorem State.setAxis_dram (s : State) (n : Nat) (a : Axis) : (s.setAxis n a).dram = s.dram := rfl
@[simp] theorem State.setAxis_tags (s : State) (n : Nat) (a : Axis) : (s.setAxis n a).tags = s.tags := rfl
@[simp] theorem State.setAxis_poison (s : State) (n : Nat) (a : Axis) : (s.setAxis n a).poison = s.poison := rfl
@[simp] theorem State.setAxis_queue (s : State) (n : Nat) (a : Axis) : (s.setAxis n a).queue = s.queue := rfl
@[simp] theorem State.setAxis_held (s : State) (n : Nat) (a : Axis) : (s.setAxis n a).held = s.held := rfl
@[simp] theorem State.setAxis_meters (s : State) (n : Nat) (a : Axis) : (s.setAxis n a).meters = s.meters := rfl
@[simp] theorem State.setAxis_fills (s : State) (n : Nat) (a : Axis) : (s.setAxis n a).fills = s.fills := rfl
@[simp] theorem State.setAxis_segInit (s : State) (n : Nat) (a : Axis) : (s.setAxis n a).segInit = s.segInit := rfl
@[simp] theorem State.setAxis_refreshBank (s : State) (n : Nat) (a : Axis) : (s.setAxis n a).refreshBank = s.refreshBank := rfl
@[simp] theorem State.setAxis_selfRefresh (s : State) (n : Nat) (a : Axis) : (s.setAxis n a).selfRefresh = s.selfRefresh := rfl
@[simp] theorem State.setAxis_bandInForce (s : State) (n : Nat) (a : Axis) : (s.setAxis n a).bandInForce = s.bandInForce := rfl
@[simp] theorem State.setAxis_ceLast (s : State) (n : Nat) (a : Axis) : (s.setAxis n a).ceLast = s.ceLast := rfl
@[simp] theorem State.setAxis_cores (s : State) (n : Nat) (a : Axis) : (s.setAxis n a).cores = s.cores := rfl
@[simp] theorem State.setAxis_clusters (s : State) (n : Nat) (a : Axis) : (s.setAxis n a).clusters = s.clusters := rfl
@[simp] theorem State.setAxis_slots (s : State) (n : Nat) (a : Axis) : (s.setAxis n a).slots = s.slots := rfl
@[simp] theorem State.setAxis_jobs (s : State) (n : Nat) (a : Axis) : (s.setAxis n a).jobs = s.jobs := rfl
@[simp] theorem State.setAxis_runCount (s : State) (n : Nat) (a : Axis) : (s.setAxis n a).runCount = s.runCount := rfl
@[simp] theorem State.setAxis_reels (s : State) (n : Nat) (a : Axis) : (s.setAxis n a).reels = s.reels := rfl
@[simp] theorem State.setAxis_time (s : State) (n : Nat) (a : Axis) : (s.setAxis n a).time = s.time := rfl
@[simp] theorem State.setAxis_uptime (s : State) (n : Nat) (a : Axis) : (s.setAxis n a).uptime = s.uptime := rfl
@[simp] theorem State.setAxis_cues (s : State) (n : Nat) (a : Axis) : (s.setAxis n a).cues = s.cues := rfl
@[simp] theorem State.setAxis_evts (s : State) (n : Nat) (a : Axis) : (s.setAxis n a).evts = s.evts := rfl
@[simp] theorem State.setAxis_pins (s : State) (n : Nat) (a : Axis) : (s.setAxis n a).pins = s.pins := rfl
@[simp] theorem State.setAxis_ppsHigh (s : State) (n : Nat) (a : Axis) : (s.setAxis n a).ppsHigh = s.ppsHigh := rfl
@[simp] theorem State.setAxis_servo (s : State) (n : Nat) (a : Axis) : (s.setAxis n a).servo = s.servo := rfl
@[simp] theorem State.setAxis_ports (s : State) (n : Nat) (a : Axis) : (s.setAxis n a).ports = s.ports := rfl
@[simp] theorem State.setAxis_flows (s : State) (n : Nat) (a : Axis) : (s.setAxis n a).flows = s.flows := rfl
@[simp] theorem State.setAxis_isps (s : State) (n : Nat) (a : Axis) : (s.setAxis n a).isps = s.isps := rfl
@[simp] theorem State.setAxis_csiClk (s : State) (n : Nat) (a : Axis) : (s.setAxis n a).csiClk = s.csiClk := rfl
@[simp] theorem State.setAxis_vcs (s : State) (n : Nat) (a : Axis) : (s.setAxis n a).vcs = s.vcs := rfl
@[simp] theorem State.setAxis_trkDue (s : State) (n : Nat) (a : Axis) : (s.setAxis n a).trkDue = s.trkDue := rfl
@[simp] theorem State.setAxis_faults (s : State) (n : Nat) (a : Axis) : (s.setAxis n a).faults = s.faults := rfl
@[simp] theorem State.setAxis_faultBuf (s : State) (n : Nat) (a : Axis) : (s.setAxis n a).faultBuf = s.faultBuf := rfl
@[simp] theorem State.setAxis_faultSeq (s : State) (n : Nat) (a : Axis) : (s.setAxis n a).faultSeq = s.faultSeq := rfl
@[simp] theorem State.setAxis_recovering (s : State) (n : Nat) (a : Axis) : (s.setAxis n a).recovering = s.recovering := rfl
@[simp] theorem State.setAxis_c2Active (s : State) (n : Nat) (a : Axis) : (s.setAxis n a).c2Active = s.c2Active := rfl
@[simp] theorem State.setAxis_dailyFrom (s : State) (n : Nat) (a : Axis) : (s.setAxis n a).dailyFrom = s.dailyFrom := rfl
@[simp] theorem State.setAxis_health (s : State) (n : Nat) (a : Axis) : (s.setAxis n a).health = s.health := rfl
@[simp] theorem State.setAxis_sec (s : State) (n : Nat) (a : Axis) : (s.setAxis n a).sec = s.sec := rfl
@[simp] theorem State.setAxis_power (s : State) (n : Nat) (a : Axis) : (s.setAxis n a).power = s.power := rfl
@[simp] theorem State.setAxis_dma (s : State) (n : Nat) (a : Axis) : (s.setAxis n a).dma = s.dma := rfl
@[simp] theorem State.setAxis_cellErr (s : State) (n : Nat) (a : Axis) : (s.setAxis n a).cellErr = s.cellErr := rfl
@[simp] theorem State.setAxis_bankFree (s : State) (n : Nat) (a : Axis) : (s.setAxis n a).bankFree = s.bankFree := rfl
@[simp] theorem State.setAxis_refreshRow (s : State) (n : Nat) (a : Axis) : (s.setAxis n a).refreshRow = s.refreshRow := rfl
@[simp] theorem State.setAxis_dly (s : State) (n : Nat) (a : Axis) : (s.setAxis n a).dly = s.dly := rfl
@[simp] theorem State.setAxis_dlyBand (s : State) (n : Nat) (a : Axis) : (s.setAxis n a).dlyBand = s.dlyBand := rfl
@[simp] theorem State.setAxis_l2 (s : State) (n : Nat) (a : Axis) : (s.setAxis n a).l2 = s.l2 := rfl
@[simp] theorem State.setAxis_secRam (s : State) (n : Nat) (a : Axis) : (s.setAxis n a).secRam = s.secRam := rfl
@[simp] theorem State.setAxis_ppsAt (s : State) (n : Nat) (a : Axis) : (s.setAxis n a).ppsAt = s.ppsAt := rfl
@[simp] theorem State.setAxis_resSeen (s : State) (n : Nat) (a : Axis) : (s.setAxis n a).resSeen = s.resSeen := rfl
@[simp] theorem State.setAxis_turn (s : State) (n : Nat) (a : Axis) : (s.setAxis n a).turn = s.turn := rfl
@[simp] theorem State.setCue_pending (s : State) (n : Nat) (c : Cue) : (s.setCue n c).pending = s.pending := rfl
@[simp] theorem State.setCue_rsp (s : State) (n : Nat) (c : Cue) : (s.setCue n c).rsp = s.rsp := rfl
@[simp] theorem State.setCue_free (s : State) (n : Nat) (c : Cue) : (s.setCue n c).free = s.free := rfl
@[simp] theorem State.setCue_fuse (s : State) (n : Nat) (c : Cue) : (s.setCue n c).fuse = s.fuse := rfl
@[simp] theorem State.setCue_regs (s : State) (n : Nat) (c : Cue) : (s.setCue n c).regs = s.regs := rfl
@[simp] theorem State.setCue_staged (s : State) (n : Nat) (c : Cue) : (s.setCue n c).staged = s.staged := rfl
@[simp] theorem State.setCue_winBusy (s : State) (n : Nat) (c : Cue) : (s.setCue n c).winBusy = s.winBusy := rfl
@[simp] theorem State.setCue_winTab (s : State) (n : Nat) (c : Cue) : (s.setCue n c).winTab = s.winTab := rfl
@[simp] theorem State.setCue_winGen (s : State) (n : Nat) (c : Cue) : (s.setCue n c).winGen = s.winGen := rfl
@[simp] theorem State.setCue_plicClaimed (s : State) (n : Nat) (c : Cue) : (s.setCue n c).plicClaimed = s.plicClaimed := rfl
@[simp] theorem State.setCue_plicPending (s : State) (n : Nat) (c : Cue) : (s.setCue n c).plicPending = s.plicPending := rfl
@[simp] theorem State.setCue_dram (s : State) (n : Nat) (c : Cue) : (s.setCue n c).dram = s.dram := rfl
@[simp] theorem State.setCue_tags (s : State) (n : Nat) (c : Cue) : (s.setCue n c).tags = s.tags := rfl
@[simp] theorem State.setCue_poison (s : State) (n : Nat) (c : Cue) : (s.setCue n c).poison = s.poison := rfl
@[simp] theorem State.setCue_queue (s : State) (n : Nat) (c : Cue) : (s.setCue n c).queue = s.queue := rfl
@[simp] theorem State.setCue_held (s : State) (n : Nat) (c : Cue) : (s.setCue n c).held = s.held := rfl
@[simp] theorem State.setCue_meters (s : State) (n : Nat) (c : Cue) : (s.setCue n c).meters = s.meters := rfl
@[simp] theorem State.setCue_fills (s : State) (n : Nat) (c : Cue) : (s.setCue n c).fills = s.fills := rfl
@[simp] theorem State.setCue_segInit (s : State) (n : Nat) (c : Cue) : (s.setCue n c).segInit = s.segInit := rfl
@[simp] theorem State.setCue_refreshBank (s : State) (n : Nat) (c : Cue) : (s.setCue n c).refreshBank = s.refreshBank := rfl
@[simp] theorem State.setCue_selfRefresh (s : State) (n : Nat) (c : Cue) : (s.setCue n c).selfRefresh = s.selfRefresh := rfl
@[simp] theorem State.setCue_bandInForce (s : State) (n : Nat) (c : Cue) : (s.setCue n c).bandInForce = s.bandInForce := rfl
@[simp] theorem State.setCue_ceLast (s : State) (n : Nat) (c : Cue) : (s.setCue n c).ceLast = s.ceLast := rfl
@[simp] theorem State.setCue_cores (s : State) (n : Nat) (c : Cue) : (s.setCue n c).cores = s.cores := rfl
@[simp] theorem State.setCue_clusters (s : State) (n : Nat) (c : Cue) : (s.setCue n c).clusters = s.clusters := rfl
@[simp] theorem State.setCue_slots (s : State) (n : Nat) (c : Cue) : (s.setCue n c).slots = s.slots := rfl
@[simp] theorem State.setCue_jobs (s : State) (n : Nat) (c : Cue) : (s.setCue n c).jobs = s.jobs := rfl
@[simp] theorem State.setCue_runCount (s : State) (n : Nat) (c : Cue) : (s.setCue n c).runCount = s.runCount := rfl
@[simp] theorem State.setCue_reels (s : State) (n : Nat) (c : Cue) : (s.setCue n c).reels = s.reels := rfl
@[simp] theorem State.setCue_time (s : State) (n : Nat) (c : Cue) : (s.setCue n c).time = s.time := rfl
@[simp] theorem State.setCue_uptime (s : State) (n : Nat) (c : Cue) : (s.setCue n c).uptime = s.uptime := rfl
@[simp] theorem State.setCue_axes (s : State) (n : Nat) (c : Cue) : (s.setCue n c).axes = s.axes := rfl
@[simp] theorem State.setCue_evts (s : State) (n : Nat) (c : Cue) : (s.setCue n c).evts = s.evts := rfl
@[simp] theorem State.setCue_pins (s : State) (n : Nat) (c : Cue) : (s.setCue n c).pins = s.pins := rfl
@[simp] theorem State.setCue_ppsHigh (s : State) (n : Nat) (c : Cue) : (s.setCue n c).ppsHigh = s.ppsHigh := rfl
@[simp] theorem State.setCue_servo (s : State) (n : Nat) (c : Cue) : (s.setCue n c).servo = s.servo := rfl
@[simp] theorem State.setCue_ports (s : State) (n : Nat) (c : Cue) : (s.setCue n c).ports = s.ports := rfl
@[simp] theorem State.setCue_flows (s : State) (n : Nat) (c : Cue) : (s.setCue n c).flows = s.flows := rfl
@[simp] theorem State.setCue_isps (s : State) (n : Nat) (c : Cue) : (s.setCue n c).isps = s.isps := rfl
@[simp] theorem State.setCue_csiClk (s : State) (n : Nat) (c : Cue) : (s.setCue n c).csiClk = s.csiClk := rfl
@[simp] theorem State.setCue_vcs (s : State) (n : Nat) (c : Cue) : (s.setCue n c).vcs = s.vcs := rfl
@[simp] theorem State.setCue_trkDue (s : State) (n : Nat) (c : Cue) : (s.setCue n c).trkDue = s.trkDue := rfl
@[simp] theorem State.setCue_faults (s : State) (n : Nat) (c : Cue) : (s.setCue n c).faults = s.faults := rfl
@[simp] theorem State.setCue_faultBuf (s : State) (n : Nat) (c : Cue) : (s.setCue n c).faultBuf = s.faultBuf := rfl
@[simp] theorem State.setCue_faultSeq (s : State) (n : Nat) (c : Cue) : (s.setCue n c).faultSeq = s.faultSeq := rfl
@[simp] theorem State.setCue_recovering (s : State) (n : Nat) (c : Cue) : (s.setCue n c).recovering = s.recovering := rfl
@[simp] theorem State.setCue_c2Active (s : State) (n : Nat) (c : Cue) : (s.setCue n c).c2Active = s.c2Active := rfl
@[simp] theorem State.setCue_dailyFrom (s : State) (n : Nat) (c : Cue) : (s.setCue n c).dailyFrom = s.dailyFrom := rfl
@[simp] theorem State.setCue_health (s : State) (n : Nat) (c : Cue) : (s.setCue n c).health = s.health := rfl
@[simp] theorem State.setCue_sec (s : State) (n : Nat) (c : Cue) : (s.setCue n c).sec = s.sec := rfl
@[simp] theorem State.setCue_power (s : State) (n : Nat) (c : Cue) : (s.setCue n c).power = s.power := rfl
@[simp] theorem State.setCue_dma (s : State) (n : Nat) (c : Cue) : (s.setCue n c).dma = s.dma := rfl
@[simp] theorem State.setCue_cellErr (s : State) (n : Nat) (c : Cue) : (s.setCue n c).cellErr = s.cellErr := rfl
@[simp] theorem State.setCue_bankFree (s : State) (n : Nat) (c : Cue) : (s.setCue n c).bankFree = s.bankFree := rfl
@[simp] theorem State.setCue_refreshRow (s : State) (n : Nat) (c : Cue) : (s.setCue n c).refreshRow = s.refreshRow := rfl
@[simp] theorem State.setCue_dly (s : State) (n : Nat) (c : Cue) : (s.setCue n c).dly = s.dly := rfl
@[simp] theorem State.setCue_dlyBand (s : State) (n : Nat) (c : Cue) : (s.setCue n c).dlyBand = s.dlyBand := rfl
@[simp] theorem State.setCue_l2 (s : State) (n : Nat) (c : Cue) : (s.setCue n c).l2 = s.l2 := rfl
@[simp] theorem State.setCue_secRam (s : State) (n : Nat) (c : Cue) : (s.setCue n c).secRam = s.secRam := rfl
@[simp] theorem State.setCue_ppsAt (s : State) (n : Nat) (c : Cue) : (s.setCue n c).ppsAt = s.ppsAt := rfl
@[simp] theorem State.setCue_resSeen (s : State) (n : Nat) (c : Cue) : (s.setCue n c).resSeen = s.resSeen := rfl
@[simp] theorem State.setCue_turn (s : State) (n : Nat) (c : Cue) : (s.setCue n c).turn = s.turn := rfl
@[simp] theorem State.setPin_pending (s : State) (n : Nat) (p : Pin) : (s.setPin n p).pending = s.pending := rfl
@[simp] theorem State.setPin_rsp (s : State) (n : Nat) (p : Pin) : (s.setPin n p).rsp = s.rsp := rfl
@[simp] theorem State.setPin_free (s : State) (n : Nat) (p : Pin) : (s.setPin n p).free = s.free := rfl
@[simp] theorem State.setPin_fuse (s : State) (n : Nat) (p : Pin) : (s.setPin n p).fuse = s.fuse := rfl
@[simp] theorem State.setPin_regs (s : State) (n : Nat) (p : Pin) : (s.setPin n p).regs = s.regs := rfl
@[simp] theorem State.setPin_staged (s : State) (n : Nat) (p : Pin) : (s.setPin n p).staged = s.staged := rfl
@[simp] theorem State.setPin_winBusy (s : State) (n : Nat) (p : Pin) : (s.setPin n p).winBusy = s.winBusy := rfl
@[simp] theorem State.setPin_winTab (s : State) (n : Nat) (p : Pin) : (s.setPin n p).winTab = s.winTab := rfl
@[simp] theorem State.setPin_winGen (s : State) (n : Nat) (p : Pin) : (s.setPin n p).winGen = s.winGen := rfl
@[simp] theorem State.setPin_plicClaimed (s : State) (n : Nat) (p : Pin) : (s.setPin n p).plicClaimed = s.plicClaimed := rfl
@[simp] theorem State.setPin_plicPending (s : State) (n : Nat) (p : Pin) : (s.setPin n p).plicPending = s.plicPending := rfl
@[simp] theorem State.setPin_dram (s : State) (n : Nat) (p : Pin) : (s.setPin n p).dram = s.dram := rfl
@[simp] theorem State.setPin_tags (s : State) (n : Nat) (p : Pin) : (s.setPin n p).tags = s.tags := rfl
@[simp] theorem State.setPin_poison (s : State) (n : Nat) (p : Pin) : (s.setPin n p).poison = s.poison := rfl
@[simp] theorem State.setPin_queue (s : State) (n : Nat) (p : Pin) : (s.setPin n p).queue = s.queue := rfl
@[simp] theorem State.setPin_held (s : State) (n : Nat) (p : Pin) : (s.setPin n p).held = s.held := rfl
@[simp] theorem State.setPin_meters (s : State) (n : Nat) (p : Pin) : (s.setPin n p).meters = s.meters := rfl
@[simp] theorem State.setPin_fills (s : State) (n : Nat) (p : Pin) : (s.setPin n p).fills = s.fills := rfl
@[simp] theorem State.setPin_segInit (s : State) (n : Nat) (p : Pin) : (s.setPin n p).segInit = s.segInit := rfl
@[simp] theorem State.setPin_refreshBank (s : State) (n : Nat) (p : Pin) : (s.setPin n p).refreshBank = s.refreshBank := rfl
@[simp] theorem State.setPin_selfRefresh (s : State) (n : Nat) (p : Pin) : (s.setPin n p).selfRefresh = s.selfRefresh := rfl
@[simp] theorem State.setPin_bandInForce (s : State) (n : Nat) (p : Pin) : (s.setPin n p).bandInForce = s.bandInForce := rfl
@[simp] theorem State.setPin_ceLast (s : State) (n : Nat) (p : Pin) : (s.setPin n p).ceLast = s.ceLast := rfl
@[simp] theorem State.setPin_cores (s : State) (n : Nat) (p : Pin) : (s.setPin n p).cores = s.cores := rfl
@[simp] theorem State.setPin_clusters (s : State) (n : Nat) (p : Pin) : (s.setPin n p).clusters = s.clusters := rfl
@[simp] theorem State.setPin_slots (s : State) (n : Nat) (p : Pin) : (s.setPin n p).slots = s.slots := rfl
@[simp] theorem State.setPin_jobs (s : State) (n : Nat) (p : Pin) : (s.setPin n p).jobs = s.jobs := rfl
@[simp] theorem State.setPin_runCount (s : State) (n : Nat) (p : Pin) : (s.setPin n p).runCount = s.runCount := rfl
@[simp] theorem State.setPin_reels (s : State) (n : Nat) (p : Pin) : (s.setPin n p).reels = s.reels := rfl
@[simp] theorem State.setPin_time (s : State) (n : Nat) (p : Pin) : (s.setPin n p).time = s.time := rfl
@[simp] theorem State.setPin_uptime (s : State) (n : Nat) (p : Pin) : (s.setPin n p).uptime = s.uptime := rfl
@[simp] theorem State.setPin_axes (s : State) (n : Nat) (p : Pin) : (s.setPin n p).axes = s.axes := rfl
@[simp] theorem State.setPin_cues (s : State) (n : Nat) (p : Pin) : (s.setPin n p).cues = s.cues := rfl
@[simp] theorem State.setPin_evts (s : State) (n : Nat) (p : Pin) : (s.setPin n p).evts = s.evts := rfl
@[simp] theorem State.setPin_ppsHigh (s : State) (n : Nat) (p : Pin) : (s.setPin n p).ppsHigh = s.ppsHigh := rfl
@[simp] theorem State.setPin_servo (s : State) (n : Nat) (p : Pin) : (s.setPin n p).servo = s.servo := rfl
@[simp] theorem State.setPin_ports (s : State) (n : Nat) (p : Pin) : (s.setPin n p).ports = s.ports := rfl
@[simp] theorem State.setPin_flows (s : State) (n : Nat) (p : Pin) : (s.setPin n p).flows = s.flows := rfl
@[simp] theorem State.setPin_isps (s : State) (n : Nat) (p : Pin) : (s.setPin n p).isps = s.isps := rfl
@[simp] theorem State.setPin_csiClk (s : State) (n : Nat) (p : Pin) : (s.setPin n p).csiClk = s.csiClk := rfl
@[simp] theorem State.setPin_vcs (s : State) (n : Nat) (p : Pin) : (s.setPin n p).vcs = s.vcs := rfl
@[simp] theorem State.setPin_trkDue (s : State) (n : Nat) (p : Pin) : (s.setPin n p).trkDue = s.trkDue := rfl
@[simp] theorem State.setPin_faults (s : State) (n : Nat) (p : Pin) : (s.setPin n p).faults = s.faults := rfl
@[simp] theorem State.setPin_faultBuf (s : State) (n : Nat) (p : Pin) : (s.setPin n p).faultBuf = s.faultBuf := rfl
@[simp] theorem State.setPin_faultSeq (s : State) (n : Nat) (p : Pin) : (s.setPin n p).faultSeq = s.faultSeq := rfl
@[simp] theorem State.setPin_recovering (s : State) (n : Nat) (p : Pin) : (s.setPin n p).recovering = s.recovering := rfl
@[simp] theorem State.setPin_c2Active (s : State) (n : Nat) (p : Pin) : (s.setPin n p).c2Active = s.c2Active := rfl
@[simp] theorem State.setPin_dailyFrom (s : State) (n : Nat) (p : Pin) : (s.setPin n p).dailyFrom = s.dailyFrom := rfl
@[simp] theorem State.setPin_health (s : State) (n : Nat) (p : Pin) : (s.setPin n p).health = s.health := rfl
@[simp] theorem State.setPin_sec (s : State) (n : Nat) (p : Pin) : (s.setPin n p).sec = s.sec := rfl
@[simp] theorem State.setPin_power (s : State) (n : Nat) (p : Pin) : (s.setPin n p).power = s.power := rfl
@[simp] theorem State.setPin_dma (s : State) (n : Nat) (p : Pin) : (s.setPin n p).dma = s.dma := rfl
@[simp] theorem State.setPin_cellErr (s : State) (n : Nat) (p : Pin) : (s.setPin n p).cellErr = s.cellErr := rfl
@[simp] theorem State.setPin_bankFree (s : State) (n : Nat) (p : Pin) : (s.setPin n p).bankFree = s.bankFree := rfl
@[simp] theorem State.setPin_refreshRow (s : State) (n : Nat) (p : Pin) : (s.setPin n p).refreshRow = s.refreshRow := rfl
@[simp] theorem State.setPin_dly (s : State) (n : Nat) (p : Pin) : (s.setPin n p).dly = s.dly := rfl
@[simp] theorem State.setPin_dlyBand (s : State) (n : Nat) (p : Pin) : (s.setPin n p).dlyBand = s.dlyBand := rfl
@[simp] theorem State.setPin_l2 (s : State) (n : Nat) (p : Pin) : (s.setPin n p).l2 = s.l2 := rfl
@[simp] theorem State.setPin_secRam (s : State) (n : Nat) (p : Pin) : (s.setPin n p).secRam = s.secRam := rfl
@[simp] theorem State.setPin_ppsAt (s : State) (n : Nat) (p : Pin) : (s.setPin n p).ppsAt = s.ppsAt := rfl
@[simp] theorem State.setPin_resSeen (s : State) (n : Nat) (p : Pin) : (s.setPin n p).resSeen = s.resSeen := rfl
@[simp] theorem State.setPin_turn (s : State) (n : Nat) (p : Pin) : (s.setPin n p).turn = s.turn := rfl
@[simp] theorem State.setPort_pending (s : State) (p : Nat) (x : Port) : (s.setPort p x).pending = s.pending := rfl
@[simp] theorem State.setPort_rsp (s : State) (p : Nat) (x : Port) : (s.setPort p x).rsp = s.rsp := rfl
@[simp] theorem State.setPort_free (s : State) (p : Nat) (x : Port) : (s.setPort p x).free = s.free := rfl
@[simp] theorem State.setPort_fuse (s : State) (p : Nat) (x : Port) : (s.setPort p x).fuse = s.fuse := rfl
@[simp] theorem State.setPort_regs (s : State) (p : Nat) (x : Port) : (s.setPort p x).regs = s.regs := rfl
@[simp] theorem State.setPort_staged (s : State) (p : Nat) (x : Port) : (s.setPort p x).staged = s.staged := rfl
@[simp] theorem State.setPort_winBusy (s : State) (p : Nat) (x : Port) : (s.setPort p x).winBusy = s.winBusy := rfl
@[simp] theorem State.setPort_winTab (s : State) (p : Nat) (x : Port) : (s.setPort p x).winTab = s.winTab := rfl
@[simp] theorem State.setPort_winGen (s : State) (p : Nat) (x : Port) : (s.setPort p x).winGen = s.winGen := rfl
@[simp] theorem State.setPort_plicClaimed (s : State) (p : Nat) (x : Port) : (s.setPort p x).plicClaimed = s.plicClaimed := rfl
@[simp] theorem State.setPort_plicPending (s : State) (p : Nat) (x : Port) : (s.setPort p x).plicPending = s.plicPending := rfl
@[simp] theorem State.setPort_dram (s : State) (p : Nat) (x : Port) : (s.setPort p x).dram = s.dram := rfl
@[simp] theorem State.setPort_tags (s : State) (p : Nat) (x : Port) : (s.setPort p x).tags = s.tags := rfl
@[simp] theorem State.setPort_poison (s : State) (p : Nat) (x : Port) : (s.setPort p x).poison = s.poison := rfl
@[simp] theorem State.setPort_queue (s : State) (p : Nat) (x : Port) : (s.setPort p x).queue = s.queue := rfl
@[simp] theorem State.setPort_held (s : State) (p : Nat) (x : Port) : (s.setPort p x).held = s.held := rfl
@[simp] theorem State.setPort_meters (s : State) (p : Nat) (x : Port) : (s.setPort p x).meters = s.meters := rfl
@[simp] theorem State.setPort_fills (s : State) (p : Nat) (x : Port) : (s.setPort p x).fills = s.fills := rfl
@[simp] theorem State.setPort_segInit (s : State) (p : Nat) (x : Port) : (s.setPort p x).segInit = s.segInit := rfl
@[simp] theorem State.setPort_refreshBank (s : State) (p : Nat) (x : Port) : (s.setPort p x).refreshBank = s.refreshBank := rfl
@[simp] theorem State.setPort_selfRefresh (s : State) (p : Nat) (x : Port) : (s.setPort p x).selfRefresh = s.selfRefresh := rfl
@[simp] theorem State.setPort_bandInForce (s : State) (p : Nat) (x : Port) : (s.setPort p x).bandInForce = s.bandInForce := rfl
@[simp] theorem State.setPort_ceLast (s : State) (p : Nat) (x : Port) : (s.setPort p x).ceLast = s.ceLast := rfl
@[simp] theorem State.setPort_cores (s : State) (p : Nat) (x : Port) : (s.setPort p x).cores = s.cores := rfl
@[simp] theorem State.setPort_clusters (s : State) (p : Nat) (x : Port) : (s.setPort p x).clusters = s.clusters := rfl
@[simp] theorem State.setPort_slots (s : State) (p : Nat) (x : Port) : (s.setPort p x).slots = s.slots := rfl
@[simp] theorem State.setPort_jobs (s : State) (p : Nat) (x : Port) : (s.setPort p x).jobs = s.jobs := rfl
@[simp] theorem State.setPort_runCount (s : State) (p : Nat) (x : Port) : (s.setPort p x).runCount = s.runCount := rfl
@[simp] theorem State.setPort_reels (s : State) (p : Nat) (x : Port) : (s.setPort p x).reels = s.reels := rfl
@[simp] theorem State.setPort_time (s : State) (p : Nat) (x : Port) : (s.setPort p x).time = s.time := rfl
@[simp] theorem State.setPort_uptime (s : State) (p : Nat) (x : Port) : (s.setPort p x).uptime = s.uptime := rfl
@[simp] theorem State.setPort_axes (s : State) (p : Nat) (x : Port) : (s.setPort p x).axes = s.axes := rfl
@[simp] theorem State.setPort_cues (s : State) (p : Nat) (x : Port) : (s.setPort p x).cues = s.cues := rfl
@[simp] theorem State.setPort_evts (s : State) (p : Nat) (x : Port) : (s.setPort p x).evts = s.evts := rfl
@[simp] theorem State.setPort_pins (s : State) (p : Nat) (x : Port) : (s.setPort p x).pins = s.pins := rfl
@[simp] theorem State.setPort_ppsHigh (s : State) (p : Nat) (x : Port) : (s.setPort p x).ppsHigh = s.ppsHigh := rfl
@[simp] theorem State.setPort_servo (s : State) (p : Nat) (x : Port) : (s.setPort p x).servo = s.servo := rfl
@[simp] theorem State.setPort_flows (s : State) (p : Nat) (x : Port) : (s.setPort p x).flows = s.flows := rfl
@[simp] theorem State.setPort_isps (s : State) (p : Nat) (x : Port) : (s.setPort p x).isps = s.isps := rfl
@[simp] theorem State.setPort_csiClk (s : State) (p : Nat) (x : Port) : (s.setPort p x).csiClk = s.csiClk := rfl
@[simp] theorem State.setPort_vcs (s : State) (p : Nat) (x : Port) : (s.setPort p x).vcs = s.vcs := rfl
@[simp] theorem State.setPort_trkDue (s : State) (p : Nat) (x : Port) : (s.setPort p x).trkDue = s.trkDue := rfl
@[simp] theorem State.setPort_faults (s : State) (p : Nat) (x : Port) : (s.setPort p x).faults = s.faults := rfl
@[simp] theorem State.setPort_faultBuf (s : State) (p : Nat) (x : Port) : (s.setPort p x).faultBuf = s.faultBuf := rfl
@[simp] theorem State.setPort_faultSeq (s : State) (p : Nat) (x : Port) : (s.setPort p x).faultSeq = s.faultSeq := rfl
@[simp] theorem State.setPort_recovering (s : State) (p : Nat) (x : Port) : (s.setPort p x).recovering = s.recovering := rfl
@[simp] theorem State.setPort_c2Active (s : State) (p : Nat) (x : Port) : (s.setPort p x).c2Active = s.c2Active := rfl
@[simp] theorem State.setPort_dailyFrom (s : State) (p : Nat) (x : Port) : (s.setPort p x).dailyFrom = s.dailyFrom := rfl
@[simp] theorem State.setPort_health (s : State) (p : Nat) (x : Port) : (s.setPort p x).health = s.health := rfl
@[simp] theorem State.setPort_sec (s : State) (p : Nat) (x : Port) : (s.setPort p x).sec = s.sec := rfl
@[simp] theorem State.setPort_power (s : State) (p : Nat) (x : Port) : (s.setPort p x).power = s.power := rfl
@[simp] theorem State.setPort_dma (s : State) (p : Nat) (x : Port) : (s.setPort p x).dma = s.dma := rfl
@[simp] theorem State.setPort_cellErr (s : State) (p : Nat) (x : Port) : (s.setPort p x).cellErr = s.cellErr := rfl
@[simp] theorem State.setPort_bankFree (s : State) (p : Nat) (x : Port) : (s.setPort p x).bankFree = s.bankFree := rfl
@[simp] theorem State.setPort_refreshRow (s : State) (p : Nat) (x : Port) : (s.setPort p x).refreshRow = s.refreshRow := rfl
@[simp] theorem State.setPort_dly (s : State) (p : Nat) (x : Port) : (s.setPort p x).dly = s.dly := rfl
@[simp] theorem State.setPort_dlyBand (s : State) (p : Nat) (x : Port) : (s.setPort p x).dlyBand = s.dlyBand := rfl
@[simp] theorem State.setPort_l2 (s : State) (p : Nat) (x : Port) : (s.setPort p x).l2 = s.l2 := rfl
@[simp] theorem State.setPort_secRam (s : State) (p : Nat) (x : Port) : (s.setPort p x).secRam = s.secRam := rfl
@[simp] theorem State.setPort_ppsAt (s : State) (p : Nat) (x : Port) : (s.setPort p x).ppsAt = s.ppsAt := rfl
@[simp] theorem State.setPort_resSeen (s : State) (p : Nat) (x : Port) : (s.setPort p x).resSeen = s.resSeen := rfl
@[simp] theorem State.setPort_turn (s : State) (p : Nat) (x : Port) : (s.setPort p x).turn = s.turn := rfl
@[simp] theorem State.setFlow_pending (s : State) (e : Nat) (f : Flow) : (s.setFlow e f).pending = s.pending := rfl
@[simp] theorem State.setFlow_rsp (s : State) (e : Nat) (f : Flow) : (s.setFlow e f).rsp = s.rsp := rfl
@[simp] theorem State.setFlow_free (s : State) (e : Nat) (f : Flow) : (s.setFlow e f).free = s.free := rfl
@[simp] theorem State.setFlow_fuse (s : State) (e : Nat) (f : Flow) : (s.setFlow e f).fuse = s.fuse := rfl
@[simp] theorem State.setFlow_regs (s : State) (e : Nat) (f : Flow) : (s.setFlow e f).regs = s.regs := rfl
@[simp] theorem State.setFlow_staged (s : State) (e : Nat) (f : Flow) : (s.setFlow e f).staged = s.staged := rfl
@[simp] theorem State.setFlow_winBusy (s : State) (e : Nat) (f : Flow) : (s.setFlow e f).winBusy = s.winBusy := rfl
@[simp] theorem State.setFlow_winTab (s : State) (e : Nat) (f : Flow) : (s.setFlow e f).winTab = s.winTab := rfl
@[simp] theorem State.setFlow_winGen (s : State) (e : Nat) (f : Flow) : (s.setFlow e f).winGen = s.winGen := rfl
@[simp] theorem State.setFlow_plicClaimed (s : State) (e : Nat) (f : Flow) : (s.setFlow e f).plicClaimed = s.plicClaimed := rfl
@[simp] theorem State.setFlow_plicPending (s : State) (e : Nat) (f : Flow) : (s.setFlow e f).plicPending = s.plicPending := rfl
@[simp] theorem State.setFlow_dram (s : State) (e : Nat) (f : Flow) : (s.setFlow e f).dram = s.dram := rfl
@[simp] theorem State.setFlow_tags (s : State) (e : Nat) (f : Flow) : (s.setFlow e f).tags = s.tags := rfl
@[simp] theorem State.setFlow_poison (s : State) (e : Nat) (f : Flow) : (s.setFlow e f).poison = s.poison := rfl
@[simp] theorem State.setFlow_queue (s : State) (e : Nat) (f : Flow) : (s.setFlow e f).queue = s.queue := rfl
@[simp] theorem State.setFlow_held (s : State) (e : Nat) (f : Flow) : (s.setFlow e f).held = s.held := rfl
@[simp] theorem State.setFlow_meters (s : State) (e : Nat) (f : Flow) : (s.setFlow e f).meters = s.meters := rfl
@[simp] theorem State.setFlow_fills (s : State) (e : Nat) (f : Flow) : (s.setFlow e f).fills = s.fills := rfl
@[simp] theorem State.setFlow_segInit (s : State) (e : Nat) (f : Flow) : (s.setFlow e f).segInit = s.segInit := rfl
@[simp] theorem State.setFlow_refreshBank (s : State) (e : Nat) (f : Flow) : (s.setFlow e f).refreshBank = s.refreshBank := rfl
@[simp] theorem State.setFlow_selfRefresh (s : State) (e : Nat) (f : Flow) : (s.setFlow e f).selfRefresh = s.selfRefresh := rfl
@[simp] theorem State.setFlow_bandInForce (s : State) (e : Nat) (f : Flow) : (s.setFlow e f).bandInForce = s.bandInForce := rfl
@[simp] theorem State.setFlow_ceLast (s : State) (e : Nat) (f : Flow) : (s.setFlow e f).ceLast = s.ceLast := rfl
@[simp] theorem State.setFlow_cores (s : State) (e : Nat) (f : Flow) : (s.setFlow e f).cores = s.cores := rfl
@[simp] theorem State.setFlow_clusters (s : State) (e : Nat) (f : Flow) : (s.setFlow e f).clusters = s.clusters := rfl
@[simp] theorem State.setFlow_slots (s : State) (e : Nat) (f : Flow) : (s.setFlow e f).slots = s.slots := rfl
@[simp] theorem State.setFlow_jobs (s : State) (e : Nat) (f : Flow) : (s.setFlow e f).jobs = s.jobs := rfl
@[simp] theorem State.setFlow_runCount (s : State) (e : Nat) (f : Flow) : (s.setFlow e f).runCount = s.runCount := rfl
@[simp] theorem State.setFlow_reels (s : State) (e : Nat) (f : Flow) : (s.setFlow e f).reels = s.reels := rfl
@[simp] theorem State.setFlow_time (s : State) (e : Nat) (f : Flow) : (s.setFlow e f).time = s.time := rfl
@[simp] theorem State.setFlow_uptime (s : State) (e : Nat) (f : Flow) : (s.setFlow e f).uptime = s.uptime := rfl
@[simp] theorem State.setFlow_axes (s : State) (e : Nat) (f : Flow) : (s.setFlow e f).axes = s.axes := rfl
@[simp] theorem State.setFlow_cues (s : State) (e : Nat) (f : Flow) : (s.setFlow e f).cues = s.cues := rfl
@[simp] theorem State.setFlow_evts (s : State) (e : Nat) (f : Flow) : (s.setFlow e f).evts = s.evts := rfl
@[simp] theorem State.setFlow_pins (s : State) (e : Nat) (f : Flow) : (s.setFlow e f).pins = s.pins := rfl
@[simp] theorem State.setFlow_ppsHigh (s : State) (e : Nat) (f : Flow) : (s.setFlow e f).ppsHigh = s.ppsHigh := rfl
@[simp] theorem State.setFlow_servo (s : State) (e : Nat) (f : Flow) : (s.setFlow e f).servo = s.servo := rfl
@[simp] theorem State.setFlow_ports (s : State) (e : Nat) (f : Flow) : (s.setFlow e f).ports = s.ports := rfl
@[simp] theorem State.setFlow_isps (s : State) (e : Nat) (f : Flow) : (s.setFlow e f).isps = s.isps := rfl
@[simp] theorem State.setFlow_csiClk (s : State) (e : Nat) (f : Flow) : (s.setFlow e f).csiClk = s.csiClk := rfl
@[simp] theorem State.setFlow_vcs (s : State) (e : Nat) (f : Flow) : (s.setFlow e f).vcs = s.vcs := rfl
@[simp] theorem State.setFlow_trkDue (s : State) (e : Nat) (f : Flow) : (s.setFlow e f).trkDue = s.trkDue := rfl
@[simp] theorem State.setFlow_faults (s : State) (e : Nat) (f : Flow) : (s.setFlow e f).faults = s.faults := rfl
@[simp] theorem State.setFlow_faultBuf (s : State) (e : Nat) (f : Flow) : (s.setFlow e f).faultBuf = s.faultBuf := rfl
@[simp] theorem State.setFlow_faultSeq (s : State) (e : Nat) (f : Flow) : (s.setFlow e f).faultSeq = s.faultSeq := rfl
@[simp] theorem State.setFlow_recovering (s : State) (e : Nat) (f : Flow) : (s.setFlow e f).recovering = s.recovering := rfl
@[simp] theorem State.setFlow_c2Active (s : State) (e : Nat) (f : Flow) : (s.setFlow e f).c2Active = s.c2Active := rfl
@[simp] theorem State.setFlow_dailyFrom (s : State) (e : Nat) (f : Flow) : (s.setFlow e f).dailyFrom = s.dailyFrom := rfl
@[simp] theorem State.setFlow_health (s : State) (e : Nat) (f : Flow) : (s.setFlow e f).health = s.health := rfl
@[simp] theorem State.setFlow_sec (s : State) (e : Nat) (f : Flow) : (s.setFlow e f).sec = s.sec := rfl
@[simp] theorem State.setFlow_power (s : State) (e : Nat) (f : Flow) : (s.setFlow e f).power = s.power := rfl
@[simp] theorem State.setFlow_dma (s : State) (e : Nat) (f : Flow) : (s.setFlow e f).dma = s.dma := rfl
@[simp] theorem State.setFlow_cellErr (s : State) (e : Nat) (f : Flow) : (s.setFlow e f).cellErr = s.cellErr := rfl
@[simp] theorem State.setFlow_bankFree (s : State) (e : Nat) (f : Flow) : (s.setFlow e f).bankFree = s.bankFree := rfl
@[simp] theorem State.setFlow_refreshRow (s : State) (e : Nat) (f : Flow) : (s.setFlow e f).refreshRow = s.refreshRow := rfl
@[simp] theorem State.setFlow_dly (s : State) (e : Nat) (f : Flow) : (s.setFlow e f).dly = s.dly := rfl
@[simp] theorem State.setFlow_dlyBand (s : State) (e : Nat) (f : Flow) : (s.setFlow e f).dlyBand = s.dlyBand := rfl
@[simp] theorem State.setFlow_l2 (s : State) (e : Nat) (f : Flow) : (s.setFlow e f).l2 = s.l2 := rfl
@[simp] theorem State.setFlow_secRam (s : State) (e : Nat) (f : Flow) : (s.setFlow e f).secRam = s.secRam := rfl
@[simp] theorem State.setFlow_ppsAt (s : State) (e : Nat) (f : Flow) : (s.setFlow e f).ppsAt = s.ppsAt := rfl
@[simp] theorem State.setFlow_resSeen (s : State) (e : Nat) (f : Flow) : (s.setFlow e f).resSeen = s.resSeen := rfl
@[simp] theorem State.setFlow_turn (s : State) (e : Nat) (f : Flow) : (s.setFlow e f).turn = s.turn := rfl
@[simp] theorem State.setIsp_pending (s : State) (m : Nat) (i : Isp) : (s.setIsp m i).pending = s.pending := rfl
@[simp] theorem State.setIsp_rsp (s : State) (m : Nat) (i : Isp) : (s.setIsp m i).rsp = s.rsp := rfl
@[simp] theorem State.setIsp_free (s : State) (m : Nat) (i : Isp) : (s.setIsp m i).free = s.free := rfl
@[simp] theorem State.setIsp_fuse (s : State) (m : Nat) (i : Isp) : (s.setIsp m i).fuse = s.fuse := rfl
@[simp] theorem State.setIsp_regs (s : State) (m : Nat) (i : Isp) : (s.setIsp m i).regs = s.regs := rfl
@[simp] theorem State.setIsp_staged (s : State) (m : Nat) (i : Isp) : (s.setIsp m i).staged = s.staged := rfl
@[simp] theorem State.setIsp_winBusy (s : State) (m : Nat) (i : Isp) : (s.setIsp m i).winBusy = s.winBusy := rfl
@[simp] theorem State.setIsp_winTab (s : State) (m : Nat) (i : Isp) : (s.setIsp m i).winTab = s.winTab := rfl
@[simp] theorem State.setIsp_winGen (s : State) (m : Nat) (i : Isp) : (s.setIsp m i).winGen = s.winGen := rfl
@[simp] theorem State.setIsp_plicClaimed (s : State) (m : Nat) (i : Isp) : (s.setIsp m i).plicClaimed = s.plicClaimed := rfl
@[simp] theorem State.setIsp_plicPending (s : State) (m : Nat) (i : Isp) : (s.setIsp m i).plicPending = s.plicPending := rfl
@[simp] theorem State.setIsp_dram (s : State) (m : Nat) (i : Isp) : (s.setIsp m i).dram = s.dram := rfl
@[simp] theorem State.setIsp_tags (s : State) (m : Nat) (i : Isp) : (s.setIsp m i).tags = s.tags := rfl
@[simp] theorem State.setIsp_poison (s : State) (m : Nat) (i : Isp) : (s.setIsp m i).poison = s.poison := rfl
@[simp] theorem State.setIsp_queue (s : State) (m : Nat) (i : Isp) : (s.setIsp m i).queue = s.queue := rfl
@[simp] theorem State.setIsp_held (s : State) (m : Nat) (i : Isp) : (s.setIsp m i).held = s.held := rfl
@[simp] theorem State.setIsp_meters (s : State) (m : Nat) (i : Isp) : (s.setIsp m i).meters = s.meters := rfl
@[simp] theorem State.setIsp_fills (s : State) (m : Nat) (i : Isp) : (s.setIsp m i).fills = s.fills := rfl
@[simp] theorem State.setIsp_segInit (s : State) (m : Nat) (i : Isp) : (s.setIsp m i).segInit = s.segInit := rfl
@[simp] theorem State.setIsp_refreshBank (s : State) (m : Nat) (i : Isp) : (s.setIsp m i).refreshBank = s.refreshBank := rfl
@[simp] theorem State.setIsp_selfRefresh (s : State) (m : Nat) (i : Isp) : (s.setIsp m i).selfRefresh = s.selfRefresh := rfl
@[simp] theorem State.setIsp_bandInForce (s : State) (m : Nat) (i : Isp) : (s.setIsp m i).bandInForce = s.bandInForce := rfl
@[simp] theorem State.setIsp_ceLast (s : State) (m : Nat) (i : Isp) : (s.setIsp m i).ceLast = s.ceLast := rfl
@[simp] theorem State.setIsp_cores (s : State) (m : Nat) (i : Isp) : (s.setIsp m i).cores = s.cores := rfl
@[simp] theorem State.setIsp_clusters (s : State) (m : Nat) (i : Isp) : (s.setIsp m i).clusters = s.clusters := rfl
@[simp] theorem State.setIsp_slots (s : State) (m : Nat) (i : Isp) : (s.setIsp m i).slots = s.slots := rfl
@[simp] theorem State.setIsp_jobs (s : State) (m : Nat) (i : Isp) : (s.setIsp m i).jobs = s.jobs := rfl
@[simp] theorem State.setIsp_runCount (s : State) (m : Nat) (i : Isp) : (s.setIsp m i).runCount = s.runCount := rfl
@[simp] theorem State.setIsp_reels (s : State) (m : Nat) (i : Isp) : (s.setIsp m i).reels = s.reels := rfl
@[simp] theorem State.setIsp_time (s : State) (m : Nat) (i : Isp) : (s.setIsp m i).time = s.time := rfl
@[simp] theorem State.setIsp_uptime (s : State) (m : Nat) (i : Isp) : (s.setIsp m i).uptime = s.uptime := rfl
@[simp] theorem State.setIsp_axes (s : State) (m : Nat) (i : Isp) : (s.setIsp m i).axes = s.axes := rfl
@[simp] theorem State.setIsp_cues (s : State) (m : Nat) (i : Isp) : (s.setIsp m i).cues = s.cues := rfl
@[simp] theorem State.setIsp_evts (s : State) (m : Nat) (i : Isp) : (s.setIsp m i).evts = s.evts := rfl
@[simp] theorem State.setIsp_pins (s : State) (m : Nat) (i : Isp) : (s.setIsp m i).pins = s.pins := rfl
@[simp] theorem State.setIsp_ppsHigh (s : State) (m : Nat) (i : Isp) : (s.setIsp m i).ppsHigh = s.ppsHigh := rfl
@[simp] theorem State.setIsp_servo (s : State) (m : Nat) (i : Isp) : (s.setIsp m i).servo = s.servo := rfl
@[simp] theorem State.setIsp_ports (s : State) (m : Nat) (i : Isp) : (s.setIsp m i).ports = s.ports := rfl
@[simp] theorem State.setIsp_flows (s : State) (m : Nat) (i : Isp) : (s.setIsp m i).flows = s.flows := rfl
@[simp] theorem State.setIsp_csiClk (s : State) (m : Nat) (i : Isp) : (s.setIsp m i).csiClk = s.csiClk := rfl
@[simp] theorem State.setIsp_vcs (s : State) (m : Nat) (i : Isp) : (s.setIsp m i).vcs = s.vcs := rfl
@[simp] theorem State.setIsp_trkDue (s : State) (m : Nat) (i : Isp) : (s.setIsp m i).trkDue = s.trkDue := rfl
@[simp] theorem State.setIsp_faults (s : State) (m : Nat) (i : Isp) : (s.setIsp m i).faults = s.faults := rfl
@[simp] theorem State.setIsp_faultBuf (s : State) (m : Nat) (i : Isp) : (s.setIsp m i).faultBuf = s.faultBuf := rfl
@[simp] theorem State.setIsp_faultSeq (s : State) (m : Nat) (i : Isp) : (s.setIsp m i).faultSeq = s.faultSeq := rfl
@[simp] theorem State.setIsp_recovering (s : State) (m : Nat) (i : Isp) : (s.setIsp m i).recovering = s.recovering := rfl
@[simp] theorem State.setIsp_c2Active (s : State) (m : Nat) (i : Isp) : (s.setIsp m i).c2Active = s.c2Active := rfl
@[simp] theorem State.setIsp_dailyFrom (s : State) (m : Nat) (i : Isp) : (s.setIsp m i).dailyFrom = s.dailyFrom := rfl
@[simp] theorem State.setIsp_health (s : State) (m : Nat) (i : Isp) : (s.setIsp m i).health = s.health := rfl
@[simp] theorem State.setIsp_sec (s : State) (m : Nat) (i : Isp) : (s.setIsp m i).sec = s.sec := rfl
@[simp] theorem State.setIsp_power (s : State) (m : Nat) (i : Isp) : (s.setIsp m i).power = s.power := rfl
@[simp] theorem State.setIsp_dma (s : State) (m : Nat) (i : Isp) : (s.setIsp m i).dma = s.dma := rfl
@[simp] theorem State.setIsp_cellErr (s : State) (m : Nat) (i : Isp) : (s.setIsp m i).cellErr = s.cellErr := rfl
@[simp] theorem State.setIsp_bankFree (s : State) (m : Nat) (i : Isp) : (s.setIsp m i).bankFree = s.bankFree := rfl
@[simp] theorem State.setIsp_refreshRow (s : State) (m : Nat) (i : Isp) : (s.setIsp m i).refreshRow = s.refreshRow := rfl
@[simp] theorem State.setIsp_dly (s : State) (m : Nat) (i : Isp) : (s.setIsp m i).dly = s.dly := rfl
@[simp] theorem State.setIsp_dlyBand (s : State) (m : Nat) (i : Isp) : (s.setIsp m i).dlyBand = s.dlyBand := rfl
@[simp] theorem State.setIsp_l2 (s : State) (m : Nat) (i : Isp) : (s.setIsp m i).l2 = s.l2 := rfl
@[simp] theorem State.setIsp_secRam (s : State) (m : Nat) (i : Isp) : (s.setIsp m i).secRam = s.secRam := rfl
@[simp] theorem State.setIsp_ppsAt (s : State) (m : Nat) (i : Isp) : (s.setIsp m i).ppsAt = s.ppsAt := rfl
@[simp] theorem State.setIsp_resSeen (s : State) (m : Nat) (i : Isp) : (s.setIsp m i).resSeen = s.resSeen := rfl
@[simp] theorem State.setIsp_turn (s : State) (m : Nat) (i : Isp) : (s.setIsp m i).turn = s.turn := rfl
@[simp] theorem State.setHealth_pending (s : State) (u : Nat) (h : Health) : (s.setHealth u h).pending = s.pending := rfl
@[simp] theorem State.setHealth_rsp (s : State) (u : Nat) (h : Health) : (s.setHealth u h).rsp = s.rsp := rfl
@[simp] theorem State.setHealth_free (s : State) (u : Nat) (h : Health) : (s.setHealth u h).free = s.free := rfl
@[simp] theorem State.setHealth_fuse (s : State) (u : Nat) (h : Health) : (s.setHealth u h).fuse = s.fuse := rfl
@[simp] theorem State.setHealth_regs (s : State) (u : Nat) (h : Health) : (s.setHealth u h).regs = s.regs := rfl
@[simp] theorem State.setHealth_staged (s : State) (u : Nat) (h : Health) : (s.setHealth u h).staged = s.staged := rfl
@[simp] theorem State.setHealth_winBusy (s : State) (u : Nat) (h : Health) : (s.setHealth u h).winBusy = s.winBusy := rfl
@[simp] theorem State.setHealth_winTab (s : State) (u : Nat) (h : Health) : (s.setHealth u h).winTab = s.winTab := rfl
@[simp] theorem State.setHealth_winGen (s : State) (u : Nat) (h : Health) : (s.setHealth u h).winGen = s.winGen := rfl
@[simp] theorem State.setHealth_plicClaimed (s : State) (u : Nat) (h : Health) : (s.setHealth u h).plicClaimed = s.plicClaimed := rfl
@[simp] theorem State.setHealth_plicPending (s : State) (u : Nat) (h : Health) : (s.setHealth u h).plicPending = s.plicPending := rfl
@[simp] theorem State.setHealth_dram (s : State) (u : Nat) (h : Health) : (s.setHealth u h).dram = s.dram := rfl
@[simp] theorem State.setHealth_tags (s : State) (u : Nat) (h : Health) : (s.setHealth u h).tags = s.tags := rfl
@[simp] theorem State.setHealth_poison (s : State) (u : Nat) (h : Health) : (s.setHealth u h).poison = s.poison := rfl
@[simp] theorem State.setHealth_queue (s : State) (u : Nat) (h : Health) : (s.setHealth u h).queue = s.queue := rfl
@[simp] theorem State.setHealth_held (s : State) (u : Nat) (h : Health) : (s.setHealth u h).held = s.held := rfl
@[simp] theorem State.setHealth_meters (s : State) (u : Nat) (h : Health) : (s.setHealth u h).meters = s.meters := rfl
@[simp] theorem State.setHealth_fills (s : State) (u : Nat) (h : Health) : (s.setHealth u h).fills = s.fills := rfl
@[simp] theorem State.setHealth_segInit (s : State) (u : Nat) (h : Health) : (s.setHealth u h).segInit = s.segInit := rfl
@[simp] theorem State.setHealth_refreshBank (s : State) (u : Nat) (h : Health) : (s.setHealth u h).refreshBank = s.refreshBank := rfl
@[simp] theorem State.setHealth_selfRefresh (s : State) (u : Nat) (h : Health) : (s.setHealth u h).selfRefresh = s.selfRefresh := rfl
@[simp] theorem State.setHealth_bandInForce (s : State) (u : Nat) (h : Health) : (s.setHealth u h).bandInForce = s.bandInForce := rfl
@[simp] theorem State.setHealth_ceLast (s : State) (u : Nat) (h : Health) : (s.setHealth u h).ceLast = s.ceLast := rfl
@[simp] theorem State.setHealth_cores (s : State) (u : Nat) (h : Health) : (s.setHealth u h).cores = s.cores := rfl
@[simp] theorem State.setHealth_clusters (s : State) (u : Nat) (h : Health) : (s.setHealth u h).clusters = s.clusters := rfl
@[simp] theorem State.setHealth_slots (s : State) (u : Nat) (h : Health) : (s.setHealth u h).slots = s.slots := rfl
@[simp] theorem State.setHealth_jobs (s : State) (u : Nat) (h : Health) : (s.setHealth u h).jobs = s.jobs := rfl
@[simp] theorem State.setHealth_runCount (s : State) (u : Nat) (h : Health) : (s.setHealth u h).runCount = s.runCount := rfl
@[simp] theorem State.setHealth_reels (s : State) (u : Nat) (h : Health) : (s.setHealth u h).reels = s.reels := rfl
@[simp] theorem State.setHealth_time (s : State) (u : Nat) (h : Health) : (s.setHealth u h).time = s.time := rfl
@[simp] theorem State.setHealth_uptime (s : State) (u : Nat) (h : Health) : (s.setHealth u h).uptime = s.uptime := rfl
@[simp] theorem State.setHealth_axes (s : State) (u : Nat) (h : Health) : (s.setHealth u h).axes = s.axes := rfl
@[simp] theorem State.setHealth_cues (s : State) (u : Nat) (h : Health) : (s.setHealth u h).cues = s.cues := rfl
@[simp] theorem State.setHealth_evts (s : State) (u : Nat) (h : Health) : (s.setHealth u h).evts = s.evts := rfl
@[simp] theorem State.setHealth_pins (s : State) (u : Nat) (h : Health) : (s.setHealth u h).pins = s.pins := rfl
@[simp] theorem State.setHealth_ppsHigh (s : State) (u : Nat) (h : Health) : (s.setHealth u h).ppsHigh = s.ppsHigh := rfl
@[simp] theorem State.setHealth_servo (s : State) (u : Nat) (h : Health) : (s.setHealth u h).servo = s.servo := rfl
@[simp] theorem State.setHealth_ports (s : State) (u : Nat) (h : Health) : (s.setHealth u h).ports = s.ports := rfl
@[simp] theorem State.setHealth_flows (s : State) (u : Nat) (h : Health) : (s.setHealth u h).flows = s.flows := rfl
@[simp] theorem State.setHealth_isps (s : State) (u : Nat) (h : Health) : (s.setHealth u h).isps = s.isps := rfl
@[simp] theorem State.setHealth_csiClk (s : State) (u : Nat) (h : Health) : (s.setHealth u h).csiClk = s.csiClk := rfl
@[simp] theorem State.setHealth_vcs (s : State) (u : Nat) (h : Health) : (s.setHealth u h).vcs = s.vcs := rfl
@[simp] theorem State.setHealth_trkDue (s : State) (u : Nat) (h : Health) : (s.setHealth u h).trkDue = s.trkDue := rfl
@[simp] theorem State.setHealth_faults (s : State) (u : Nat) (h : Health) : (s.setHealth u h).faults = s.faults := rfl
@[simp] theorem State.setHealth_faultBuf (s : State) (u : Nat) (h : Health) : (s.setHealth u h).faultBuf = s.faultBuf := rfl
@[simp] theorem State.setHealth_faultSeq (s : State) (u : Nat) (h : Health) : (s.setHealth u h).faultSeq = s.faultSeq := rfl
@[simp] theorem State.setHealth_recovering (s : State) (u : Nat) (h : Health) : (s.setHealth u h).recovering = s.recovering := rfl
@[simp] theorem State.setHealth_c2Active (s : State) (u : Nat) (h : Health) : (s.setHealth u h).c2Active = s.c2Active := rfl
@[simp] theorem State.setHealth_dailyFrom (s : State) (u : Nat) (h : Health) : (s.setHealth u h).dailyFrom = s.dailyFrom := rfl
@[simp] theorem State.setHealth_sec (s : State) (u : Nat) (h : Health) : (s.setHealth u h).sec = s.sec := rfl
@[simp] theorem State.setHealth_power (s : State) (u : Nat) (h : Health) : (s.setHealth u h).power = s.power := rfl
@[simp] theorem State.setHealth_dma (s : State) (u : Nat) (h : Health) : (s.setHealth u h).dma = s.dma := rfl
@[simp] theorem State.setHealth_cellErr (s : State) (u : Nat) (h : Health) : (s.setHealth u h).cellErr = s.cellErr := rfl
@[simp] theorem State.setHealth_bankFree (s : State) (u : Nat) (h : Health) : (s.setHealth u h).bankFree = s.bankFree := rfl
@[simp] theorem State.setHealth_refreshRow (s : State) (u : Nat) (h : Health) : (s.setHealth u h).refreshRow = s.refreshRow := rfl
@[simp] theorem State.setHealth_dly (s : State) (u : Nat) (h : Health) : (s.setHealth u h).dly = s.dly := rfl
@[simp] theorem State.setHealth_dlyBand (s : State) (u : Nat) (h : Health) : (s.setHealth u h).dlyBand = s.dlyBand := rfl
@[simp] theorem State.setHealth_l2 (s : State) (u : Nat) (h : Health) : (s.setHealth u h).l2 = s.l2 := rfl
@[simp] theorem State.setHealth_secRam (s : State) (u : Nat) (h : Health) : (s.setHealth u h).secRam = s.secRam := rfl
@[simp] theorem State.setHealth_ppsAt (s : State) (u : Nat) (h : Health) : (s.setHealth u h).ppsAt = s.ppsAt := rfl
@[simp] theorem State.setHealth_resSeen (s : State) (u : Nat) (h : Health) : (s.setHealth u h).resSeen = s.resSeen := rfl
@[simp] theorem State.setHealth_turn (s : State) (u : Nat) (h : Health) : (s.setHealth u h).turn = s.turn := rfl
@[simp] theorem State.modSec_pending (s : State) (f : Sec → Sec) : (s.modSec f).pending = s.pending := rfl
@[simp] theorem State.modSec_rsp (s : State) (f : Sec → Sec) : (s.modSec f).rsp = s.rsp := rfl
@[simp] theorem State.modSec_free (s : State) (f : Sec → Sec) : (s.modSec f).free = s.free := rfl
@[simp] theorem State.modSec_fuse (s : State) (f : Sec → Sec) : (s.modSec f).fuse = s.fuse := rfl
@[simp] theorem State.modSec_regs (s : State) (f : Sec → Sec) : (s.modSec f).regs = s.regs := rfl
@[simp] theorem State.modSec_staged (s : State) (f : Sec → Sec) : (s.modSec f).staged = s.staged := rfl
@[simp] theorem State.modSec_winBusy (s : State) (f : Sec → Sec) : (s.modSec f).winBusy = s.winBusy := rfl
@[simp] theorem State.modSec_winTab (s : State) (f : Sec → Sec) : (s.modSec f).winTab = s.winTab := rfl
@[simp] theorem State.modSec_winGen (s : State) (f : Sec → Sec) : (s.modSec f).winGen = s.winGen := rfl
@[simp] theorem State.modSec_plicClaimed (s : State) (f : Sec → Sec) : (s.modSec f).plicClaimed = s.plicClaimed := rfl
@[simp] theorem State.modSec_plicPending (s : State) (f : Sec → Sec) : (s.modSec f).plicPending = s.plicPending := rfl
@[simp] theorem State.modSec_dram (s : State) (f : Sec → Sec) : (s.modSec f).dram = s.dram := rfl
@[simp] theorem State.modSec_tags (s : State) (f : Sec → Sec) : (s.modSec f).tags = s.tags := rfl
@[simp] theorem State.modSec_poison (s : State) (f : Sec → Sec) : (s.modSec f).poison = s.poison := rfl
@[simp] theorem State.modSec_queue (s : State) (f : Sec → Sec) : (s.modSec f).queue = s.queue := rfl
@[simp] theorem State.modSec_held (s : State) (f : Sec → Sec) : (s.modSec f).held = s.held := rfl
@[simp] theorem State.modSec_meters (s : State) (f : Sec → Sec) : (s.modSec f).meters = s.meters := rfl
@[simp] theorem State.modSec_fills (s : State) (f : Sec → Sec) : (s.modSec f).fills = s.fills := rfl
@[simp] theorem State.modSec_segInit (s : State) (f : Sec → Sec) : (s.modSec f).segInit = s.segInit := rfl
@[simp] theorem State.modSec_refreshBank (s : State) (f : Sec → Sec) : (s.modSec f).refreshBank = s.refreshBank := rfl
@[simp] theorem State.modSec_selfRefresh (s : State) (f : Sec → Sec) : (s.modSec f).selfRefresh = s.selfRefresh := rfl
@[simp] theorem State.modSec_bandInForce (s : State) (f : Sec → Sec) : (s.modSec f).bandInForce = s.bandInForce := rfl
@[simp] theorem State.modSec_ceLast (s : State) (f : Sec → Sec) : (s.modSec f).ceLast = s.ceLast := rfl
@[simp] theorem State.modSec_cores (s : State) (f : Sec → Sec) : (s.modSec f).cores = s.cores := rfl
@[simp] theorem State.modSec_clusters (s : State) (f : Sec → Sec) : (s.modSec f).clusters = s.clusters := rfl
@[simp] theorem State.modSec_slots (s : State) (f : Sec → Sec) : (s.modSec f).slots = s.slots := rfl
@[simp] theorem State.modSec_jobs (s : State) (f : Sec → Sec) : (s.modSec f).jobs = s.jobs := rfl
@[simp] theorem State.modSec_runCount (s : State) (f : Sec → Sec) : (s.modSec f).runCount = s.runCount := rfl
@[simp] theorem State.modSec_reels (s : State) (f : Sec → Sec) : (s.modSec f).reels = s.reels := rfl
@[simp] theorem State.modSec_time (s : State) (f : Sec → Sec) : (s.modSec f).time = s.time := rfl
@[simp] theorem State.modSec_uptime (s : State) (f : Sec → Sec) : (s.modSec f).uptime = s.uptime := rfl
@[simp] theorem State.modSec_axes (s : State) (f : Sec → Sec) : (s.modSec f).axes = s.axes := rfl
@[simp] theorem State.modSec_cues (s : State) (f : Sec → Sec) : (s.modSec f).cues = s.cues := rfl
@[simp] theorem State.modSec_evts (s : State) (f : Sec → Sec) : (s.modSec f).evts = s.evts := rfl
@[simp] theorem State.modSec_pins (s : State) (f : Sec → Sec) : (s.modSec f).pins = s.pins := rfl
@[simp] theorem State.modSec_ppsHigh (s : State) (f : Sec → Sec) : (s.modSec f).ppsHigh = s.ppsHigh := rfl
@[simp] theorem State.modSec_servo (s : State) (f : Sec → Sec) : (s.modSec f).servo = s.servo := rfl
@[simp] theorem State.modSec_ports (s : State) (f : Sec → Sec) : (s.modSec f).ports = s.ports := rfl
@[simp] theorem State.modSec_flows (s : State) (f : Sec → Sec) : (s.modSec f).flows = s.flows := rfl
@[simp] theorem State.modSec_isps (s : State) (f : Sec → Sec) : (s.modSec f).isps = s.isps := rfl
@[simp] theorem State.modSec_csiClk (s : State) (f : Sec → Sec) : (s.modSec f).csiClk = s.csiClk := rfl
@[simp] theorem State.modSec_vcs (s : State) (f : Sec → Sec) : (s.modSec f).vcs = s.vcs := rfl
@[simp] theorem State.modSec_trkDue (s : State) (f : Sec → Sec) : (s.modSec f).trkDue = s.trkDue := rfl
@[simp] theorem State.modSec_faults (s : State) (f : Sec → Sec) : (s.modSec f).faults = s.faults := rfl
@[simp] theorem State.modSec_faultBuf (s : State) (f : Sec → Sec) : (s.modSec f).faultBuf = s.faultBuf := rfl
@[simp] theorem State.modSec_faultSeq (s : State) (f : Sec → Sec) : (s.modSec f).faultSeq = s.faultSeq := rfl
@[simp] theorem State.modSec_recovering (s : State) (f : Sec → Sec) : (s.modSec f).recovering = s.recovering := rfl
@[simp] theorem State.modSec_c2Active (s : State) (f : Sec → Sec) : (s.modSec f).c2Active = s.c2Active := rfl
@[simp] theorem State.modSec_dailyFrom (s : State) (f : Sec → Sec) : (s.modSec f).dailyFrom = s.dailyFrom := rfl
@[simp] theorem State.modSec_health (s : State) (f : Sec → Sec) : (s.modSec f).health = s.health := rfl
@[simp] theorem State.modSec_power (s : State) (f : Sec → Sec) : (s.modSec f).power = s.power := rfl
@[simp] theorem State.modSec_dma (s : State) (f : Sec → Sec) : (s.modSec f).dma = s.dma := rfl
@[simp] theorem State.modSec_cellErr (s : State) (f : Sec → Sec) : (s.modSec f).cellErr = s.cellErr := rfl
@[simp] theorem State.modSec_bankFree (s : State) (f : Sec → Sec) : (s.modSec f).bankFree = s.bankFree := rfl
@[simp] theorem State.modSec_refreshRow (s : State) (f : Sec → Sec) : (s.modSec f).refreshRow = s.refreshRow := rfl
@[simp] theorem State.modSec_dly (s : State) (f : Sec → Sec) : (s.modSec f).dly = s.dly := rfl
@[simp] theorem State.modSec_dlyBand (s : State) (f : Sec → Sec) : (s.modSec f).dlyBand = s.dlyBand := rfl
@[simp] theorem State.modSec_l2 (s : State) (f : Sec → Sec) : (s.modSec f).l2 = s.l2 := rfl
@[simp] theorem State.modSec_secRam (s : State) (f : Sec → Sec) : (s.modSec f).secRam = s.secRam := rfl
@[simp] theorem State.modSec_ppsAt (s : State) (f : Sec → Sec) : (s.modSec f).ppsAt = s.ppsAt := rfl
@[simp] theorem State.modSec_resSeen (s : State) (f : Sec → Sec) : (s.modSec f).resSeen = s.resSeen := rfl
@[simp] theorem State.modSec_turn (s : State) (f : Sec → Sec) : (s.modSec f).turn = s.turn := rfl
@[simp] theorem State.modSec_sec (s : State) (f : Sec → Sec) : (s.modSec f).sec = f s.sec := rfl

/-! ### Registers -/

/-- Two registers have one key only if they are the same register. -/
theorem rkey_inj {p q o r : Nat} (ho : o < 4096) (hr : r < 4096) (h : rkey p o = rkey q r) : p = q ∧ o = r := by
  unfold rkey at h
  omega

@[simp] theorem State.reg_setReg_same (s : State) (p o : Nat) (v : Word) : (s.setReg p o v).reg p o = v :=
  mapGet_mapSet_same _ _ _ _

theorem State.reg_setReg_other (s : State) (p o q r : Nat) (v : Word) (h : rkey q r ≠ rkey p o) :
    (s.setReg p o v).reg q r = s.reg q r := mapGet_mapSet_other _ _ _ _ _ _ h

theorem State.rn_setReg_other (s : State) (p o q r : Nat) (v : Word) (h : rkey q r ≠ rkey p o) :
    (s.setReg p o v).rn q r = s.rn q r := congrArg BitVec.toNat (State.reg_setReg_other s p o q r v h)

@[simp] theorem State.rn_setReg_same (s : State) (p o : Nat) (v : Word) : (s.setReg p o v).rn p o = v.toNat :=
  congrArg BitVec.toNat (State.reg_setReg_same s p o v)

/-! ### Units -/

@[simp] theorem State.core_setCore_same (s : State) (n : Nat) (x : Core) (h : n < 128) : (s.setCore n x).core n = x := by
  simp [State.core, State.setCore, h]

theorem State.core_setCore_other (s : State) (n m : Nat) (x : Core) (h : m ≠ n) : (s.setCore n x).core m = s.core m := by
  simp [State.core, State.setCore, Ne.symm h]

@[simp] theorem State.answer_unit_core (s : State) (i : Nat) (r : Rsp) : (s.answer r).core i = s.core i := rfl
@[simp] theorem State.setReg_unit_core (s : State) (i : Nat) (p o : Nat) (v : Word) : (s.setReg p o v).core i = s.core i := rfl
@[simp] theorem State.setCluster_unit_core (s : State) (i : Nat) (n : Nat) (c : Cluster) : (s.setCluster n c).core i = s.core i := rfl
@[simp] theorem State.setJob_unit_core (s : State) (i : Nat) (j : Job) : (s.setJob j).core i = s.core i := rfl
@[simp] theorem State.setSlot_unit_core (s : State) (i : Nat) (n : Nat) (p : PSlot) : (s.setSlot n p).core i = s.core i := rfl
@[simp] theorem State.setReel_unit_core (s : State) (i : Nat) (n : Nat) (r : Reel) : (s.setReel n r).core i = s.core i := rfl
@[simp] theorem State.setAxis_unit_core (s : State) (i : Nat) (n : Nat) (a : Axis) : (s.setAxis n a).core i = s.core i := rfl
@[simp] theorem State.setCue_unit_core (s : State) (i : Nat) (n : Nat) (c : Cue) : (s.setCue n c).core i = s.core i := rfl
@[simp] theorem State.setPin_unit_core (s : State) (i : Nat) (n : Nat) (p : Pin) : (s.setPin n p).core i = s.core i := rfl
@[simp] theorem State.setPort_unit_core (s : State) (i : Nat) (p : Nat) (x : Port) : (s.setPort p x).core i = s.core i := rfl
@[simp] theorem State.setFlow_unit_core (s : State) (i : Nat) (e : Nat) (f : Flow) : (s.setFlow e f).core i = s.core i := rfl
@[simp] theorem State.setIsp_unit_core (s : State) (k : Nat) (m : Nat) (i : Isp) : (s.setIsp m i).core k = s.core k := rfl
@[simp] theorem State.setHealth_unit_core (s : State) (i : Nat) (u : Nat) (h : Health) : (s.setHealth u h).core i = s.core i := rfl
@[simp] theorem State.modSec_unit_core (s : State) (i : Nat) (f : Sec → Sec) : (s.modSec f).core i = s.core i := rfl

@[simp] theorem State.cluster_setCluster_same (s : State) (n : Nat) (x : Cluster) (h : n < 8) : (s.setCluster n x).cluster n = x := by
  simp [State.cluster, State.setCluster, h]

theorem State.cluster_setCluster_other (s : State) (n m : Nat) (x : Cluster) (h : m ≠ n) : (s.setCluster n x).cluster m = s.cluster m := by
  simp [State.cluster, State.setCluster, Ne.symm h]

@[simp] theorem State.answer_unit_cluster (s : State) (i : Nat) (r : Rsp) : (s.answer r).cluster i = s.cluster i := rfl
@[simp] theorem State.setReg_unit_cluster (s : State) (i : Nat) (p o : Nat) (v : Word) : (s.setReg p o v).cluster i = s.cluster i := rfl
@[simp] theorem State.setCore_unit_cluster (s : State) (i : Nat) (n : Nat) (c : Core) : (s.setCore n c).cluster i = s.cluster i := rfl
@[simp] theorem State.setJob_unit_cluster (s : State) (i : Nat) (j : Job) : (s.setJob j).cluster i = s.cluster i := rfl
@[simp] theorem State.setSlot_unit_cluster (s : State) (i : Nat) (n : Nat) (p : PSlot) : (s.setSlot n p).cluster i = s.cluster i := rfl
@[simp] theorem State.setReel_unit_cluster (s : State) (i : Nat) (n : Nat) (r : Reel) : (s.setReel n r).cluster i = s.cluster i := rfl
@[simp] theorem State.setAxis_unit_cluster (s : State) (i : Nat) (n : Nat) (a : Axis) : (s.setAxis n a).cluster i = s.cluster i := rfl
@[simp] theorem State.setCue_unit_cluster (s : State) (i : Nat) (n : Nat) (c : Cue) : (s.setCue n c).cluster i = s.cluster i := rfl
@[simp] theorem State.setPin_unit_cluster (s : State) (i : Nat) (n : Nat) (p : Pin) : (s.setPin n p).cluster i = s.cluster i := rfl
@[simp] theorem State.setPort_unit_cluster (s : State) (i : Nat) (p : Nat) (x : Port) : (s.setPort p x).cluster i = s.cluster i := rfl
@[simp] theorem State.setFlow_unit_cluster (s : State) (i : Nat) (e : Nat) (f : Flow) : (s.setFlow e f).cluster i = s.cluster i := rfl
@[simp] theorem State.setIsp_unit_cluster (s : State) (k : Nat) (m : Nat) (i : Isp) : (s.setIsp m i).cluster k = s.cluster k := rfl
@[simp] theorem State.setHealth_unit_cluster (s : State) (i : Nat) (u : Nat) (h : Health) : (s.setHealth u h).cluster i = s.cluster i := rfl
@[simp] theorem State.modSec_unit_cluster (s : State) (i : Nat) (f : Sec → Sec) : (s.modSec f).cluster i = s.cluster i := rfl

@[simp] theorem State.slot_setSlot_same (s : State) (n : Nat) (x : PSlot) (h : n < 64) : (s.setSlot n x).slot n = x := by
  simp [State.slot, State.setSlot, h]

theorem State.slot_setSlot_other (s : State) (n m : Nat) (x : PSlot) (h : m ≠ n) : (s.setSlot n x).slot m = s.slot m := by
  simp [State.slot, State.setSlot, Ne.symm h]

@[simp] theorem State.answer_unit_slot (s : State) (i : Nat) (r : Rsp) : (s.answer r).slot i = s.slot i := rfl
@[simp] theorem State.setReg_unit_slot (s : State) (i : Nat) (p o : Nat) (v : Word) : (s.setReg p o v).slot i = s.slot i := rfl
@[simp] theorem State.setCore_unit_slot (s : State) (i : Nat) (n : Nat) (c : Core) : (s.setCore n c).slot i = s.slot i := rfl
@[simp] theorem State.setCluster_unit_slot (s : State) (i : Nat) (n : Nat) (c : Cluster) : (s.setCluster n c).slot i = s.slot i := rfl
@[simp] theorem State.setJob_unit_slot (s : State) (i : Nat) (j : Job) : (s.setJob j).slot i = s.slot i := rfl
@[simp] theorem State.setReel_unit_slot (s : State) (i : Nat) (n : Nat) (r : Reel) : (s.setReel n r).slot i = s.slot i := rfl
@[simp] theorem State.setAxis_unit_slot (s : State) (i : Nat) (n : Nat) (a : Axis) : (s.setAxis n a).slot i = s.slot i := rfl
@[simp] theorem State.setCue_unit_slot (s : State) (i : Nat) (n : Nat) (c : Cue) : (s.setCue n c).slot i = s.slot i := rfl
@[simp] theorem State.setPin_unit_slot (s : State) (i : Nat) (n : Nat) (p : Pin) : (s.setPin n p).slot i = s.slot i := rfl
@[simp] theorem State.setPort_unit_slot (s : State) (i : Nat) (p : Nat) (x : Port) : (s.setPort p x).slot i = s.slot i := rfl
@[simp] theorem State.setFlow_unit_slot (s : State) (i : Nat) (e : Nat) (f : Flow) : (s.setFlow e f).slot i = s.slot i := rfl
@[simp] theorem State.setIsp_unit_slot (s : State) (k : Nat) (m : Nat) (i : Isp) : (s.setIsp m i).slot k = s.slot k := rfl
@[simp] theorem State.setHealth_unit_slot (s : State) (i : Nat) (u : Nat) (h : Health) : (s.setHealth u h).slot i = s.slot i := rfl
@[simp] theorem State.modSec_unit_slot (s : State) (i : Nat) (f : Sec → Sec) : (s.modSec f).slot i = s.slot i := rfl

@[simp] theorem State.reel_setReel_same (s : State) (n : Nat) (x : Reel) (h : n < 32) : (s.setReel n x).reel n = x := by
  simp [State.reel, State.setReel, h]

theorem State.reel_setReel_other (s : State) (n m : Nat) (x : Reel) (h : m ≠ n) : (s.setReel n x).reel m = s.reel m := by
  simp [State.reel, State.setReel, Ne.symm h]

@[simp] theorem State.answer_unit_reel (s : State) (i : Nat) (r : Rsp) : (s.answer r).reel i = s.reel i := rfl
@[simp] theorem State.setReg_unit_reel (s : State) (i : Nat) (p o : Nat) (v : Word) : (s.setReg p o v).reel i = s.reel i := rfl
@[simp] theorem State.setCore_unit_reel (s : State) (i : Nat) (n : Nat) (c : Core) : (s.setCore n c).reel i = s.reel i := rfl
@[simp] theorem State.setCluster_unit_reel (s : State) (i : Nat) (n : Nat) (c : Cluster) : (s.setCluster n c).reel i = s.reel i := rfl
@[simp] theorem State.setJob_unit_reel (s : State) (i : Nat) (j : Job) : (s.setJob j).reel i = s.reel i := rfl
@[simp] theorem State.setSlot_unit_reel (s : State) (i : Nat) (n : Nat) (p : PSlot) : (s.setSlot n p).reel i = s.reel i := rfl
@[simp] theorem State.setAxis_unit_reel (s : State) (i : Nat) (n : Nat) (a : Axis) : (s.setAxis n a).reel i = s.reel i := rfl
@[simp] theorem State.setCue_unit_reel (s : State) (i : Nat) (n : Nat) (c : Cue) : (s.setCue n c).reel i = s.reel i := rfl
@[simp] theorem State.setPin_unit_reel (s : State) (i : Nat) (n : Nat) (p : Pin) : (s.setPin n p).reel i = s.reel i := rfl
@[simp] theorem State.setPort_unit_reel (s : State) (i : Nat) (p : Nat) (x : Port) : (s.setPort p x).reel i = s.reel i := rfl
@[simp] theorem State.setFlow_unit_reel (s : State) (i : Nat) (e : Nat) (f : Flow) : (s.setFlow e f).reel i = s.reel i := rfl
@[simp] theorem State.setIsp_unit_reel (s : State) (k : Nat) (m : Nat) (i : Isp) : (s.setIsp m i).reel k = s.reel k := rfl
@[simp] theorem State.setHealth_unit_reel (s : State) (i : Nat) (u : Nat) (h : Health) : (s.setHealth u h).reel i = s.reel i := rfl
@[simp] theorem State.modSec_unit_reel (s : State) (i : Nat) (f : Sec → Sec) : (s.modSec f).reel i = s.reel i := rfl

@[simp] theorem State.axis_setAxis_same (s : State) (n : Nat) (x : Axis) (h : n < 8) : (s.setAxis n x).axis n = x := by
  simp [State.axis, State.setAxis, h]

theorem State.axis_setAxis_other (s : State) (n m : Nat) (x : Axis) (h : m ≠ n) : (s.setAxis n x).axis m = s.axis m := by
  simp [State.axis, State.setAxis, Ne.symm h]

@[simp] theorem State.answer_unit_axis (s : State) (i : Nat) (r : Rsp) : (s.answer r).axis i = s.axis i := rfl
@[simp] theorem State.setReg_unit_axis (s : State) (i : Nat) (p o : Nat) (v : Word) : (s.setReg p o v).axis i = s.axis i := rfl
@[simp] theorem State.setCore_unit_axis (s : State) (i : Nat) (n : Nat) (c : Core) : (s.setCore n c).axis i = s.axis i := rfl
@[simp] theorem State.setCluster_unit_axis (s : State) (i : Nat) (n : Nat) (c : Cluster) : (s.setCluster n c).axis i = s.axis i := rfl
@[simp] theorem State.setJob_unit_axis (s : State) (i : Nat) (j : Job) : (s.setJob j).axis i = s.axis i := rfl
@[simp] theorem State.setSlot_unit_axis (s : State) (i : Nat) (n : Nat) (p : PSlot) : (s.setSlot n p).axis i = s.axis i := rfl
@[simp] theorem State.setReel_unit_axis (s : State) (i : Nat) (n : Nat) (r : Reel) : (s.setReel n r).axis i = s.axis i := rfl
@[simp] theorem State.setCue_unit_axis (s : State) (i : Nat) (n : Nat) (c : Cue) : (s.setCue n c).axis i = s.axis i := rfl
@[simp] theorem State.setPin_unit_axis (s : State) (i : Nat) (n : Nat) (p : Pin) : (s.setPin n p).axis i = s.axis i := rfl
@[simp] theorem State.setPort_unit_axis (s : State) (i : Nat) (p : Nat) (x : Port) : (s.setPort p x).axis i = s.axis i := rfl
@[simp] theorem State.setFlow_unit_axis (s : State) (i : Nat) (e : Nat) (f : Flow) : (s.setFlow e f).axis i = s.axis i := rfl
@[simp] theorem State.setIsp_unit_axis (s : State) (k : Nat) (m : Nat) (i : Isp) : (s.setIsp m i).axis k = s.axis k := rfl
@[simp] theorem State.setHealth_unit_axis (s : State) (i : Nat) (u : Nat) (h : Health) : (s.setHealth u h).axis i = s.axis i := rfl
@[simp] theorem State.modSec_unit_axis (s : State) (i : Nat) (f : Sec → Sec) : (s.modSec f).axis i = s.axis i := rfl

@[simp] theorem State.cue_setCue_same (s : State) (n : Nat) (x : Cue) (h : n < 64) : (s.setCue n x).cue n = x := by
  simp [State.cue, State.setCue, h]

theorem State.cue_setCue_other (s : State) (n m : Nat) (x : Cue) (h : m ≠ n) : (s.setCue n x).cue m = s.cue m := by
  simp [State.cue, State.setCue, Ne.symm h]

@[simp] theorem State.answer_unit_cue (s : State) (i : Nat) (r : Rsp) : (s.answer r).cue i = s.cue i := rfl
@[simp] theorem State.setReg_unit_cue (s : State) (i : Nat) (p o : Nat) (v : Word) : (s.setReg p o v).cue i = s.cue i := rfl
@[simp] theorem State.setCore_unit_cue (s : State) (i : Nat) (n : Nat) (c : Core) : (s.setCore n c).cue i = s.cue i := rfl
@[simp] theorem State.setCluster_unit_cue (s : State) (i : Nat) (n : Nat) (c : Cluster) : (s.setCluster n c).cue i = s.cue i := rfl
@[simp] theorem State.setJob_unit_cue (s : State) (i : Nat) (j : Job) : (s.setJob j).cue i = s.cue i := rfl
@[simp] theorem State.setSlot_unit_cue (s : State) (i : Nat) (n : Nat) (p : PSlot) : (s.setSlot n p).cue i = s.cue i := rfl
@[simp] theorem State.setReel_unit_cue (s : State) (i : Nat) (n : Nat) (r : Reel) : (s.setReel n r).cue i = s.cue i := rfl
@[simp] theorem State.setAxis_unit_cue (s : State) (i : Nat) (n : Nat) (a : Axis) : (s.setAxis n a).cue i = s.cue i := rfl
@[simp] theorem State.setPin_unit_cue (s : State) (i : Nat) (n : Nat) (p : Pin) : (s.setPin n p).cue i = s.cue i := rfl
@[simp] theorem State.setPort_unit_cue (s : State) (i : Nat) (p : Nat) (x : Port) : (s.setPort p x).cue i = s.cue i := rfl
@[simp] theorem State.setFlow_unit_cue (s : State) (i : Nat) (e : Nat) (f : Flow) : (s.setFlow e f).cue i = s.cue i := rfl
@[simp] theorem State.setIsp_unit_cue (s : State) (k : Nat) (m : Nat) (i : Isp) : (s.setIsp m i).cue k = s.cue k := rfl
@[simp] theorem State.setHealth_unit_cue (s : State) (i : Nat) (u : Nat) (h : Health) : (s.setHealth u h).cue i = s.cue i := rfl
@[simp] theorem State.modSec_unit_cue (s : State) (i : Nat) (f : Sec → Sec) : (s.modSec f).cue i = s.cue i := rfl

@[simp] theorem State.pin_setPin_same (s : State) (n : Nat) (x : Pin) (h : n < 16) : (s.setPin n x).pin n = x := by
  simp [State.pin, State.setPin, h]

theorem State.pin_setPin_other (s : State) (n m : Nat) (x : Pin) (h : m ≠ n) : (s.setPin n x).pin m = s.pin m := by
  simp [State.pin, State.setPin, Ne.symm h]

@[simp] theorem State.answer_unit_pin (s : State) (i : Nat) (r : Rsp) : (s.answer r).pin i = s.pin i := rfl
@[simp] theorem State.setReg_unit_pin (s : State) (i : Nat) (p o : Nat) (v : Word) : (s.setReg p o v).pin i = s.pin i := rfl
@[simp] theorem State.setCore_unit_pin (s : State) (i : Nat) (n : Nat) (c : Core) : (s.setCore n c).pin i = s.pin i := rfl
@[simp] theorem State.setCluster_unit_pin (s : State) (i : Nat) (n : Nat) (c : Cluster) : (s.setCluster n c).pin i = s.pin i := rfl
@[simp] theorem State.setJob_unit_pin (s : State) (i : Nat) (j : Job) : (s.setJob j).pin i = s.pin i := rfl
@[simp] theorem State.setSlot_unit_pin (s : State) (i : Nat) (n : Nat) (p : PSlot) : (s.setSlot n p).pin i = s.pin i := rfl
@[simp] theorem State.setReel_unit_pin (s : State) (i : Nat) (n : Nat) (r : Reel) : (s.setReel n r).pin i = s.pin i := rfl
@[simp] theorem State.setAxis_unit_pin (s : State) (i : Nat) (n : Nat) (a : Axis) : (s.setAxis n a).pin i = s.pin i := rfl
@[simp] theorem State.setCue_unit_pin (s : State) (i : Nat) (n : Nat) (c : Cue) : (s.setCue n c).pin i = s.pin i := rfl
@[simp] theorem State.setPort_unit_pin (s : State) (i : Nat) (p : Nat) (x : Port) : (s.setPort p x).pin i = s.pin i := rfl
@[simp] theorem State.setFlow_unit_pin (s : State) (i : Nat) (e : Nat) (f : Flow) : (s.setFlow e f).pin i = s.pin i := rfl
@[simp] theorem State.setIsp_unit_pin (s : State) (k : Nat) (m : Nat) (i : Isp) : (s.setIsp m i).pin k = s.pin k := rfl
@[simp] theorem State.setHealth_unit_pin (s : State) (i : Nat) (u : Nat) (h : Health) : (s.setHealth u h).pin i = s.pin i := rfl
@[simp] theorem State.modSec_unit_pin (s : State) (i : Nat) (f : Sec → Sec) : (s.modSec f).pin i = s.pin i := rfl

@[simp] theorem State.port_setPort_same (s : State) (n : Nat) (x : Port) (h : n < 4) : (s.setPort n x).port n = x := by
  simp [State.port, State.setPort, h]

theorem State.port_setPort_other (s : State) (n m : Nat) (x : Port) (h : m ≠ n) : (s.setPort n x).port m = s.port m := by
  simp [State.port, State.setPort, Ne.symm h]

@[simp] theorem State.answer_unit_port (s : State) (i : Nat) (r : Rsp) : (s.answer r).port i = s.port i := rfl
@[simp] theorem State.setReg_unit_port (s : State) (i : Nat) (p o : Nat) (v : Word) : (s.setReg p o v).port i = s.port i := rfl
@[simp] theorem State.setCore_unit_port (s : State) (i : Nat) (n : Nat) (c : Core) : (s.setCore n c).port i = s.port i := rfl
@[simp] theorem State.setCluster_unit_port (s : State) (i : Nat) (n : Nat) (c : Cluster) : (s.setCluster n c).port i = s.port i := rfl
@[simp] theorem State.setJob_unit_port (s : State) (i : Nat) (j : Job) : (s.setJob j).port i = s.port i := rfl
@[simp] theorem State.setSlot_unit_port (s : State) (i : Nat) (n : Nat) (p : PSlot) : (s.setSlot n p).port i = s.port i := rfl
@[simp] theorem State.setReel_unit_port (s : State) (i : Nat) (n : Nat) (r : Reel) : (s.setReel n r).port i = s.port i := rfl
@[simp] theorem State.setAxis_unit_port (s : State) (i : Nat) (n : Nat) (a : Axis) : (s.setAxis n a).port i = s.port i := rfl
@[simp] theorem State.setCue_unit_port (s : State) (i : Nat) (n : Nat) (c : Cue) : (s.setCue n c).port i = s.port i := rfl
@[simp] theorem State.setPin_unit_port (s : State) (i : Nat) (n : Nat) (p : Pin) : (s.setPin n p).port i = s.port i := rfl
@[simp] theorem State.setFlow_unit_port (s : State) (i : Nat) (e : Nat) (f : Flow) : (s.setFlow e f).port i = s.port i := rfl
@[simp] theorem State.setIsp_unit_port (s : State) (k : Nat) (m : Nat) (i : Isp) : (s.setIsp m i).port k = s.port k := rfl
@[simp] theorem State.setHealth_unit_port (s : State) (i : Nat) (u : Nat) (h : Health) : (s.setHealth u h).port i = s.port i := rfl
@[simp] theorem State.modSec_unit_port (s : State) (i : Nat) (f : Sec → Sec) : (s.modSec f).port i = s.port i := rfl

@[simp] theorem State.isp_setIsp_same (s : State) (n : Nat) (x : Isp) (h : n < 4) : (s.setIsp n x).isp n = x := by
  simp [State.isp, State.setIsp, h]

theorem State.isp_setIsp_other (s : State) (n m : Nat) (x : Isp) (h : m ≠ n) : (s.setIsp n x).isp m = s.isp m := by
  simp [State.isp, State.setIsp, Ne.symm h]

@[simp] theorem State.answer_unit_isp (s : State) (i : Nat) (r : Rsp) : (s.answer r).isp i = s.isp i := rfl
@[simp] theorem State.setReg_unit_isp (s : State) (i : Nat) (p o : Nat) (v : Word) : (s.setReg p o v).isp i = s.isp i := rfl
@[simp] theorem State.setCore_unit_isp (s : State) (i : Nat) (n : Nat) (c : Core) : (s.setCore n c).isp i = s.isp i := rfl
@[simp] theorem State.setCluster_unit_isp (s : State) (i : Nat) (n : Nat) (c : Cluster) : (s.setCluster n c).isp i = s.isp i := rfl
@[simp] theorem State.setJob_unit_isp (s : State) (i : Nat) (j : Job) : (s.setJob j).isp i = s.isp i := rfl
@[simp] theorem State.setSlot_unit_isp (s : State) (i : Nat) (n : Nat) (p : PSlot) : (s.setSlot n p).isp i = s.isp i := rfl
@[simp] theorem State.setReel_unit_isp (s : State) (i : Nat) (n : Nat) (r : Reel) : (s.setReel n r).isp i = s.isp i := rfl
@[simp] theorem State.setAxis_unit_isp (s : State) (i : Nat) (n : Nat) (a : Axis) : (s.setAxis n a).isp i = s.isp i := rfl
@[simp] theorem State.setCue_unit_isp (s : State) (i : Nat) (n : Nat) (c : Cue) : (s.setCue n c).isp i = s.isp i := rfl
@[simp] theorem State.setPin_unit_isp (s : State) (i : Nat) (n : Nat) (p : Pin) : (s.setPin n p).isp i = s.isp i := rfl
@[simp] theorem State.setPort_unit_isp (s : State) (i : Nat) (p : Nat) (x : Port) : (s.setPort p x).isp i = s.isp i := rfl
@[simp] theorem State.setFlow_unit_isp (s : State) (i : Nat) (e : Nat) (f : Flow) : (s.setFlow e f).isp i = s.isp i := rfl
@[simp] theorem State.setHealth_unit_isp (s : State) (i : Nat) (u : Nat) (h : Health) : (s.setHealth u h).isp i = s.isp i := rfl
@[simp] theorem State.modSec_unit_isp (s : State) (i : Nat) (f : Sec → Sec) : (s.modSec f).isp i = s.isp i := rfl

@[simp] theorem State.healthOf_setHealth_same (s : State) (n : Nat) (x : Health) (h : n < 142) : (s.setHealth n x).healthOf n = x := by
  simp [State.healthOf, State.setHealth, h]

theorem State.healthOf_setHealth_other (s : State) (n m : Nat) (x : Health) (h : m ≠ n) : (s.setHealth n x).healthOf m = s.healthOf m := by
  simp [State.healthOf, State.setHealth, Ne.symm h]

@[simp] theorem State.answer_unit_healthOf (s : State) (i : Nat) (r : Rsp) : (s.answer r).healthOf i = s.healthOf i := rfl
@[simp] theorem State.setReg_unit_healthOf (s : State) (i : Nat) (p o : Nat) (v : Word) : (s.setReg p o v).healthOf i = s.healthOf i := rfl
@[simp] theorem State.setCore_unit_healthOf (s : State) (i : Nat) (n : Nat) (c : Core) : (s.setCore n c).healthOf i = s.healthOf i := rfl
@[simp] theorem State.setCluster_unit_healthOf (s : State) (i : Nat) (n : Nat) (c : Cluster) : (s.setCluster n c).healthOf i = s.healthOf i := rfl
@[simp] theorem State.setJob_unit_healthOf (s : State) (i : Nat) (j : Job) : (s.setJob j).healthOf i = s.healthOf i := rfl
@[simp] theorem State.setSlot_unit_healthOf (s : State) (i : Nat) (n : Nat) (p : PSlot) : (s.setSlot n p).healthOf i = s.healthOf i := rfl
@[simp] theorem State.setReel_unit_healthOf (s : State) (i : Nat) (n : Nat) (r : Reel) : (s.setReel n r).healthOf i = s.healthOf i := rfl
@[simp] theorem State.setAxis_unit_healthOf (s : State) (i : Nat) (n : Nat) (a : Axis) : (s.setAxis n a).healthOf i = s.healthOf i := rfl
@[simp] theorem State.setCue_unit_healthOf (s : State) (i : Nat) (n : Nat) (c : Cue) : (s.setCue n c).healthOf i = s.healthOf i := rfl
@[simp] theorem State.setPin_unit_healthOf (s : State) (i : Nat) (n : Nat) (p : Pin) : (s.setPin n p).healthOf i = s.healthOf i := rfl
@[simp] theorem State.setPort_unit_healthOf (s : State) (i : Nat) (p : Nat) (x : Port) : (s.setPort p x).healthOf i = s.healthOf i := rfl
@[simp] theorem State.setFlow_unit_healthOf (s : State) (i : Nat) (e : Nat) (f : Flow) : (s.setFlow e f).healthOf i = s.healthOf i := rfl
@[simp] theorem State.setIsp_unit_healthOf (s : State) (k : Nat) (m : Nat) (i : Isp) : (s.setIsp m i).healthOf k = s.healthOf k := rfl
@[simp] theorem State.modSec_unit_healthOf (s : State) (i : Nat) (f : Sec → Sec) : (s.modSec f).healthOf i = s.healthOf i := rfl

end Sys2Proof.Machine
end

