-- ==== Sys2Proof/Laws/Access.lean ====
section
/-! SUPPORT. What one access does once it reaches a page, an audit entry, and the answer. -/

namespace Sys2Proof.Machine

theorem pageKind_lt {n : Nat} {p : Kind × Nat} (h : pageKind n = some p) : n < 0x280 := by
  rcases Nat.lt_or_ge n 0x280 with h' | h'
  · exact h'
  · unfold pageKind at h
    simp (disch := omega) only [if_neg] at h
    cases h

theorem regAddr_page {page off : Nat} (h : off < 4096) : (regAddr page off - pageBase) / 4096 = page := by
  unfold regAddr pageBase rkey; omega

theorem regAddr_off {page off : Nat} (h : off < 4096) : regAddr page off % 4096 = off := by
  unfold regAddr pageBase rkey; omega

theorem regAddr_aligned {page off : Nat} (h : off % 4 = 0) : regAddr page off % 4 = 0 := by
  unfold regAddr pageBase rkey; omega

theorem inPages_regAddr {page off : Nat} (hp : page < 0x280) (h : off < 4096) : inPages (regAddr page off) = true := by
  unfold inPages regAddr pageBase rkey
  simp only [Bool.and_eq_true, decide_eq_true_eq]
  omega

/-- A write that reaches a page is that page's write. -/
theorem State.put_reaches {s : State} {who : Requester} {page off : Nat} {k : Kind} {i : Nat} (v : Word)
    (h : Reaches s who page off k i) : s.put who page off v = s.writePage who page off k i v := by
  unfold State.put State.busWrite
  rw [inPages_regAddr (pageKind_lt h.kind) h.low]
  unfold State.pageWrite
  simp only [regAddr_page h.low, regAddr_off h.low, regAddr_aligned h.aligned, h.may, h.kind, h.here, if_true, Bool.not_true,
    Bool.false_eq_true, if_false, ne_eq, not_true_eq_false, or_self]

/-- A read that reaches a page answers with the data and keeps what it latches. -/
theorem State.get_reaches {s : State} {who : Requester} {page off : Nat} {k : Kind} {i : Nat}
    (h : Reaches s who page off k i) :
    s.get who page off = (s.readPage who page off k i).1.okData (s.readPage who page off k i).2 := by
  unfold State.get State.busRead
  rw [inPages_regAddr (pageKind_lt h.kind) h.low]
  unfold State.pageRead
  simp only [regAddr_page h.low, regAddr_off h.low, regAddr_aligned h.aligned, h.may, h.kind, h.here, if_true, Bool.not_true,
    Bool.false_eq_true, if_false, ne_eq, not_true_eq_false, or_self]

/-- What is left of a write to a register that admits it. -/
theorem State.put_opens {s : State} {who : Requester} {page off : Nat} {k : Kind} {i : Nat} {r : Row} (v : Word)
    (h : Opens s who page off k i r) :
    (r.acc = .w1c → s.put who page off v = s.audited who page off v (fun s => s.w1cWrite page off v)) ∧
    (r.acc = .rws → s.put who page off v = s.audited who page off v (fun s => s.rwsWrite who page off k i r v)) ∧
    (r.acc = .wo → ¬(isWindow k = true ∧ off = 0x804 ∧ (v = 2 ∨ v = 3)) →
      s.put who page off v = s.audited who page off v (fun s => s.woWrite who page off k i v)) ∧
    (r.acc = .wo → isWindow k = true ∧ off = 0x804 ∧ (v = 2 ∨ v = 3) →
      s.put who page off v = s.winCommand who page k i v.toNat) ∧
    (r.acc = .rw → isPointer k off = false →
      s.put who page off v = s.audited who page off v (fun s => s.rwWrite who page off k i r v)) ∧
    (r.acc = .rw → isPointer k off = true → s.put who page off v = s.ok.rwWrite who page off k i r v) ∧
    (r.acc = .ro → ¬(k = .thermal ∧ off = 0x10C ∧ bit v.toNat 31 = true) →
      s.put who page off v = (s.errAcc page 0x83 who true off).discard) ∧
    (r.acc = .ro → k = .thermal ∧ off = 0x10C ∧ bit v.toNat 31 = true →
      s.put who page off v = s.audited who page off v (fun s => { s with power := { s.power with peak := none } })) := by
  rw [State.put_reaches v h.reach]
  unfold State.writePage
  have he : ¬(0x400 ≤ off ∧ off < 0x800 ∧ (!s.expertEn page) = true) := by
    rintro ⟨a, b, c⟩
    rw [h.expert a b] at c
    cases c
  rw [if_neg h.header.1, if_neg h.header.2.1, if_neg h.header.2.2, h.row]
  have hm : ¬((!s.mayWrite who page off k) = true) := by rw [h.role]; exact Bool.false_ne_true
  simp only [hm, he, if_false]
  refine ⟨?_, ?_, ?_, ?_, ?_, ?_, ?_, ?_⟩ <;> intro ha <;> rw [ha] <;> try intro hb
  all_goals first | rfl | exact if_neg hb | exact if_pos hb | (rw [hb]; rfl)

/-! ### Audit entries -/

/-- An audit entry is appended to SEC's staged entries; nothing else changes. -/
theorem State.audit_spec (s : State) (event : Nat) (who : Requester) (result page off : Nat) (v a : Word) (d : List Byte) :
    ∃ e : AuditEntry, e.event = event ∧ e.page = page ∧ e.offset = off ∧ e.value = v ∧ e.result = result ∧
      s.audit event who result page off v a d =
        { s with sec := { s.sec with staged := s.sec.staged ++ [e], auditSeq := s.sec.auditSeq + 1, chain := e.chain } } := by
  unfold State.audit
  split <;> exact ⟨_, rfl, rfl, rfl, rfl, rfl, rfl⟩

/-- R55: the audit entry of an accepted access, or none. -/
theorem State.auditIfLocked_spec (s : State) (event : Nat) (who : Requester) (page region off : Nat) (v a : Word)
    (d : List Byte) :
    AuditTrail s (s.auditIfLocked event who page region off v a d) event page region off v ∧
      s.auditIfLocked event who page region off v a d =
        { s with sec := (s.auditIfLocked event who page region off v a d).sec } := by
  unfold AuditTrail State.auditIfLocked
  simp only
  by_cases hl : s.lock page region = 1 ∨ s.lock page region = 2
  · rw [if_pos hl, if_pos hl]
    obtain ⟨e, h1, h2, h3, h4, h5, h6⟩ := s.audit_spec event who 0 page off v a d
    rw [h6]
    exact ⟨⟨e, h1, h2, h3, h4, h5, rfl⟩, rfl⟩
  · rw [if_neg hl, if_neg hl]
    exact ⟨rfl, rfl⟩

/-- A write whose effect is not discarded runs on the audited state. -/
theorem State.audited_ok {s : State} {who : Requester} {page off : Nat} {v : Word} {f : State → State}
    (h : (f s.ok).rsp.discarded = false) :
    s.audited who page off v f = f ((s.auditIfLocked 1 who page (regionOf off) off v 0).ok) := by
  unfold State.audited
  simp only [h, Bool.false_eq_true, if_false]

/-- A write whose effect is discarded leaves no audit entry. -/
theorem State.audited_discard {s : State} {who : Requester} {page off : Nat} {v : Word} {f : State → State}
    (h : (f s.ok).rsp.discarded = true) : s.audited who page off v f = f s.ok := by
  unfold State.audited
  simp only [h, if_true]

/-- An accepted write is its effect on a state that differs from the first in SEC's audit trail and the answer alone. -/
theorem State.audited_spec {s : State} {who : Requester} {page off : Nat} {v : Word} {f : State → State}
    (h : (f s.ok).rsp.discarded = false) :
    ∃ c : Sec, s.audited who page off v f = f { s with sec := c, rsp := ⟨false, false, 0⟩ } ∧
      ∀ t : State, t.sec = c → AuditTrail s t 1 page (regionOf off) off v := by
  obtain ⟨h1, h2⟩ := s.auditIfLocked_spec 1 who page (regionOf off) off v 0 []
  refine ⟨(s.auditIfLocked 1 who page (regionOf off) off v 0).sec, ?_, ?_⟩
  · rw [State.audited_ok h, h2]
    rfl
  · intro t ht
    unfold AuditTrail at h1 ⊢
    rw [ht]
    exact h1

/-! ### ERR_INFO -/

theorem rkey_ne {p q o r : Nat} (ho : o < 4096) (hr : r < 4096) (h : p ≠ q ∨ o ≠ r) : rkey p o ≠ rkey q r := by
  intro he
  obtain ⟨a, b⟩ := rkey_inj ho hr he
  rcases h with h | h <;> exact h (by assumption)

theorem roleNum_lt (r : Role) : roleNum r < 4 := by cases r <;> decide

theorem portOf_lt (who : Requester) : portOf who < 32 := by
  cases who
  case port p => exact Nat.lt_trans p.isLt (by decide)
  all_goals (show _ < 32; simp only [portOf]; decide)

/-- An error changes ERR_INFO and ERR_ADDR of its page and no other register. -/
theorem State.setErr_other (s : State) (page code role port : Nat) (write phys : Bool) (addr : Nat) :
    OtherRegs s (s.setErr page code role port write phys addr) [(page, 0x18), (page, 0x1C)] := by
  intro p o ho hn
  have h1 : rkey p o ≠ rkey page 0x18 := rkey_ne ho (by decide) (by
    rcases Decidable.em (p = page) with rfl | h
    · right; rintro rfl; simp at hn
    · exact Or.inl h)
  have h2 : rkey p o ≠ rkey page 0x1C := rkey_ne ho (by decide) (by
    rcases Decidable.em (p = page) with rfl | h
    · right; rintro rfl; simp at hn
    · exact Or.inl h)
  unfold State.setErr
  dsimp only
  split
  · exact State.reg_setReg_other s _ _ _ _ _ h1
  · rw [State.setRn_eq, State.setRn_eq, State.reg_setReg_other _ _ _ _ _ _ h2, State.reg_setReg_other _ _ _ _ _ _ h1]

theorem State.setErr_frame (s : State) (page code role port : Nat) (write phys : Bool) (addr : Nat) :
    s.setErr page code role port write phys addr = { s with regs := (s.setErr page code role port write phys addr).regs } := by
  unfold State.setErr
  dsimp only
  split <;> rfl

/-- The fields of a word ERR_INFO is given (R46). -/
theorem errWord_fields (hi w port role code : Nat) (hhi : hi < 256) (hw : w < 2) (hp : port < 32) (hr : role < 4)
    (hc : code < 256) :
    let n := (w32 (0x80000000 + hi * 65536 + w * 32768 + (port % 32) * 1024 + role * 256 + code)).toNat
    bit n 31 = true ∧ bit n 30 = false ∧ bits n 7 0 = code ∧ bits n 9 8 = role ∧ bits n 14 10 = port ∧ bits n 15 15 = w := by
  intro n
  have hn : n = 0x80000000 + hi * 65536 + w * 32768 + port * 1024 + role * 256 + code := by
    show (BitVec.ofNat 32 _).toNat = _
    rw [BitVec.toNat_ofNat]
    omega
  rw [hn]
  refine ⟨?_, ?_, ?_, ?_, ?_, ?_⟩ <;> simp only [bit, bits, beq_iff_eq, beq_eq_false_iff_ne] <;> omega

/-- R46 and R47: what an error of an access records. -/
theorem State.setErr_recorded (s : State) (page code : Nat) (who : Requester) (write phys : Bool) (addr : Nat)
    (hc : code < 256) :
    ErrorRecorded s (s.setErr page code (roleNum (s.roleOf who)) (portOf who) write phys addr) page code who write := by
  have h18 : rkey page 0x18 ≠ rkey page 0x1C := rkey_ne (by decide) (by decide) (Or.inr (by decide))
  unfold ErrorRecorded State.setErr
  simp only
  split
  · rename_i h
    rw [if_pos (by simpa [State.rn] using h)]
    refine ⟨State.reg_setReg_same _ _ _ _, State.reg_setReg_other _ _ _ _ _ _ h18.symm⟩
  · rename_i h
    rw [if_neg (by simpa [State.rn] using h)]
    simp only [State.setRn_eq, State.rn, State.reg_setReg_other _ _ _ _ _ _ h18, State.reg_setReg_same]
    have hh : (if phys = true then bits addr 39 32 else 0) < 256 := by
      split
      · exact Nat.lt_of_lt_of_le (Nat.mod_lt _ (by decide)) (by decide)
      · decide
    obtain ⟨a, b, c, d, e, f⟩ := errWord_fields _ (b2n write) (portOf who) _ code hh (by cases write <;> decide) (portOf_lt who)
      (roleNum_lt (s.roleOf who)) hc
    refine ⟨a, b, c, d, e, ?_⟩
    cases write <;> simp only [bits, bit, b2n] at f ⊢ <;> simp at f ⊢ <;> omega

/-- What an error of an access to a page leaves: R46 and R47, and nothing else. -/
theorem State.errAcc_spec (s : State) (page code : Nat) (who : Requester) (w : Bool) (off : Nat) (hc : code < 256) :
    ErrorRecorded s (s.errAcc page code who w off) page code who w ∧ OtherRegs s (s.errAcc page code who w off) [(page, 0x18), (page, 0x1C)] ∧
    s.errAcc page code who w off = { s with regs := (s.errAcc page code who w off).regs } :=
  ⟨State.setErr_recorded _ _ _ _ _ _ _ hc, State.setErr_other _ _ _ _ _ _ _ _, State.setErr_frame _ _ _ _ _ _ _ _⟩

/-- A write below the lock: discarded, ROLE_DENIED, and at most an audit entry (R53, R55). -/
theorem State.deny_spec (s : State) (page off : Nat) (who : Requester) (v : Word) :
    ErrorRecorded s (s.deny page off who v) page 0x80 who true ∧ OtherRegs s (s.deny page off who v) [(page, 0x18), (page, 0x1C)] ∧
    s.deny page off who v = { s with regs := (s.deny page off who v).regs, rsp := ⟨false, true, 0⟩, sec := (s.deny page off who v).sec } := by
  obtain ⟨h1, h2, h3⟩ := State.errAcc_spec s page 0x80 who true off (by decide)
  unfold State.deny
  dsimp only
  split
  · obtain ⟨e, _, _, _, _, _, h6⟩ := (s.errAcc page 0x80 who true off).audit_spec 4 who 1 page off v ((s.errAcc page 0x80 who true off).reg page 0x18) []
    rw [h6]
    generalize s.errAcc page 0x80 who true off = x at *
    refine ⟨h1, h2, ?_⟩
    rw [h3]; rfl
  · generalize s.errAcc page 0x80 who true off = x at *
    refine ⟨h1, h2, ?_⟩
    rw [h3]; rfl

/-- A raised cause sets in IRQ_STAT; no other register changes, and the source may become pending at the PLIC. -/
theorem State.raise_spec (s : State) (page b : Nat) : (s.raise page b).reg page 0x10 = s.reg page 0x10 ||| w32 (2 ^ b) ∧
    s.raise page b = { s with regs := (s.raise page b).regs, plicPending := (s.raise page b).plicPending } ∧
    OtherRegs s (s.raise page b) [(page, 0x10)] := by
  have h2 : ∀ x : State, x.plicSample page = { x with plicPending := (x.plicSample page).plicPending } := by
    intro x; unfold State.plicSample; dsimp only; split <;> rfl
  have hr : ∀ (x : State) p o, (x.plicSample page).reg p o = x.reg p o := by
    intro x p o; rw [h2]; rfl
  unfold State.raise
  refine ⟨?_, ?_, ?_⟩
  · rw [hr, State.reg_setReg_same]
  · rw [h2]; rfl
  · intro p o ho hn
    rw [hr, State.reg_setReg_other]
    apply rkey_ne ho (by decide)
    rcases Decidable.em (p = page) with rfl | h
    · right; rintro rfl; simp at hn
    · exact Or.inl h

end Sys2Proof.Machine
end

