-- ==== Sys2Proof/Laws/Kept.lean ====
section
/-! SUPPORT. One lemma per operation of the machine: from a state that keeps the queue, the fuses and the canonical form of
memory of a first state, the operation goes to a state that keeps them too. -/

namespace Sys2Proof.Machine

set_option autoImplicit false
set_option simprocs false
set_option linter.unusedTactic false
set_option linter.unreachableTactic false
set_option linter.unusedVariables false

/-- What every command keeps of a first state: the queue, the fuses but for those that burn, and the canonical form of memory. -/
def K (s₀ : State) (p : List Instr) (f : Fuses) (d : SMap Byte) : Prop :=
  p = s₀.pending ∧ FuseLe s₀.fuse f ∧ (mapWf 0 s₀.dram = true → mapWf 0 d = true)

/-- `K` of a whole state. -/
def Kept (s₀ s : State) : Prop := K s₀ s.pending s.fuse s.dram

theorem Kept.toK {s₀ s : State} (h : Kept s₀ s) : K s₀ s.pending s.fuse s.dram := h

theorem Kept.of {s₀ s t : State} (hp : t.pending = s.pending) (hf : t.fuse = s.fuse) (hd : t.dram = s.dram)
    (h : Kept s₀ s) : Kept s₀ t := by
  unfold Kept
  rw [hp, hf, hd]
  exact h

theorem Kept.upd {s₀ s : State}
    {x_rsp : Rsp} {x_free : Nat} {x_regs : SMap Word} {x_staged : SMap Word} {x_winBusy : List (Nat × Bool)}
    {x_winTab : SMap Byte} {x_winGen : SMap Word} {x_plicClaimed : List (Nat × Nat)} {x_plicPending : List Nat}
    {x_tags : SMap Word} {x_poison : List Nat} {x_cellErr : SMap (Bool × BitVec 16)} {x_queue : List Queued} {x_held
    : List Held} {x_meters : List (Nat × Meters)} {x_bankFree : SMap Nat} {x_fills : List Nat} {x_segInit : List
    Nat} {x_refreshBank : SMap Nat} {x_refreshRow : SMap Nat} {x_selfRefresh : Bool} {x_bandInForce : SMap Nat}
    {x_dly : SMap Word} {x_dlyBand : SMap Nat} {x_ceLast : SMap Nat} {x_l2 : SMap L2Line} {x_secRam : SMap Byte}
    {x_cores : Vector Core 128} {x_clusters : Vector Cluster 8} {x_slots : Vector PSlot 64} {x_jobs : List Job}
    {x_runCount : Nat} {x_reels : Vector Reel 32} {x_time : Nat} {x_uptime : Nat} {x_axes : Vector Axis 8} {x_cues :
    Vector Cue 64} {x_evts : List Evt} {x_pins : Vector Pin 16} {x_ppsHigh : Bool} {x_ppsAt : Option Int} {x_resSeen
    : SMap (List Byte)} {x_turn : List Nat} {x_servo : Servo} {x_ports : Vector Port 4} {x_flows : SMap Flow}
    {x_isps : Vector Isp 4} {x_csiClk : List Nat} {x_vcs : Vector (List VcCtx) 2} {x_trkDue : List Nat} {x_faults :
    List FaultEv} {x_faultBuf : List (List Byte)} {x_faultSeq : Word} {x_recovering : Option Nat} {x_c2Active :
    Bool} {x_dailyFrom : Nat} {x_health : Vector Health 142} {x_sec : Sec} {x_power : Power} {x_dma : Dma}
    (h : Kept s₀ s) :
    Kept s₀
      ⟨s.pending, x_rsp, x_free, s.fuse, x_regs, x_staged, x_winBusy, x_winTab, x_winGen, x_plicClaimed,
      x_plicPending, s.dram, x_tags, x_poison, x_cellErr, x_queue, x_held, x_meters, x_bankFree, x_fills,
      x_segInit, x_refreshBank, x_refreshRow, x_selfRefresh, x_bandInForce, x_dly, x_dlyBand, x_ceLast, x_l2,
      x_secRam, x_cores, x_clusters, x_slots, x_jobs, x_runCount, x_reels, x_time, x_uptime, x_axes, x_cues,
      x_evts, x_pins, x_ppsHigh, x_ppsAt, x_resSeen, x_turn, x_servo, x_ports, x_flows, x_isps, x_csiClk, x_vcs,
      x_trkDue, x_faults, x_faultBuf, x_faultSeq, x_recovering, x_c2Active, x_dailyFrom, x_health, x_sec,
      x_power, x_dma⟩ := h

theorem Kept.cut {s₀ : State} (x : State) {G : Prop} (h : Kept s₀ x) (k : Kept s₀ x → G) : G := k h

theorem Kept.cutF {s₀ : State} (x : State → State) {G : Prop} (h : ∀ s, Kept s₀ s → Kept s₀ (x s))
    (k : (∀ s, Kept s₀ s → Kept s₀ (x s)) → G) : G := k h

theorem Kept.fst {α : Type} {s₀ s : State} {p : State × α} {b : α} (h : p = (s, b)) (k : Kept s₀ p.1) : Kept s₀ s := by
  subst h; exact k

theorem ite_kept {s₀ : State} {c : Prop} [Decidable c] {a b : State} (ha : Kept s₀ a) (hb : Kept s₀ b) :
    Kept s₀ (if c then a else b) := by
  split
  · exact ha
  · exact hb

theorem ite_kept' {s₀ : State} {c : Prop} [Decidable c] {a b : State} (ha : c → Kept s₀ a) (hb : Kept s₀ b) :
    Kept s₀ (if c then a else b) := by
  split
  · rename_i hc
    exact ha hc
  · exact hb

theorem ite_fst_kept {α : Type} {s₀ : State} {c : Prop} [Decidable c] {a b : State × α} (ha : Kept s₀ a.1)
    (hb : Kept s₀ b.1) : Kept s₀ (if c then a else b).1 := by
  split
  · exact ha
  · exact hb

theorem foldl_fst_kept {α β : Type} {s₀ : State} (f : State × β → α → State × β) (l : List α) (p : State × β)
    (hf : ∀ p a, Kept s₀ p.1 → Kept s₀ (f p a).1) (h : Kept s₀ p.1) : Kept s₀ (l.foldl f p).1 := by
  induction l generalizing p with
  | nil => exact h
  | cons a l ih => exact ih _ (hf _ _ h)

theorem foldl_kept {α : Type} {s₀ : State} (f : State → α → State) (l : List α) (s : State)
    (hf : ∀ s a, Kept s₀ s → Kept s₀ (f s a)) (h : Kept s₀ s) : Kept s₀ (l.foldl f s) := by
  induction l generalizing s with
  | nil => exact h
  | cons a l ih => exact ih _ (hf _ _ h)

theorem iterate_kept {s₀ : State} (f : Nat → State → State) (n i : Nat) (s : State)
    (hf : ∀ i s, Kept s₀ s → Kept s₀ (f i s)) (h : Kept s₀ s) : Kept s₀ (iterate f n i s) := by
  induction n generalizing i s with
  | zero => exact h
  | succ n ih => exact ih _ _ (hf _ _ h)

theorem State.setReg_kept {s₀ : State} (x0 : State) (x1 : Nat) (x2 : Nat) (x3 : Word) (h : Kept s₀ x0) : Kept s₀ (State.setReg x0 x1 x2 x3) := Kept.upd h

theorem State.setRn_kept {s₀ : State} (x0 : State) (x1 : Nat) (x2 : Nat) (x3 : Nat) (h : Kept s₀ x0) : Kept s₀ (State.setRn x0 x1 x2 x3) := Kept.upd h

theorem State.setArmed_kept {s₀ : State} (x0 : State) (x1 : Nat) (x2 : Bool) (h : Kept s₀ x0) : Kept s₀ (State.setArmed x0 x1 x2) := Kept.upd h

theorem State.incReg_kept {s₀ : State} (x0 : State) (x1 : Nat) (x2 : Nat) (x3 : optParam Nat 1) (h : Kept s₀ x0) : Kept s₀ (State.incReg x0 x1 x2 x3) := Kept.upd h

theorem State.satReg_kept {s₀ : State} (x0 : State) (x1 : Nat) (x2 : Nat) (x3 : optParam Nat 1) (h : Kept s₀ x0) : Kept s₀ (State.satReg x0 x1 x2 x3) := Kept.upd h

theorem State.answer_kept {s₀ : State} (x0 : State) (x1 : Rsp) (h : Kept s₀ x0) : Kept s₀ (State.answer x0 x1) := Kept.upd h

theorem State.setErr_kept {s₀ : State} (x0 : State) (x1 : Nat) (x2 : Nat) (x3 : Nat) (x4 : Nat) (x5 : Bool) (x6 : Bool) (x7 : Nat) (h : Kept s₀ x0) : Kept s₀ (State.setErr x0 x1 x2 x3 x4 x5 x6 x7) := by
  unfold State.setErr
  repeat' (first | with_reducible assumption | with_reducible apply State.setReg_kept | with_reducible apply State.setRn_kept | with_reducible exact Kept.upd (by with_reducible assumption) | with_reducible apply ite_kept)

theorem State.errAcc_kept {s₀ : State} (x0 : State) (x1 : Nat) (x2 : Nat) (x3 : Requester) (x4 : Bool) (x5 : Nat) (h : Kept s₀ x0) : Kept s₀ (State.errAcc x0 x1 x2 x3 x4 x5) := by
  unfold State.errAcc
  repeat' (first | with_reducible assumption | with_reducible apply State.setErr_kept)

theorem State.auditAs_kept {s₀ : State} (x0 : State) (x1 : Nat) (x2 : Nat) (x3 : Nat) (x4 : BitVec 16) (x5 : Nat) (x6 : Nat) (x7 : Nat) (x8 : Nat) (x9 : Word) (x10 : Word) (x11 : List Byte) (h : Kept s₀ x0) : Kept s₀ (State.auditAs x0 x1 x2 x3 x4 x5 x6 x7 x8 x9 x10 x11) := Kept.upd h

theorem State.audit_kept {s₀ : State} (x0 : State) (x1 : Nat) (x2 : Requester) (x3 : Nat) (x4 : Nat) (x5 : Nat) (x6 : Word) (x7 : Word) (x8 : optParam (List Byte) []) (h : Kept s₀ x0) : Kept s₀ (State.audit x0 x1 x2 x3 x4 x5 x6 x7 x8) := by
  unfold State.audit
  repeat' (first | with_reducible assumption | (intro _) | with_reducible apply State.auditAs_kept | with_reducible apply ite_kept | with_reducible apply foldl_kept | with_reducible refine Kept.fst (by with_reducible assumption) ?_ | (extract_lets +onlyGivenNames x; refine Kept.cut (s₀ := s₀) x ?_ ?_; unfold x; clear x; rotate_left; intro hx; clear_value x; rotate_right) | (extract_lets +onlyGivenNames x; clear_value x) | split | with_reducible exact Kept.upd (by with_reducible assumption))

theorem State.discard_kept {s₀ : State} (x0 : State) (h : Kept s₀ x0) : Kept s₀ (State.discard x0) := Kept.upd h

theorem State.deny_kept {s₀ : State} (x0 : State) (x1 : Nat) (x2 : Nat) (x3 : Requester) (x4 : Word) (h : Kept s₀ x0) : Kept s₀ (State.deny x0 x1 x2 x3 x4) := by
  unfold State.deny
  repeat' (first | with_reducible assumption | with_reducible apply State.errAcc_kept | with_reducible apply State.audit_kept | with_reducible apply State.discard_kept | with_reducible exact Kept.upd (by with_reducible assumption) | with_reducible apply ite_kept)

theorem State.commitRes_kept {s₀ : State} (x0 : State) (x1 : Nat) (x2 : Nat) (x3 : Nat) (x4 : Nat) (x5 : Bool) (h : Kept s₀ x0) : Kept s₀ (State.commitRes x0 x1 x2 x3 x4 x5) := Kept.upd h

theorem State.plicSample_kept {s₀ : State} (x0 : State) (x1 : Nat) (h : Kept s₀ x0) : Kept s₀ (State.plicSample x0 x1) := by
  unfold State.plicSample
  repeat' (first | with_reducible assumption | with_reducible exact Kept.upd (by with_reducible assumption) | with_reducible apply ite_kept)

theorem State.raise_kept {s₀ : State} (x0 : State) (x1 : Nat) (x2 : Nat) (h : Kept s₀ x0) : Kept s₀ (State.raise x0 x1 x2) := by
  unfold State.raise
  repeat' (first | with_reducible assumption | with_reducible apply State.plicSample_kept | with_reducible apply State.setReg_kept)

theorem State.ok_kept {s₀ : State} (x0 : State) (h : Kept s₀ x0) : Kept s₀ (State.ok x0) := Kept.upd h

theorem State.errorRsp_kept {s₀ : State} (x0 : State) (h : Kept s₀ x0) : Kept s₀ (State.errorRsp x0) := Kept.upd h

theorem State.errSys_kept {s₀ : State} (x0 : State) (x1 : Nat) (x2 : Requester) (x3 : Bool) (x4 : Nat) (h : Kept s₀ x0) : Kept s₀ (State.errSys x0 x1 x2 x3 x4) := by
  unfold State.errSys
  repeat' (first | with_reducible assumption | with_reducible apply State.setErr_kept)

theorem State.auditIfLocked_kept {s₀ : State} (x0 : State) (x1 : Nat) (x2 : Requester) (x3 : Nat) (x4 : Nat) (x5 : Nat) (x6 : Word) (x7 : Word) (x8 : optParam (List Byte) []) (h : Kept s₀ x0) : Kept s₀ (State.auditIfLocked x0 x1 x2 x3 x4 x5 x6 x7 x8) := by
  unfold State.auditIfLocked
  repeat' (first | with_reducible assumption | with_reducible apply State.audit_kept | with_reducible exact Kept.upd (by with_reducible assumption) | with_reducible apply ite_kept)

theorem State.countReg_kept {s₀ : State} (x0 : State) (x1 : Nat) (x2 : Nat) (x3 : Nat) (x4 : optParam Nat 1) (h : Kept s₀ x0) : Kept s₀ (State.countReg x0 x1 x2 x3 x4) := by
  unfold State.countReg
  repeat' (first | with_reducible assumption | with_reducible apply State.setRn_kept | with_reducible apply State.raise_kept | with_reducible exact Kept.upd (by with_reducible assumption) | with_reducible apply ite_kept)

theorem State.okData_kept {s₀ : State} (x0 : State) (x1 : Word) (h : Kept s₀ x0) : Kept s₀ (State.okData x0 x1) := Kept.upd h

theorem advance_kept {s₀ : State} (x0 : Nat) (x1 : State) (h : Kept s₀ x1) : Kept s₀ (advance x0 x1) := by
  unfold advance
  repeat' (first | with_reducible assumption | with_reducible apply State.raise_kept | with_reducible exact Kept.upd (by with_reducible assumption) | with_reducible apply ite_kept)

theorem advanceTo_kept {s₀ : State} (x0 : Int) (x1 : State) (h : Kept s₀ x1) : Kept s₀ (advanceTo x0 x1) := by
  unfold advanceTo
  repeat' (first | with_reducible assumption | with_reducible apply advance_kept)

theorem State.drawNat_kept {s₀ : State} (x0 : State) (x1 : Nat) (h : Kept s₀ x0) : Kept s₀ (State.drawNat x0 x1).1 := Kept.upd h

theorem State.fitS_kept {s₀ : State} (x0 : State) (x1 : Nat) (x2 : Int) (h : Kept s₀ x0) : Kept s₀ (State.fitS x0 x1 x2).1 := by
  unfold State.fitS
  repeat' (first | with_reducible assumption | (intro _) | with_reducible apply State.drawNat_kept | with_reducible apply ite_kept | with_reducible apply foldl_kept | with_reducible refine Kept.fst (by with_reducible assumption) ?_ | (extract_lets +onlyGivenNames x; refine Kept.cut (s₀ := s₀) x ?_ ?_; unfold x; clear x; rotate_left; intro hx; clear_value x; rotate_right) | (extract_lets +onlyGivenNames x; clear_value x) | split | with_reducible exact Kept.upd (by with_reducible assumption))

theorem idleTick_kept {s₀ : State} (x0 : State) (h : Kept s₀ x0) : Kept s₀ (idleTick x0) := by
  unfold idleTick
  repeat' (first | with_reducible assumption | with_reducible apply advance_kept)

theorem State.drawBytes_kept {s₀ : State} (x0 : State) (x1 : Nat) (h : Kept s₀ x0) : Kept s₀ (State.drawBytes x0 x1).1 := Kept.upd h

theorem State.drawBool_kept {s₀ : State} (x0 : State) (h : Kept s₀ x0) : Kept s₀ (State.drawBool x0).1 := Kept.upd h

theorem State.pagesErr_kept {s₀ : State} (x0 : State) (x1 : Requester) (x2 : Nat) (x3 : Bool) (h : Kept s₀ x0) : Kept s₀ (State.pagesErr x0 x1 x2 x3) := by
  unfold State.pagesErr
  repeat' (first | with_reducible assumption | with_reducible apply State.errAcc_kept | with_reducible apply State.errSys_kept | with_reducible exact Kept.upd (by with_reducible assumption) | with_reducible apply ite_kept)

theorem State.mcLog_kept {s₀ : State} (x0 : State) (x1 : Nat) (x2 : Nat) (x3 : Nat) (x4 : Nat) (x5 : Nat) (x6 : Nat) (h : Kept s₀ x0) : Kept s₀ (State.mcLog x0 x1 x2 x3 x4 x5 x6) := by
  unfold State.mcLog
  repeat' (first | with_reducible assumption | (intro _) | with_reducible apply State.raise_kept | with_reducible apply State.satReg_kept | with_reducible apply State.setRn_kept | with_reducible apply State.setReg_kept | with_reducible apply ite_kept | with_reducible apply foldl_kept | with_reducible apply iterate_kept | with_reducible exact Kept.upd (by with_reducible assumption) | (extract_lets +onlyGivenNames x; refine Kept.cut (s₀ := s₀) x ?_ ?_; unfold x; clear x; rotate_left; intro hx; clear_value x; rotate_right) | (extract_lets +onlyGivenNames x; clear_value x))

theorem State.memRefuse_kept {s₀ : State} (x0 : State) (x1 : MemRefusal) (x2 : Nat) (x3 : Nat) (x4 : Bool) (x5 : Bool) (x6 : Bool) (x7 : Nat) (h : Kept s₀ x0) : Kept s₀ (State.memRefuse x0 x1 x2 x3 x4 x5 x6 x7) := by
  unfold State.memRefuse
  repeat' (first | with_reducible assumption | (intro _) | with_reducible apply State.pagesErr_kept | with_reducible apply State.setErr_kept | with_reducible apply State.raise_kept | with_reducible apply State.mcLog_kept | with_reducible apply ite_kept | with_reducible apply foldl_kept | with_reducible refine Kept.fst (by with_reducible assumption) ?_ | (extract_lets +onlyGivenNames x; refine Kept.cut (s₀ := s₀) x ?_ ?_; unfold x; clear x; rotate_left; intro hx; clear_value x; rotate_right) | (extract_lets +onlyGivenNames x; clear_value x) | split | with_reducible exact Kept.upd (by with_reducible assumption))

theorem State.cellFault_kept {s₀ : State} (x0 : State) (x1 : Nat) (h : Kept s₀ x0) : Kept s₀ (State.cellFault x0 x1) := by
  unfold State.cellFault
  dsimp only
  exact ite_kept h (Kept.upd (State.drawNat_kept x0 16 h))

theorem State.lineFinds_kept {s₀ : State} (x0 : State) (x1 : Nat) (x2 : Resp) (h : Kept s₀ x0) : Kept s₀ (State.lineFinds x0 x1 x2) := by
  unfold State.lineFinds
  split
  · exact State.cellFault_kept _ _ h
  · dsimp only
    exact ite_kept h (Kept.upd (State.drawNat_kept x0 16 h))
  · exact h

theorem State.poisonLines_kept {s₀ : State} (x0 : State) (x1 : Nat) (x2 : Nat) (h : Kept s₀ x0) : Kept s₀ (State.poisonLines x0 x1 x2) := by
  refine ⟨h.1, h.2.1, fun hw => ?_⟩
  exact foldl_putBytes_wf _ _ _ (h.2.2 hw)

theorem State.tagFinds_kept {s₀ : State} (x0 : State) (h : Kept s₀ x0) : Kept s₀ (State.tagFinds x0).1 := Kept.upd h

theorem State.writeData_kept {s₀ : State} (x0 : State) (x1 : Nat) (x2 : List Byte) (h : Kept s₀ x0) : Kept s₀ (State.writeData x0 x1 x2) := by
  refine ⟨h.1, h.2.1, fun hw => ?_⟩
  exact putBytes_wf _ _ _ (h.2.2 hw)

theorem State.mergeReads_kept {s₀ : State} (x0 : State) (x1 : Nat) (x2 : Nat) (h : Kept s₀ x0) : Kept s₀ (State.mergeReads x0 x1 x2) := by
  unfold State.mergeReads
  repeat' (first | with_reducible assumption | (intro _) | with_reducible apply State.poisonLines_kept | with_reducible apply ite_kept | with_reducible apply foldl_kept | with_reducible apply iterate_kept | with_reducible exact Kept.upd (by with_reducible assumption) | (extract_lets +onlyGivenNames x; refine Kept.cut (s₀ := s₀) x ?_ ?_; unfold x; clear x; rotate_left; intro hx; clear_value x; rotate_right) | (extract_lets +onlyGivenNames x; clear_value x))

theorem State.applyWrite_kept {s₀ : State} (x0 : State) (x1 : Queued) (h : Kept s₀ x0) : Kept s₀ (State.applyWrite x0 x1) := by
  unfold State.applyWrite
  dsimp only
  refine ite_kept (State.poisonLines_kept _ _ _ h) (ite_kept ?_ (State.writeData_kept _ _ _ h))
  have hw := State.writeData_kept _ x1.req.addr.toNat (x0.mergedData x1)
    (State.mergeReads_kept _ x1.req.addr.toNat (x0.mergedData x1).length (State.tagFinds_kept _ h))
  split
  · exact hw
  · exact Kept.upd (State.mcLog_kept _ _ _ _ _ _ _ hw)

theorem State.untilReady_kept {s₀ : State} (x0 : State) (x1 : List Queued) (h : Kept s₀ x0) : Kept s₀ (State.untilReady x0 x1) := by
  unfold State.untilReady
  repeat' (first | with_reducible assumption | (intro _) | with_reducible apply advance_kept | with_reducible apply ite_kept | with_reducible apply foldl_kept | with_reducible refine Kept.fst (by with_reducible assumption) ?_ | (extract_lets +onlyGivenNames x; refine Kept.cut (s₀ := s₀) x ?_ ?_; unfold x; clear x; rotate_left; intro hx; clear_value x; rotate_right) | (extract_lets +onlyGivenNames x; clear_value x) | split | with_reducible exact Kept.upd (by with_reducible assumption))

theorem State.serve_kept {s₀ : State} (x0 : State) (x1 : Nat) (x2 : Bool) (h : Kept s₀ x0) : Kept s₀ (State.serve x0 x1 x2).1 := by
  unfold State.serve
  repeat' (first | with_reducible assumption | (intro _) | with_reducible apply State.untilReady_kept | with_reducible apply ite_kept | with_reducible apply foldl_kept | with_reducible refine Kept.fst (by with_reducible assumption) ?_ | (extract_lets +onlyGivenNames x; refine Kept.cut (s₀ := s₀) x ?_ ?_; unfold x; clear x; rotate_left; intro hx; clear_value x; rotate_right) | (extract_lets +onlyGivenNames x; clear_value x) | split | with_reducible exact Kept.upd (by with_reducible assumption))

theorem State.uncorrected_kept {s₀ : State} (x0 : State) (x1 : Nat) (x2 : Nat) (x3 : Nat) (x4 : Nat) (x5 : Nat) (x6 : Nat) (h : Kept s₀ x0) : Kept s₀ (State.uncorrected x0 x1 x2 x3 x4 x5 x6) := by
  unfold State.uncorrected
  repeat' (first | with_reducible assumption | with_reducible apply State.raise_kept | with_reducible apply State.mcLog_kept | with_reducible apply State.satReg_kept)

theorem State.secOwnWrite_kept {s₀ : State} (x0 : State) (x1 : Nat) (x2 : List Byte) (h : Kept s₀ x0) : Kept s₀ (State.secOwnWrite x0 x1 x2) := by
  unfold State.secOwnWrite
  repeat' (first | with_reducible assumption | with_reducible exact Kept.upd (by with_reducible assumption) | with_reducible apply ite_kept)

theorem State.l2Clean_kept {s₀ : State} (x0 : State) (x1 : MemReq) (h : Kept s₀ x0) : Kept s₀ (State.l2Clean x0 x1).1 := by
  unfold State.l2Clean
  repeat' (first | with_reducible assumption | (intro _) | with_reducible apply ite_kept | with_reducible apply foldl_kept | with_reducible refine Kept.fst (by with_reducible assumption) ?_ | (extract_lets +onlyGivenNames x; refine Kept.cut (s₀ := s₀) x ?_ ?_; unfold x; clear x; rotate_left; intro hx; clear_value x; rotate_right) | (extract_lets +onlyGivenNames x; clear_value x) | split | with_reducible exact Kept.upd (by with_reducible assumption))

theorem State.setMeter_kept {s₀ : State} (x0 : State) (x1 : Nat) (x2 : Meters) (h : Kept s₀ x0) : Kept s₀ (State.setMeter x0 x1 x2) := Kept.upd h

theorem State.spend_kept {s₀ : State} (x0 : State) (x1 : Nat) (x2 : Nat) (h : Kept s₀ x0) : Kept s₀ (State.spend x0 x1 x2) := Kept.upd h

theorem State.passLines_kept {s₀ s t : State} {cl : Nat} {ls : List Nat} (e : s.passLines cl ls = some t)
    (h : Kept s₀ s) : Kept s₀ t := by
  induction ls generalizing s with
  | nil => exact Option.some.inj e ▸ h
  | cons l ls ih =>
    unfold State.passLines at e
    split at e
    · exact ih e (State.spend_kept _ _ _ h)
    · cases e

theorem State.passKeys_kept {s₀ s t : State} {n : Nat} {ls : List Nat} (e : s.passKeys n ls = some t)
    (h : Kept s₀ s) : Kept s₀ t := State.passLines_kept e h

theorem State.enqueue_kept {s₀ : State} (x0 : State) (x1 : MemReq) (x2 : Option Owner) (h : Kept s₀ x0) : Kept s₀ (State.enqueue x0 x1 x2) := by
  unfold State.enqueue
  repeat' (first | with_reducible assumption | with_reducible apply State.spend_kept | with_reducible apply ite_kept | with_reducible exact Kept.upd (by with_reducible assumption) | (extract_lets +onlyGivenNames x; refine Kept.cut (s₀ := s₀) x ?_ ?_; unfold x; clear x; rotate_left; intro hx; clear_value x; rotate_right) | (extract_lets +onlyGivenNames x; clear_value x))

theorem State.request_kept {s₀ : State} (x0 : State) (x1 : MemReq) (x2 : Option Owner) (h : Kept s₀ x0) : Kept s₀ (State.request x0 x1 x2) := by
  unfold State.request
  repeat' (first | with_reducible assumption | with_reducible apply State.enqueue_kept | with_reducible exact Kept.upd (by with_reducible assumption) | with_reducible apply ite_kept)

theorem memRequestIssue_kept {s₀ : State} (x0 : MemReq) (x1 : State) (h : Kept s₀ x1) : Kept s₀ (memRequestIssue x0 x1) := by
  unfold memRequestIssue
  repeat' (first | with_reducible assumption | (intro _) | with_reducible apply State.errorRsp_kept | with_reducible apply State.pagesErr_kept | with_reducible apply State.ok_kept | with_reducible apply State.secOwnWrite_kept | with_reducible apply State.okData_kept | with_reducible apply State.l2Clean_kept | with_reducible apply State.request_kept | with_reducible apply State.memRefuse_kept | with_reducible apply ite_kept | with_reducible apply foldl_kept | with_reducible refine Kept.fst (by with_reducible assumption) ?_ | (extract_lets +onlyGivenNames x; refine Kept.cut (s₀ := s₀) x ?_ ?_; unfold x; clear x; rotate_left; intro hx; clear_value x; rotate_right) | (extract_lets +onlyGivenNames x; clear_value x) | split | with_reducible exact Kept.upd (by with_reducible assumption))

theorem State.corrected_kept {s₀ : State} (x0 : State) (x1 : Nat) (x2 : Nat) (x3 : Nat) (x4 : Nat) (x5 : Nat) (h : Kept s₀ x0) : Kept s₀ (State.corrected x0 x1 x2 x3 x4 x5) := by
  unfold State.corrected
  repeat' (first | with_reducible assumption | with_reducible apply State.satReg_kept | with_reducible apply State.mcLog_kept | with_reducible apply State.raise_kept | with_reducible apply ite_kept | with_reducible exact Kept.upd (by with_reducible assumption) | (extract_lets +onlyGivenNames x; refine Kept.cut (s₀ := s₀) x ?_ ?_; unfold x; clear x; rotate_left; intro hx; clear_value x; rotate_right) | (extract_lets +onlyGivenNames x; clear_value x))

theorem State.writePieces_kept {s₀ : State} (x0 : State) (x1 : Nat) (x2 : List (Nat × Nat)) (x3 : List Byte) (h : Kept s₀ x0) : Kept s₀ (State.writePieces x0 x1 x2 x3) := by
  induction x2 generalizing x0 x3 with
  | nil => exact h
  | cons p l ih =>
    unfold State.writePieces
    refine ih _ _ ?_
    split
    · exact State.memRefuse_kept _ _ _ _ _ _ _ _ h
    · exact State.writeData_kept _ _ _ h

theorem State.writeVia_kept {s₀ : State} (x0 : State) (x1 : Nat) (x2 : Nat) (x3 : List Byte) (h : Kept s₀ x0) : Kept s₀ (State.writeVia x0 x1 x2 x3) := by
  unfold State.writeVia
  repeat' (first | with_reducible assumption | (intro _) | with_reducible apply State.secOwnWrite_kept | with_reducible apply State.writePieces_kept | with_reducible apply State.writeData_kept | with_reducible apply ite_kept | with_reducible apply foldl_kept | with_reducible refine Kept.fst (by with_reducible assumption) ?_ | (extract_lets +onlyGivenNames x; refine Kept.cut (s₀ := s₀) x ?_ ?_; unfold x; clear x; rotate_left; intro hx; clear_value x; rotate_right) | (extract_lets +onlyGivenNames x; clear_value x) | split | with_reducible exact Kept.upd (by with_reducible assumption))

theorem State.putRecord_kept {s₀ : State} (x0 : State) (x1 : List Byte) (h : Kept s₀ x0) : Kept s₀ (State.putRecord x0 x1) := by
  unfold State.putRecord
  repeat' (first | with_reducible assumption | with_reducible apply State.raise_kept | with_reducible apply State.satReg_kept | with_reducible apply State.writeVia_kept | with_reducible apply State.setRn_kept | with_reducible apply ite_kept | with_reducible exact Kept.upd (by with_reducible assumption) | (extract_lets +onlyGivenNames x; refine Kept.cut (s₀ := s₀) x ?_ ?_; unfold x; clear x; rotate_left; intro hx; clear_value x; rotate_right) | (extract_lets +onlyGivenNames x; clear_value x))

theorem State.absorbed_kept {s₀ : State} (x0 : State) (x1 : Nat) (x2 : Nat) (x3 : Nat) (x4 : Nat) (x5 : Nat) (h : Kept s₀ x0) : Kept s₀ (State.absorbed x0 x1 x2 x3 x4 x5) := by
  unfold State.absorbed
  repeat' (first | with_reducible assumption | with_reducible apply State.putRecord_kept)

theorem meterRefill_kept {s₀ : State} (x0 : Fin 8) (x1 : State) (h : Kept s₀ x1) : Kept s₀ (meterRefill x0 x1) := by
  unfold meterRefill
  repeat' (first | with_reducible assumption | (intro _) | with_reducible apply advance_kept | with_reducible apply State.setMeter_kept | with_reducible apply State.enqueue_kept | with_reducible apply ite_kept | with_reducible apply ite_fst_kept | with_reducible apply foldl_kept | with_reducible apply foldl_fst_kept | with_reducible apply iterate_kept | with_reducible refine Kept.fst (by with_reducible assumption) ?_ | with_reducible refine State.takeMsg_kept (by with_reducible assumption) ?_ | (extract_lets +onlyGivenNames x; refine Kept.cut (s₀ := s₀) x ?_ ?_; unfold x; clear x; rotate_left; intro hx; clear_value x; rotate_right) | (extract_lets +onlyGivenNames x; refine Kept.cutF (s₀ := s₀) x ?_ ?_; unfold x; clear x; rotate_left; intro hxf; clear_value x; rotate_right) | with_reducible apply hxf | (extract_lets +onlyGivenNames x; clear_value x) | split | with_reducible exact Kept.upd (by with_reducible assumption) | (with_reducible refine Kept.upd ?_; first | with_reducible apply advance_kept | with_reducible apply State.setMeter_kept | with_reducible apply State.enqueue_kept | with_reducible apply ite_kept | with_reducible apply foldl_kept | with_reducible apply iterate_kept) | dsimp only)

theorem State.fillDone_kept {s₀ : State} (x0 : State) (x1 : Nat) (x2 : Nat) (h : Kept s₀ x0) : Kept s₀ (State.fillDone x0 x1 x2) := by
  unfold State.fillDone
  exact ite_kept ⟨h.1, h.2.1, fun hw => filter_wf _ _ (h.2.2 hw)⟩ h

theorem zeroFillDone_kept {s₀ : State} (x0 : Fin 64) (x1 : State) (h : Kept s₀ x1) : Kept s₀ (zeroFillDone x0 x1) := by
  unfold zeroFillDone
  exact foldl_kept _ _ _ (fun s m hs => State.fillDone_kept _ _ _ hs) h

theorem State.setMcStatus_kept {s₀ : State} (x0 : State) (x1 : Nat) (x2 : Nat) (x3 : Bool) (x4 : Bool) (h : Kept s₀ x0) : Kept s₀ (State.setMcStatus x0 x1 x2 x3 x4) := Kept.upd h

theorem State.bandLoaded_kept {s₀ : State} (x0 : State) (x1 : Nat) (x2 : Nat) (h : Kept s₀ x0) : Kept s₀ (State.bandLoaded x0 x1 x2) := Kept.upd h

theorem State.dlyJudge_kept {s₀ : State} (x0 : State) (x1 : Nat) (h : Kept s₀ x0) : Kept s₀ (State.dlyJudge x0 x1) := by
  unfold State.dlyJudge
  repeat' (first | with_reducible assumption | (intro _) | with_reducible apply State.bandLoaded_kept | with_reducible apply ite_kept | with_reducible apply foldl_kept | with_reducible refine Kept.fst (by with_reducible assumption) ?_ | (extract_lets +onlyGivenNames x; refine Kept.cut (s₀ := s₀) x ?_ ?_; unfold x; clear x; rotate_left; intro hx; clear_value x; rotate_right) | (extract_lets +onlyGivenNames x; clear_value x) | split | with_reducible exact Kept.upd (by with_reducible assumption))

theorem State.drainRecords_kept {s₀ : State} (x0 : State) (h : Kept s₀ x0) : Kept s₀ (State.drainRecords x0) := by
  unfold State.drainRecords
  repeat' (first | with_reducible assumption | (intro _) | with_reducible apply State.raise_kept | with_reducible apply State.satReg_kept | with_reducible apply State.setRn_kept | with_reducible apply State.writeVia_kept | with_reducible apply ite_kept | with_reducible apply foldl_kept | with_reducible apply iterate_kept | with_reducible exact Kept.upd (by with_reducible assumption) | (extract_lets +onlyGivenNames x; refine Kept.cut (s₀ := s₀) x ?_ ?_; unfold x; clear x; rotate_left; intro hx; clear_value x; rotate_right) | (extract_lets +onlyGivenNames x; clear_value x))

theorem State.eccFinds_kept {s₀ : State} (x0 : State) (x1 : Nat) (x2 : Ecc) (x3 : BitVec 16) (h : Kept s₀ x0) : Kept s₀ (State.eccFinds x0 x1 x2 x3) := by
  unfold State.eccFinds
  repeat' (first | with_reducible assumption | (intro _) | with_reducible apply ite_kept | with_reducible apply foldl_kept | with_reducible refine Kept.fst (by with_reducible assumption) ?_ | (extract_lets +onlyGivenNames x; refine Kept.cut (s₀ := s₀) x ?_ ?_; unfold x; clear x; rotate_left; intro hx; clear_value x; rotate_right) | (extract_lets +onlyGivenNames x; clear_value x) | split | with_reducible exact Kept.upd (by with_reducible assumption))

theorem dramTempRead_kept {s₀ : State} (x0 : Fin 8) (x1 : Byte) (x2 : State) (h : Kept s₀ x2) : Kept s₀ (dramTempRead x0 x1 x2) := by
  unfold dramTempRead
  repeat' (first | with_reducible assumption | with_reducible apply State.setMcStatus_kept | with_reducible apply State.setRn_kept | with_reducible apply State.raise_kept | with_reducible exact Kept.upd (by with_reducible assumption) | with_reducible apply ite_kept)

theorem memWrite_kept {s₀ : State} (x0 : Fin 64) (x1 : State) (h : Kept s₀ x1) : Kept s₀ (memWrite x0 x1) := by
  unfold memWrite
  repeat' (first | with_reducible assumption | (intro _) | with_reducible apply State.serve_kept | with_reducible apply State.errorRsp_kept | with_reducible apply State.memRefuse_kept | with_reducible apply State.ok_kept | with_reducible apply State.applyWrite_kept | with_reducible apply ite_kept | with_reducible apply foldl_kept | with_reducible refine Kept.fst (by with_reducible assumption) ?_ | (extract_lets +onlyGivenNames x; refine Kept.cut (s₀ := s₀) x ?_ ?_; unfold x; clear x; rotate_left; intro hx; clear_value x; rotate_right) | (extract_lets +onlyGivenNames x; clear_value x) | split | with_reducible exact Kept.upd (by with_reducible assumption))

theorem State.lineNote_kept {s₀ : State} (x0 : State) (x1 : Nat) (x2 : Nat) (x3 : Nat) (h : Kept s₀ x0) : Kept s₀ (State.lineNote x0 x1 x2 x3) := by
  unfold State.lineNote
  repeat' (first | with_reducible assumption | (intro _) | with_reducible apply State.mcLog_kept | with_reducible apply State.uncorrected_kept | with_reducible apply State.corrected_kept | with_reducible apply ite_kept | with_reducible apply foldl_kept | with_reducible refine Kept.fst (by with_reducible assumption) ?_ | (extract_lets +onlyGivenNames x; refine Kept.cut (s₀ := s₀) x ?_ ?_; unfold x; clear x; rotate_left; intro hx; clear_value x; rotate_right) | (extract_lets +onlyGivenNames x; clear_value x) | split | with_reducible exact Kept.upd (by with_reducible assumption))

theorem State.readNote_kept {s₀ : State} (x0 : State) (x1 : Nat) (x2 : Nat) (x3 : Nat) (x4 : Bool) (x5 : Bool) (h : Kept s₀ x0) : Kept s₀ (State.readNote x0 x1 x2 x3 x4 x5) := by
  unfold State.readNote
  repeat' (first | with_reducible assumption | (intro _) | with_reducible apply State.lineNote_kept | with_reducible apply ite_kept | with_reducible apply foldl_kept | with_reducible apply iterate_kept | with_reducible exact Kept.upd (by with_reducible assumption) | (extract_lets +onlyGivenNames x; refine Kept.cut (s₀ := s₀) x ?_ ?_; unfold x; clear x; rotate_left; intro hx; clear_value x; rotate_right) | (extract_lets +onlyGivenNames x; clear_value x))

theorem State.readPieces_kept {s₀ : State} (x0 : State) (x1 : Nat) (x2 : List (Nat × Nat)) (h : Kept s₀ x0) : Kept s₀ (State.readPieces x0 x1 x2).1 := by
  induction x2 generalizing x0 with
  | nil => exact h
  | cons p l ih =>
    unfold State.readPieces
    split
    · exact ih _ (State.memRefuse_kept _ _ _ _ _ _ _ _ h)
    · exact ih _ (State.readNote_kept _ _ _ _ _ _ h)

theorem State.readVia_kept {s₀ : State} (x0 : State) (x1 : Nat) (x2 : Nat) (x3 : Nat) (h : Kept s₀ x0) : Kept s₀ (State.readVia x0 x1 x2 x3).1 := by
  unfold State.readVia
  repeat' (first | with_reducible assumption | (intro _) | with_reducible apply State.readPieces_kept | with_reducible apply State.readNote_kept | with_reducible apply ite_kept | with_reducible apply foldl_kept | with_reducible refine Kept.fst (by with_reducible assumption) ?_ | (extract_lets +onlyGivenNames x; refine Kept.cut (s₀ := s₀) x ?_ ?_; unfold x; clear x; rotate_left; intro hx; clear_value x; rotate_right) | (extract_lets +onlyGivenNames x; clear_value x) | split | with_reducible exact Kept.upd (by with_reducible assumption))

theorem cmdParityError_kept {s₀ : State} (x0 : Fin 64) (x1 : Nat) (x2 : State) (h : Kept s₀ x2) : Kept s₀ (cmdParityError x0 x1 x2) := by
  unfold cmdParityError
  repeat' (first | with_reducible assumption | (intro _) | with_reducible apply State.errorRsp_kept | with_reducible apply State.memRefuse_kept | with_reducible apply State.uncorrected_kept | with_reducible apply State.poisonLines_kept | with_reducible apply ite_kept | with_reducible apply foldl_kept | with_reducible refine Kept.fst (by with_reducible assumption) ?_ | (extract_lets +onlyGivenNames x; refine Kept.cut (s₀ := s₀) x ?_ ?_; unfold x; clear x; rotate_left; intro hx; clear_value x; rotate_right) | (extract_lets +onlyGivenNames x; clear_value x) | split | with_reducible exact Kept.upd (by with_reducible assumption))

theorem State.dramUe_kept {s₀ : State} (x0 : State) (x1 : Nat) (x2 : Nat) (h : Kept s₀ x0) : Kept s₀ (State.dramUe x0 x1 x2) := by
  unfold State.dramUe
  repeat' (first | with_reducible assumption | with_reducible apply State.absorbed_kept)

theorem State.apuPoison_kept {s₀ : State} (x0 : State) (x1 : Nat) (x2 : Nat) (h : Kept s₀ x0) : Kept s₀ (State.apuPoison x0 x1 x2) := by
  unfold State.apuPoison
  repeat' (first | with_reducible assumption | with_reducible apply State.dramUe_kept | with_reducible exact Kept.upd (by with_reducible assumption) | with_reducible apply ite_kept)

theorem State.startFill_kept {s₀ : State} (x0 : State) (x1 : Nat) (h : Kept s₀ x0) : Kept s₀ (State.startFill x0 x1) := by
  unfold State.startFill
  repeat' (first | with_reducible assumption | (intro _) | with_reducible apply ite_kept | with_reducible apply foldl_kept | with_reducible apply iterate_kept | with_reducible exact Kept.upd (by with_reducible assumption) | (extract_lets +onlyGivenNames x; refine Kept.cut (s₀ := s₀) x ?_ ?_; unfold x; clear x; rotate_left; intro hx; clear_value x; rotate_right) | (extract_lets +onlyGivenNames x; clear_value x))

theorem refresh_kept {s₀ : State} (x0 : Fin 64) (x1 : State) (h : Kept s₀ x1) : Kept s₀ (refresh x0 x1) := by
  unfold refresh
  repeat' (first | with_reducible assumption | with_reducible exact Kept.upd (by with_reducible assumption) | with_reducible apply ite_kept)

theorem memReadComplete_kept {s₀ : State} (x0 : Fin 64) (x1 : Ecc) (x2 : BitVec 16) (x3 : State) (h : Kept s₀ x3) : Kept s₀ (memReadComplete x0 x1 x2 x3) := by
  unfold memReadComplete
  repeat' (first | with_reducible assumption | (intro _) | with_reducible apply State.serve_kept | with_reducible apply State.errorRsp_kept | with_reducible apply State.memRefuse_kept | with_reducible apply State.eccFinds_kept | with_reducible apply State.lineNote_kept | with_reducible apply State.apuPoison_kept | with_reducible apply State.okData_kept | with_reducible apply ite_kept | with_reducible apply foldl_kept | with_reducible refine Kept.fst (by with_reducible assumption) ?_ | (extract_lets +onlyGivenNames x; refine Kept.cut (s₀ := s₀) x ?_ ?_; unfold x; clear x; rotate_left; intro hx; clear_value x; rotate_right) | (extract_lets +onlyGivenNames x; clear_value x) | split | with_reducible exact Kept.upd (by with_reducible assumption))

theorem State.setHealth_kept {s₀ : State} (x0 : State) (x1 : Nat) (x2 : Health) (h : Kept s₀ x0) : Kept s₀ (State.setHealth x0 x1 x2) := Kept.upd h

theorem State.setHealthSt_kept {s₀ : State} (x0 : State) (x1 : Nat) (x2 : Nat) (h : Kept s₀ x0) : Kept s₀ (State.setHealthSt x0 x1 x2) := by
  unfold State.setHealthSt
  repeat' (first | with_reducible assumption | (intro _) | with_reducible apply State.setHealth_kept | with_reducible apply State.raise_kept | with_reducible apply ite_kept | with_reducible apply ite_fst_kept | with_reducible apply foldl_kept | with_reducible apply foldl_fst_kept | with_reducible apply iterate_kept | with_reducible refine Kept.fst (by with_reducible assumption) ?_ | with_reducible refine State.takeMsg_kept (by with_reducible assumption) ?_ | (extract_lets +onlyGivenNames x; refine Kept.cut (s₀ := s₀) x ?_ ?_; unfold x; clear x; rotate_left; intro hx; clear_value x; rotate_right) | (extract_lets +onlyGivenNames x; refine Kept.cutF (s₀ := s₀) x ?_ ?_; unfold x; clear x; rotate_left; intro hxf; clear_value x; rotate_right) | with_reducible apply hxf | (extract_lets +onlyGivenNames x; clear_value x) | split | with_reducible exact Kept.upd (by with_reducible assumption) | (with_reducible refine Kept.upd ?_; first | with_reducible apply State.setHealth_kept | with_reducible apply State.raise_kept | with_reducible apply ite_kept | with_reducible apply foldl_kept | with_reducible apply iterate_kept) | dsimp only)

theorem State.setCore_kept {s₀ : State} (x0 : State) (x1 : Nat) (x2 : Core) (h : Kept s₀ x0) : Kept s₀ (State.setCore x0 x1 x2) := Kept.upd h

theorem State.chargeUnit_kept {s₀ : State} (x0 : State) (x1 : Nat) (h : Kept s₀ x0) : Kept s₀ (State.chargeUnit x0 x1) := by
  unfold State.chargeUnit
  repeat' (first | with_reducible assumption | with_reducible apply State.setHealth_kept | with_reducible apply State.setCore_kept | with_reducible apply State.setHealthSt_kept | with_reducible exact Kept.upd (by with_reducible assumption) | with_reducible apply ite_kept)

theorem State.detect_kept {s₀ : State} (x0 : State) (x1 : Nat) (x2 : Nat) (x3 : Nat) (x4 : Nat) (x5 : Nat) (x6 : Option Nat) (x7 : BitVec 16) (x8 : Nat) (x9 : Option Nat) (x10 : Nat) (h : Kept s₀ x0) : Kept s₀ (State.detect x0 x1 x2 x3 x4 x5 x6 x7 x8 x9 x10) := by
  unfold State.detect
  repeat' (first | with_reducible assumption | with_reducible apply State.putRecord_kept | with_reducible apply State.chargeUnit_kept | with_reducible apply ite_kept | with_reducible exact Kept.upd (by with_reducible assumption) | (extract_lets +onlyGivenNames x; refine Kept.cut (s₀ := s₀) x ?_ ?_; unfold x; clear x; rotate_left; intro hx; clear_value x; rotate_right) | (extract_lets +onlyGivenNames x; clear_value x))

theorem State.coreFault_kept {s₀ : State} (x0 : State) (x1 : Nat) (x2 : Nat) (x3 : Nat) (x4 : Nat) (x5 : Nat) (x6 : Nat) (x7 : Nat) (x8 : Nat) (h : Kept s₀ x0) : Kept s₀ (State.coreFault x0 x1 x2 x3 x4 x5 x6 x7 x8) := by
  unfold State.coreFault
  repeat' (first | with_reducible assumption | with_reducible apply State.setCore_kept | with_reducible apply State.raise_kept | with_reducible apply State.setRn_kept | with_reducible apply State.putRecord_kept | with_reducible apply State.detect_kept | with_reducible exact Kept.upd (by with_reducible assumption) | with_reducible apply ite_kept)

theorem State.lineCheckFault_kept {s₀ : State} (x0 : State) (x1 : Nat) (h : Kept s₀ x0) : Kept s₀ (State.lineCheckFault x0 x1) := by
  unfold State.lineCheckFault
  repeat' (first | with_reducible assumption | with_reducible apply State.coreFault_kept)

theorem State.storeLine_kept {s₀ : State} (x0 : State) (x1 : Owner) (x2 : Nat) (x3 : List Byte) (x4 : Bool) (h : Kept s₀ x0) : Kept s₀ (State.storeLine x0 x1 x2 x3 x4) := by
  unfold State.storeLine
  repeat' (first | with_reducible assumption | with_reducible apply State.request_kept)

theorem State.setCluster_kept {s₀ : State} (x0 : State) (x1 : Nat) (x2 : Cluster) (h : Kept s₀ x0) : Kept s₀ (State.setCluster x0 x1 x2) := Kept.upd h

theorem State.modCluster_kept {s₀ : State} (x0 : State) (x1 : Nat) (x2 : Cluster → Cluster) (h : Kept s₀ x0) : Kept s₀ (State.modCluster x0 x1 x2) := Kept.upd h

theorem State.keyWrite_kept {s₀ : State} (x0 : State) (x1 : Owner) (x2 : Nat) (x3 : List Byte) (x4 : Bool) (h : Kept s₀ x0) : Kept s₀ (State.keyWrite x0 x1 x2 x3 x4) := by
  unfold State.keyWrite
  repeat' (first | with_reducible assumption | (intro _) | with_reducible apply State.storeLine_kept | with_reducible apply State.modCluster_kept | with_reducible apply ite_kept | with_reducible apply foldl_kept | with_reducible apply iterate_kept | with_reducible exact Kept.upd (by with_reducible assumption) | (extract_lets +onlyGivenNames x; refine Kept.cut (s₀ := s₀) x ?_ ?_; unfold x; clear x; rotate_left; intro hx; clear_value x; rotate_right) | (extract_lets +onlyGivenNames x; clear_value x))

theorem State.areaFinds_kept {s₀ : State} (x0 : State) (x1 : Nat) (x2 : Nat) (x3 : Resp) (h : Kept s₀ x0) : Kept s₀ (State.areaFinds x0 x1 x2 x3) := by
  unfold State.areaFinds
  repeat' (first | with_reducible assumption | with_reducible apply State.drawNat_kept | with_reducible apply State.lineFinds_kept | with_reducible exact Kept.upd (by with_reducible assumption) | with_reducible apply ite_kept)

theorem State.poisonFault_kept {s₀ : State} (x0 : State) (x1 : Nat) (x2 : PInfo) (h : Kept s₀ x0) : Kept s₀ (State.poisonFault x0 x1 x2) := by
  unfold State.poisonFault
  repeat' (first | with_reducible assumption | with_reducible apply State.coreFault_kept)

theorem State.modCore_kept {s₀ : State} (x0 : State) (x1 : Nat) (x2 : Core → Core) (h : Kept s₀ x0) : Kept s₀ (State.modCore x0 x1 x2) := Kept.upd h

theorem State.xlateFault_kept {s₀ : State} (x0 : State) (x1 : Nat) (h : Kept s₀ x0) : Kept s₀ (State.xlateFault x0 x1) := by
  unfold State.xlateFault
  repeat' (first | with_reducible assumption | with_reducible apply State.coreFault_kept)

theorem State.readSpad_kept {s₀ : State} (x0 : State) (x1 : Nat) (x2 : Nat) (x3 : Nat) (x4 : List Byte → State) (h : Kept s₀ x0) (k4 : ∀ (y0 : List Byte), Kept s₀ (x4 y0)) : Kept s₀ (State.readSpad x0 x1 x2 x3 x4) := by
  unfold State.readSpad
  repeat' (first | with_reducible assumption | (intro _) | with_reducible apply k4 | with_reducible apply State.lineCheckFault_kept | with_reducible apply State.poisonFault_kept | with_reducible apply ite_kept | with_reducible apply foldl_kept | with_reducible refine Kept.fst (by with_reducible assumption) ?_ | (extract_lets +onlyGivenNames x; refine Kept.cut (s₀ := s₀) x ?_ ?_; unfold x; clear x; rotate_left; intro hx; clear_value x; rotate_right) | (extract_lets +onlyGivenNames x; clear_value x) | split | with_reducible exact Kept.upd (by with_reducible assumption))

theorem State.setSlot_kept {s₀ : State} (x0 : State) (x1 : Nat) (x2 : PSlot) (h : Kept s₀ x0) : Kept s₀ (State.setSlot x0 x1 x2) := Kept.upd h

theorem State.lineResp_kept {s₀ : State} (x0 : State) (x1 : Nat) (x2 : Nat) (x3 : Resp) (h : Kept s₀ x0) : Kept s₀ (State.lineResp x0 x1 x2 x3).1 := by
  unfold State.lineResp
  repeat' (first | with_reducible assumption | (intro _) | with_reducible apply State.lineFinds_kept | with_reducible apply State.readVia_kept | with_reducible apply ite_kept | with_reducible apply foldl_kept | with_reducible refine Kept.fst (by with_reducible assumption) ?_ | (extract_lets +onlyGivenNames x; refine Kept.cut (s₀ := s₀) x ?_ ?_; unfold x; clear x; rotate_left; intro hx; clear_value x; rotate_right) | (extract_lets +onlyGivenNames x; clear_value x) | split | with_reducible exact Kept.upd (by with_reducible assumption))

theorem State.modJob_kept {s₀ : State} (x0 : State) (x1 : BitVec 16) (x2 : Job → Job) (h : Kept s₀ x0) : Kept s₀ (State.modJob x0 x1 x2) := Kept.upd h

theorem State.setJob_kept {s₀ : State} (x0 : State) (x1 : Job) (h : Kept s₀ x0) : Kept s₀ (State.setJob x0 x1) := Kept.upd h

theorem State.overrun_kept {s₀ : State} (x0 : State) (x1 : Nat) (h : Kept s₀ x0) : Kept s₀ (State.overrun x0 x1) := by
  unfold State.overrun
  repeat' (first | with_reducible assumption | with_reducible apply State.coreFault_kept)

theorem State.setWin_kept {s₀ : State} (x0 : State) (x1 : Nat) (x2 : Nat) (x3 : Nat) (x4 : List (Nat × Nat × Nat)) (h : Kept s₀ x0) : Kept s₀ (State.setWin x0 x1 x2 x3 x4) := Kept.upd h

theorem State.acct_kept {s₀ : State} (x0 : State) (x1 : Fin 256) (x2 : BitVec 16) (x3 : Nat) (h : Kept s₀ x0) : Kept s₀ (State.acct x0 x1 x2 x3) := by
  unfold State.acct
  repeat' (first | with_reducible assumption | with_reducible apply State.setWin_kept | with_reducible exact Kept.upd (by with_reducible assumption) | with_reducible apply ite_kept)

theorem State.setReel_kept {s₀ : State} (x0 : State) (x1 : Nat) (x2 : Reel) (h : Kept s₀ x0) : Kept s₀ (State.setReel x0 x1 x2) := Kept.upd h

theorem State.modReel_kept {s₀ : State} (x0 : State) (x1 : Nat) (x2 : Reel → Reel) (h : Kept s₀ x0) : Kept s₀ (State.modReel x0 x1 x2) := Kept.upd h

theorem State.popCmd_kept {s₀ : State} (x0 : State) (x1 : Nat) (h : Kept s₀ x0) : Kept s₀ (State.popCmd x0 x1) := Kept.upd h

theorem State.complete_kept {s₀ : State} (x0 : State) (x1 : Nat) (x2 : Nat) (x3 : Nat) (x4 : Nat) (x5 : BitVec 16) (x6 : Nat) (x7 : Nat) (x8 : List Byte) (h : Kept s₀ x0) : Kept s₀ (State.complete x0 x1 x2 x3 x4 x5 x6 x7 x8) := by
  unfold State.complete
  repeat' (first | with_reducible assumption | with_reducible apply State.writeVia_kept | with_reducible apply State.raise_kept | with_reducible apply State.modReel_kept)

theorem State.done_kept {s₀ : State} (x0 : State) (x1 : Cmd) (x2 : Nat) (x3 : Nat) (x4 : List Byte) (h : Kept s₀ x0) : Kept s₀ (State.done x0 x1 x2 x3 x4) := by
  unfold State.done
  repeat' (first | with_reducible assumption | with_reducible apply State.complete_kept | with_reducible apply State.acct_kept | with_reducible apply State.setRn_kept | with_reducible exact Kept.upd (by with_reducible assumption) | with_reducible apply ite_kept)

theorem State.refuse_kept {s₀ : State} (x0 : State) (x1 : Cmd) (x2 : Nat) (x3 : Nat) (h : Kept s₀ x0) : Kept s₀ (State.refuse x0 x1 x2 x3) := by
  unfold State.refuse
  repeat' (first | with_reducible assumption | with_reducible apply State.done_kept)

theorem State.takeCmd_kept {s₀ : State} (x0 : State) (x1 : Nat) (x2 : List Byte → Bool) (x3 : Cmd → State → State) (h : Kept s₀ x0) (k3 : ∀ (y0 : Cmd) (y1 : State), Kept s₀ y1 → Kept s₀ (x3 y0 y1)) : Kept s₀ (State.takeCmd x0 x1 x2 x3) := by
  unfold State.takeCmd
  repeat' (first | with_reducible assumption | (intro _) | with_reducible apply k3 | with_reducible apply State.readVia_kept | with_reducible apply State.popCmd_kept | with_reducible apply State.acct_kept | with_reducible apply State.refuse_kept | with_reducible apply ite_kept | with_reducible apply foldl_kept | with_reducible refine Kept.fst (by with_reducible assumption) ?_ | (extract_lets +onlyGivenNames x; refine Kept.cut (s₀ := s₀) x ?_ ?_; unfold x; clear x; rotate_left; intro hx; clear_value x; rotate_right) | (extract_lets +onlyGivenNames x; clear_value x) | split | with_reducible exact Kept.upd (by with_reducible assumption))

theorem State.unreserve_kept {s₀ : State} (x0 : State) (x1 : Nat) (h : Kept s₀ x0) : Kept s₀ (State.unreserve x0 x1) := Kept.upd h

theorem State.reelDrops_kept {s₀ : State} (x0 : State) (x1 : Nat) (x2 : Nat) (h : Kept s₀ x0) : Kept s₀ (State.reelDrops x0 x1 x2) := Kept.upd h

theorem State.detachReel_kept {s₀ : State} (x0 : State) (x1 : Nat) (h : Kept s₀ x0) : Kept s₀ (State.detachReel x0 x1) := Kept.upd h

theorem State.disableReel_kept {s₀ : State} (x0 : State) (x1 : Nat) (x2 : Nat) (h : Kept s₀ x0) : Kept s₀ (State.disableReel x0 x1 x2) := Kept.upd h

theorem State.pushCmd_kept {s₀ : State} (x0 : State) (x1 : Nat) (x2 : Fin 256) (x3 : BitVec 16) (x4 : List Byte) (h : Kept s₀ x0) : Kept s₀ (State.pushCmd x0 x1 x2 x3 x4) := by
  unfold State.pushCmd
  repeat' (first | with_reducible assumption | with_reducible apply State.writeVia_kept | with_reducible apply State.setReel_kept)

theorem poisonedCmd_kept {s₀ : State} (x0 : Nat) (x1 : State) (h : Kept s₀ x1) : Kept s₀ (poisonedCmd x0 x1) := by
  unfold poisonedCmd
  repeat' (first | with_reducible assumption | with_reducible apply State.readVia_kept | with_reducible apply State.popCmd_kept | with_reducible apply State.dramUe_kept | with_reducible apply State.complete_kept | with_reducible exact Kept.upd (by with_reducible assumption) | with_reducible apply ite_kept)

theorem State.enableReel_kept {s₀ : State} (x0 : State) (x1 : Nat) (h : Kept s₀ x0) : Kept s₀ (State.enableReel x0 x1) := Kept.upd h

theorem State.withJob_kept {s₀ : State} (x0 : State) (x1 : Cmd) (x2 : Job → State) (h : Kept s₀ x0) (k2 : ∀ (y0 : Job), Kept s₀ (x2 y0)) : Kept s₀ (State.withJob x0 x1 x2) := by
  unfold State.withJob
  repeat' (first | with_reducible assumption | (intro _) | with_reducible apply k2 | with_reducible apply State.refuse_kept | with_reducible apply ite_kept | with_reducible apply foldl_kept | with_reducible refine Kept.fst (by with_reducible assumption) ?_ | (extract_lets +onlyGivenNames x; refine Kept.cut (s₀ := s₀) x ?_ ?_; unfold x; clear x; rotate_left; intro hx; clear_value x; rotate_right) | (extract_lets +onlyGivenNames x; clear_value x) | split | with_reducible exact Kept.upd (by with_reducible assumption))

theorem State.submitWord_kept {s₀ : State} (x0 : State) (x1 : Nat) (x2 : Nat) (x3 : Word) (x4 : Requester) (h : Kept s₀ x0) : Kept s₀ (State.submitWord x0 x1 x2 x3 x4) := by
  unfold State.submitWord
  repeat' (first | with_reducible assumption | (intro _) | with_reducible apply State.setReel_kept | with_reducible apply State.pushCmd_kept | with_reducible apply State.reelDrops_kept | with_reducible apply ite_kept | with_reducible apply foldl_kept | with_reducible refine Kept.fst (by with_reducible assumption) ?_ | (extract_lets +onlyGivenNames x; refine Kept.cut (s₀ := s₀) x ?_ ?_; unfold x; clear x; rotate_left; intro hx; clear_value x; rotate_right) | (extract_lets +onlyGivenNames x; clear_value x) | split | with_reducible exact Kept.upd (by with_reducible assumption))

theorem State.putBlocks_kept {s₀ : State} (x0 : State) (x1 : Nat) (x2 : Nat) (x3 : Nat) (x4 : Nat) (x5 : Nat) (x6 : List Byte) (h : Kept s₀ x0) : Kept s₀ (State.putBlocks x0 x1 x2 x3 x4 x5 x6) := by
  induction x5 generalizing x0 x4 x6 with
  | zero => exact h
  | succ k ih =>
    unfold State.putBlocks
    exact ih _ _ _ (State.writeVia_kept _ _ _ _ h)

theorem State.tagRead_kept {s₀ : State} (x0 : State) (x1 : Nat) (x2 : Nat) (x3 : Nat) (h : Kept s₀ x0) : Kept s₀ (State.tagRead x0 x1 x2 x3).1 := by
  unfold State.tagRead
  repeat' (first | with_reducible assumption | (intro _) | with_reducible apply State.readVia_kept | with_reducible apply ite_kept | with_reducible apply foldl_kept | with_reducible refine Kept.fst (by with_reducible assumption) ?_ | (extract_lets +onlyGivenNames x; refine Kept.cut (s₀ := s₀) x ?_ ?_; unfold x; clear x; rotate_left; intro hx; clear_value x; rotate_right) | (extract_lets +onlyGivenNames x; clear_value x) | split | with_reducible exact Kept.upd (by with_reducible assumption))

theorem State.auCounts_kept {s₀ : State} (x0 : State) (x1 : Nat) (x2 : Nat) (h : Kept s₀ x0) : Kept s₀ (State.auCounts x0 x1 x2).1 := by
  unfold State.auCounts
  repeat' (first | with_reducible assumption | with_reducible apply State.readVia_kept)

theorem State.putAu_kept {s₀ : State} (x0 : State) (x1 : Nat) (x2 : Nat) (x3 : Nat) (x4 : Nat) (x5 : Nat) (x6 : List Byte) (x7 : List Byte) (h : Kept s₀ x0) : Kept s₀ (State.putAu x0 x1 x2 x3 x4 x5 x6 x7).1 := by
  unfold State.putAu
  repeat' (first | with_reducible assumption | (intro _) | with_reducible apply State.putBlocks_kept | with_reducible apply State.writeVia_kept | with_reducible apply ite_kept | with_reducible apply foldl_kept | with_reducible refine Kept.fst (by with_reducible assumption) ?_ | (extract_lets +onlyGivenNames x; refine Kept.cut (s₀ := s₀) x ?_ ?_; unfold x; clear x; rotate_left; intro hx; clear_value x; rotate_right) | (extract_lets +onlyGivenNames x; clear_value x) | split | with_reducible exact Kept.upd (by with_reducible assumption))

theorem State.tagFault_kept {s₀ : State} (x0 : State) (x1 : Nat) (x2 : Nat) (x3 : TagRd) (h : Kept s₀ x0) : Kept s₀ (State.tagFault x0 x1 x2 x3) := by
  unfold State.tagFault
  repeat' (first | with_reducible assumption | (intro _) | with_reducible apply State.dramUe_kept | with_reducible apply State.absorbed_kept | with_reducible apply ite_kept | with_reducible apply foldl_kept | with_reducible refine Kept.fst (by with_reducible assumption) ?_ | (extract_lets +onlyGivenNames x; refine Kept.cut (s₀ := s₀) x ?_ ?_; unfold x; clear x; rotate_left; intro hx; clear_value x; rotate_right) | (extract_lets +onlyGivenNames x; clear_value x) | split | with_reducible exact Kept.upd (by with_reducible assumption))

theorem State.getBlocks_kept {s₀ : State} (x0 : State) (x1 : Nat) (x2 : Nat) (x3 : Nat) (x4 : Nat) (x5 : Nat) (h : Kept s₀ x0) : Kept s₀ (State.getBlocks x0 x1 x2 x3 x4 x5).1 := by
  induction x5 generalizing x0 x4 with
  | zero => exact h
  | succ k ih =>
    unfold State.getBlocks
    exact ih _ _ (State.tagRead_kept _ _ _ _ h)

theorem State.setAxis_kept {s₀ : State} (x0 : State) (x1 : Nat) (x2 : Axis) (h : Kept s₀ x0) : Kept s₀ (State.setAxis x0 x1 x2) := Kept.upd h

theorem State.filterStep_kept {s₀ : State} (x0 : State) (x1 : Nat) (x2 : Int) (x3 : Int) (h : Kept s₀ x0) : Kept s₀ (State.filterStep x0 x1 x2 x3) := by
  unfold State.filterStep
  repeat' (first | with_reducible assumption | (intro _) | with_reducible apply State.setAxis_kept | with_reducible apply State.drawNat_kept | with_reducible apply State.fitS_kept | with_reducible apply ite_kept | with_reducible apply foldl_kept | with_reducible refine Kept.fst (by with_reducible assumption) ?_ | (extract_lets +onlyGivenNames x; refine Kept.cut (s₀ := s₀) x ?_ ?_; unfold x; clear x; rotate_left; intro hx; clear_value x; rotate_right) | (extract_lets +onlyGivenNames x; clear_value x) | split | with_reducible exact Kept.upd (by with_reducible assumption))

theorem State.pushEvt_kept {s₀ : State} (x0 : State) (x1 : Evt) (h : Kept s₀ x0) : Kept s₀ (State.pushEvt x0 x1) := by
  unfold State.pushEvt
  repeat' (first | with_reducible assumption | with_reducible apply State.raise_kept | with_reducible apply State.satReg_kept | with_reducible exact Kept.upd (by with_reducible assumption) | with_reducible apply ite_kept)

theorem State.pinConflict_kept {s₀ : State} (x0 : State) (h : Kept s₀ x0) : Kept s₀ (State.pinConflict x0) := by
  unfold State.pinConflict
  repeat' (first | with_reducible assumption | with_reducible apply State.raise_kept | with_reducible apply State.incReg_kept)

theorem State.setCue_kept {s₀ : State} (x0 : State) (x1 : Nat) (x2 : Cue) (h : Kept s₀ x0) : Kept s₀ (State.setCue x0 x1 x2) := Kept.upd h

theorem State.recueStep_kept {s₀ : State} (x0 : State) (x1 : Int) (x2 : Nat) (h : Kept s₀ x0) : Kept s₀ (State.recueStep x0 x1 x2) := by
  unfold State.recueStep
  repeat' (first | with_reducible assumption | with_reducible apply State.setCue_kept | with_reducible exact Kept.upd (by with_reducible assumption) | with_reducible apply ite_kept)

theorem State.stepTime_kept {s₀ : State} (x0 : State) (x1 : Int) (h : Kept s₀ x0) : Kept s₀ (State.stepTime x0 x1) := by
  unfold State.stepTime
  repeat' (first | with_reducible assumption | (intro _) | with_reducible apply State.raise_kept | with_reducible apply State.recueStep_kept | with_reducible apply State.setRn_kept | with_reducible apply State.pushEvt_kept | with_reducible apply ite_kept | with_reducible apply foldl_kept | with_reducible apply iterate_kept | with_reducible exact Kept.upd (by with_reducible assumption) | (extract_lets +onlyGivenNames x; refine Kept.cut (s₀ := s₀) x ?_ ?_; unfold x; clear x; rotate_left; intro hx; clear_value x; rotate_right) | (extract_lets +onlyGivenNames x; clear_value x))

theorem State.setNt_kept {s₀ : State} (x0 : State) (x1 : Nat) (x2 : Bool) (x3 : Bool) (x4 : Bool) (h : Kept s₀ x0) : Kept s₀ (State.setNt x0 x1 x2 x3 x4) := by
  unfold State.setNt
  repeat' (first | with_reducible assumption | with_reducible apply State.setRn_kept | with_reducible apply State.raise_kept | with_reducible exact Kept.upd (by with_reducible assumption) | with_reducible apply ite_kept)

theorem State.ntMeasure_kept {s₀ : State} (x0 : State) (x1 : Int) (x2 : Int) (h : Kept s₀ x0) : Kept s₀ (State.ntMeasure x0 x1 x2) := by
  unfold State.ntMeasure
  repeat' (first | with_reducible assumption | (intro _) | with_reducible apply State.setRn_kept | with_reducible apply State.stepTime_kept | with_reducible apply State.setNt_kept | with_reducible apply State.drawNat_kept | with_reducible apply ite_kept | with_reducible apply ite_fst_kept | with_reducible apply foldl_kept | with_reducible apply foldl_fst_kept | with_reducible apply iterate_kept | with_reducible refine Kept.fst (by with_reducible assumption) ?_ | with_reducible refine State.takeMsg_kept (by with_reducible assumption) ?_ | (extract_lets +onlyGivenNames x; refine Kept.cut (s₀ := s₀) x ?_ ?_; unfold x; clear x; rotate_left; intro hx; clear_value x; rotate_right) | (extract_lets +onlyGivenNames x; refine Kept.cutF (s₀ := s₀) x ?_ ?_; unfold x; clear x; rotate_left; intro hxf; clear_value x; rotate_right) | with_reducible apply hxf | (extract_lets +onlyGivenNames x; clear_value x) | split | with_reducible exact Kept.upd (by with_reducible assumption) | (with_reducible refine Kept.upd ?_; first | with_reducible apply State.setRn_kept | with_reducible apply State.stepTime_kept | with_reducible apply State.setNt_kept | with_reducible apply State.drawNat_kept | with_reducible apply ite_kept | with_reducible apply foldl_kept | with_reducible apply iterate_kept) | dsimp only)

theorem State.axError_kept {s₀ : State} (x0 : State) (x1 : Nat) (x2 : Nat) (x3 : Nat) (h : Kept s₀ x0) : Kept s₀ (State.axError x0 x1 x2 x3) := by
  unfold State.axError
  repeat' (first | with_reducible assumption | with_reducible apply State.setRn_kept | with_reducible apply State.raise_kept | with_reducible exact Kept.upd (by with_reducible assumption) | with_reducible apply ite_kept)

theorem State.measure_kept {s₀ : State} (x0 : State) (x1 : Nat) (x2 : Int) (x3 : Int) (h : Kept s₀ x0) : Kept s₀ (State.measure x0 x1 x2 x3) := Kept.upd h

theorem ssiRead_kept {s₀ : State} (x0 : Fin 8) (x1 : Tk) (x2 : Bool) (x3 : Word) (x4 : State) (h : Kept s₀ x4) : Kept s₀ (ssiRead x0 x1 x2 x3 x4) := by
  unfold ssiRead
  extract_lets +onlyGivenNames x
  clear_value x
  extract_lets +onlyGivenNames y
  have hy : Kept s₀ y := advanceTo_kept _ _ h
  clear_value y
  apply ite_kept
  · exact hy
  · apply ite_kept
    · exact State.axError_kept _ _ _ _ hy
    · extract_lets a b c d e
      split
      rename_i heq
      exact State.measure_kept _ _ _ _ (Kept.fst heq (State.fitS_kept _ _ _ hy))

theorem cueHandoff_kept {s₀ : State} (x0 : Fin 64) (x1 : State) (h : Kept s₀ x1) : Kept s₀ (cueHandoff x0 x1) := by
  unfold cueHandoff
  repeat' (first | with_reducible assumption | (intro _) | with_reducible apply State.setCue_kept | with_reducible apply advanceTo_kept | with_reducible apply ite_kept | with_reducible apply foldl_kept | with_reducible refine Kept.fst (by with_reducible assumption) ?_ | (extract_lets +onlyGivenNames x; refine Kept.cut (s₀ := s₀) x ?_ ?_; unfold x; clear x; rotate_left; intro hx; clear_value x; rotate_right) | (extract_lets +onlyGivenNames x; clear_value x) | split | with_reducible exact Kept.upd (by with_reducible assumption))

theorem servoRateUpdate_kept {s₀ : State} (x0 : State) (h : Kept s₀ x0) : Kept s₀ (servoRateUpdate x0) := by
  unfold servoRateUpdate
  repeat' (first | with_reducible assumption | with_reducible apply State.setReg_kept | with_reducible apply State.setRn_kept | with_reducible apply ite_kept | with_reducible exact Kept.upd (by with_reducible assumption) | (extract_lets +onlyGivenNames x; refine Kept.cut (s₀ := s₀) x ?_ ?_; unfold x; clear x; rotate_left; intro hx; clear_value x; rotate_right) | (extract_lets +onlyGivenNames x; clear_value x))

theorem State.indexEdge_kept {s₀ : State} (x0 : State) (x1 : Nat) (h : Kept s₀ x0) : Kept s₀ (State.indexEdge x0 x1) := by
  unfold State.indexEdge
  repeat' (first | with_reducible assumption | with_reducible apply State.setAxis_kept | with_reducible apply State.raise_kept | with_reducible exact Kept.upd (by with_reducible assumption) | with_reducible apply ite_kept)

theorem State.axCount_kept {s₀ : State} (x0 : State) (x1 : Nat) (x2 : Bool) (x3 : Int) (x4 : Nat) (h : Kept s₀ x0) : Kept s₀ (State.axCount x0 x1 x2 x3 x4) := by
  unfold State.axCount
  repeat' (first | with_reducible assumption | with_reducible apply State.fitS_kept | with_reducible apply State.measure_kept | with_reducible apply State.setAxis_kept)

theorem State.quadEdge_kept {s₀ : State} (x0 : State) (x1 : Nat) (x2 : Nat) (x3 : Int) (h : Kept s₀ x0) : Kept s₀ (State.quadEdge x0 x1 x2 x3) := by
  unfold State.quadEdge
  repeat' (first | with_reducible assumption | (intro _) | with_reducible apply State.axError_kept | with_reducible apply State.setAxis_kept | with_reducible apply State.axCount_kept | with_reducible apply ite_kept | with_reducible apply foldl_kept | with_reducible refine Kept.fst (by with_reducible assumption) ?_ | (extract_lets +onlyGivenNames x; refine Kept.cut (s₀ := s₀) x ?_ ?_; unfold x; clear x; rotate_left; intro hx; clear_value x; rotate_right) | (extract_lets +onlyGivenNames x; clear_value x) | split | with_reducible exact Kept.upd (by with_reducible assumption))

theorem State.axEdge_kept {s₀ : State} (x0 : State) (x1 : Nat) (x2 : Nat) (x3 : Bool) (x4 : Int) (h : Kept s₀ x0) : Kept s₀ (State.axEdge x0 x1 x2 x3 x4) := by
  unfold State.axEdge
  repeat' (first | with_reducible assumption | with_reducible apply State.setAxis_kept | with_reducible apply State.indexEdge_kept | with_reducible apply State.quadEdge_kept | with_reducible apply State.axCount_kept | with_reducible exact Kept.upd (by with_reducible assumption) | with_reducible apply ite_kept)

theorem State.recue_kept {s₀ : State} (x0 : State) (x1 : Nat) (x2 : Option (Int × Int)) (x3 : Nat) (h : Kept s₀ x0) : Kept s₀ (State.recue x0 x1 x2 x3) := by
  unfold State.recue
  repeat' (first | with_reducible assumption | with_reducible apply State.setCue_kept | with_reducible exact Kept.upd (by with_reducible assumption) | with_reducible apply ite_kept)

theorem State.recueAll_kept {s₀ : State} (x0 : State) (x1 : Nat) (x2 : Option (Int × Int)) (h : Kept s₀ x0) : Kept s₀ (State.recueAll x0 x1 x2) := by
  unfold State.recueAll
  repeat' (first | with_reducible assumption | (intro _) | with_reducible apply State.recue_kept | with_reducible apply ite_kept | with_reducible apply foldl_kept | with_reducible apply iterate_kept | with_reducible exact Kept.upd (by with_reducible assumption) | (extract_lets +onlyGivenNames x; refine Kept.cut (s₀ := s₀) x ?_ ?_; unfold x; clear x; rotate_left; intro hx; clear_value x; rotate_right) | (extract_lets +onlyGivenNames x; clear_value x))

theorem ntHoldover_kept {s₀ : State} (x0 : State) (h : Kept s₀ x0) : Kept s₀ (ntHoldover x0) := by
  unfold ntHoldover
  repeat' (first | with_reducible assumption | with_reducible apply advanceTo_kept | with_reducible apply State.setNt_kept | with_reducible exact Kept.upd (by with_reducible assumption) | with_reducible apply ite_kept)

theorem ppsOutPulse_kept {s₀ : State} (x0 : Bool) (x1 : State) (h : Kept s₀ x1) : Kept s₀ (ppsOutPulse x0 x1) := by
  unfold ppsOutPulse
  repeat' (first | with_reducible assumption | with_reducible apply advanceTo_kept | with_reducible apply ite_kept | with_reducible exact Kept.upd (by with_reducible assumption) | (extract_lets +onlyGivenNames x; refine Kept.cut (s₀ := s₀) x ?_ ?_; unfold x; clear x; rotate_left; intro hx; clear_value x; rotate_right) | (extract_lets +onlyGivenNames x; clear_value x))

theorem State.axSample_kept {s₀ : State} (x0 : State) (x1 : Nat) (x2 : Int) (x3 : Int) (h : Kept s₀ x0) : Kept s₀ (State.axSample x0 x1 x2 x3) := by
  unfold State.axSample
  repeat' (first | with_reducible assumption | (intro _) | with_reducible apply State.axError_kept | with_reducible apply State.measure_kept | with_reducible apply ite_kept | with_reducible apply foldl_kept | with_reducible refine Kept.fst (by with_reducible assumption) ?_ | (extract_lets +onlyGivenNames x; refine Kept.cut (s₀ := s₀) x ?_ ?_; unfold x; clear x; rotate_left; intro hx; clear_value x; rotate_right) | (extract_lets +onlyGivenNames x; clear_value x) | split | with_reducible exact Kept.upd (by with_reducible assumption))

theorem axisStall_kept {s₀ : State} (x0 : Fin 8) (x1 : State) (h : Kept s₀ x1) : Kept s₀ (axisStall x0 x1) := by
  unfold axisStall
  repeat' (first | with_reducible assumption | with_reducible apply advanceTo_kept | with_reducible apply State.setAxis_kept | with_reducible apply State.recueAll_kept | with_reducible apply State.raise_kept | with_reducible exact Kept.upd (by with_reducible assumption) | with_reducible apply ite_kept)

theorem State.flushHeld_kept {s₀ : State} (x0 : State) (x1 : Nat) (x2 : Int) (h : Kept s₀ x0) : Kept s₀ (State.flushHeld x0 x1 x2) := by
  unfold State.flushHeld
  repeat' (first | with_reducible assumption | (intro _) | with_reducible apply State.axEdge_kept | with_reducible apply State.setAxis_kept | with_reducible apply ite_kept | with_reducible apply foldl_kept | with_reducible apply iterate_kept | with_reducible exact Kept.upd (by with_reducible assumption) | (extract_lets +onlyGivenNames x; refine Kept.cut (s₀ := s₀) x ?_ ?_; unfold x; clear x; rotate_left; intro hx; clear_value x; rotate_right) | (extract_lets +onlyGivenNames x; clear_value x))

theorem State.axRawEdge_kept {s₀ : State} (x0 : State) (x1 : Nat) (x2 : Nat) (x3 : Bool) (x4 : Int) (h : Kept s₀ x0) : Kept s₀ (State.axRawEdge x0 x1 x2 x3 x4) := by
  unfold State.axRawEdge
  repeat' (first | with_reducible assumption | with_reducible apply State.axEdge_kept | with_reducible apply State.flushHeld_kept | with_reducible apply State.setAxis_kept | with_reducible exact Kept.upd (by with_reducible assumption) | with_reducible apply ite_kept)

theorem State.edgeEvt_kept {s₀ : State} (x0 : State) (x1 : InPin) (x2 : Bool) (x3 : Int) (h : Kept s₀ x0) : Kept s₀ (State.edgeEvt x0 x1 x2 x3) := by
  unfold State.edgeEvt
  repeat' (first | with_reducible assumption | with_reducible apply State.pushEvt_kept | with_reducible exact Kept.upd (by with_reducible assumption) | with_reducible apply ite_kept)

theorem State.reactEdge_kept {s₀ : State} (x0 : State) (x1 : Nat) (x2 : Nat) (x3 : Bool) (x4 : Int) (x5 : Nat) (h : Kept s₀ x0) : Kept s₀ (State.reactEdge x0 x1 x2 x3 x4 x5) := by
  unfold State.reactEdge
  repeat' (first | with_reducible assumption | (intro _) | with_reducible apply State.incReg_kept | with_reducible apply State.setCue_kept | with_reducible apply ite_kept | with_reducible apply foldl_kept | with_reducible refine Kept.fst (by with_reducible assumption) ?_ | (extract_lets +onlyGivenNames x; refine Kept.cut (s₀ := s₀) x ?_ ?_; unfold x; clear x; rotate_left; intro hx; clear_value x; rotate_right) | (extract_lets +onlyGivenNames x; clear_value x) | split | with_reducible exact Kept.upd (by with_reducible assumption))

theorem State.ppsEdge_kept {s₀ : State} (x0 : State) (x1 : Bool) (x2 : Int) (h : Kept s₀ x0) : Kept s₀ (State.ppsEdge x0 x1 x2) := by
  unfold State.ppsEdge
  repeat' (first | with_reducible assumption | with_reducible apply State.ntMeasure_kept | with_reducible exact Kept.upd (by with_reducible assumption) | with_reducible apply ite_kept)

theorem inputEdge_kept {s₀ : State} (x0 : InPin) (x1 : Bool) (x2 : Tk) (x3 : State) (h : Kept s₀ x3) : Kept s₀ (inputEdge x0 x1 x2 x3) := by
  unfold inputEdge
  repeat' (first | with_reducible assumption | (intro _) | with_reducible apply advanceTo_kept | with_reducible apply State.axRawEdge_kept | with_reducible apply State.edgeEvt_kept | with_reducible apply State.reactEdge_kept | with_reducible apply State.ppsEdge_kept | with_reducible apply ite_kept | with_reducible apply ite_fst_kept | with_reducible apply foldl_kept | with_reducible apply foldl_fst_kept | with_reducible apply iterate_kept | with_reducible refine Kept.fst (by with_reducible assumption) ?_ | (extract_lets +onlyGivenNames x; refine Kept.cut (s₀ := s₀) x ?_ ?_; unfold x; clear x; rotate_left; intro hx; clear_value x; rotate_right) | (extract_lets +onlyGivenNames x; clear_value x) | split | with_reducible exact Kept.upd (by with_reducible assumption) | dsimp only)

theorem axisFilterUpdate_kept {s₀ : State} (x0 : Fin 8) (x1 : State) (h : Kept s₀ x1) : Kept s₀ (axisFilterUpdate x0 x1) := by
  unfold axisFilterUpdate
  repeat' (first | with_reducible assumption | (intro _) | with_reducible apply State.flushHeld_kept | with_reducible apply State.recueAll_kept | with_reducible apply State.filterStep_kept | with_reducible apply ite_kept | with_reducible apply foldl_kept | with_reducible refine Kept.fst (by with_reducible assumption) ?_ | (extract_lets +onlyGivenNames x; refine Kept.cut (s₀ := s₀) x ?_ ?_; unfold x; clear x; rotate_left; intro hx; clear_value x; rotate_right) | (extract_lets +onlyGivenNames x; clear_value x) | split | with_reducible exact Kept.upd (by with_reducible assumption))

theorem State.setPin_kept {s₀ : State} (x0 : State) (x1 : Nat) (x2 : Pin) (h : Kept s₀ x0) : Kept s₀ (State.setPin x0 x1 x2) := Kept.upd h

theorem State.armCue_kept {s₀ : State} (x0 : State) (x1 : Nat) (h : Kept s₀ x0) : Kept s₀ (State.armCue x0 x1) := by
  unfold State.armCue
  repeat' (first | with_reducible assumption | (intro _) | with_reducible apply State.setCue_kept | with_reducible apply ite_kept | with_reducible apply foldl_kept | with_reducible refine Kept.fst (by with_reducible assumption) ?_ | (extract_lets +onlyGivenNames x; refine Kept.cut (s₀ := s₀) x ?_ ?_; unfold x; clear x; rotate_left; intro hx; clear_value x; rotate_right) | (extract_lets +onlyGivenNames x; clear_value x) | split | with_reducible exact Kept.upd (by with_reducible assumption))

theorem pulseEnd_kept {s₀ : State} (x0 : Fin 16) (x1 : State) (h : Kept s₀ x1) : Kept s₀ (pulseEnd x0 x1) := by
  unfold pulseEnd
  repeat' (first | with_reducible assumption | (intro _) | with_reducible apply advanceTo_kept | with_reducible apply State.pinConflict_kept | with_reducible apply State.setPin_kept | with_reducible apply ite_kept | with_reducible apply foldl_kept | with_reducible refine Kept.fst (by with_reducible assumption) ?_ | (extract_lets +onlyGivenNames x; refine Kept.cut (s₀ := s₀) x ?_ ?_; unfold x; clear x; rotate_left; intro hx; clear_value x; rotate_right) | (extract_lets +onlyGivenNames x; clear_value x) | split | with_reducible exact Kept.upd (by with_reducible assumption))

theorem State.pinEvent_kept {s₀ : State} (x0 : State) (x1 : Nat) (x2 : Nat) (x3 : Nat) (x4 : Int) (x5 : Int) (h : Kept s₀ x0) : Kept s₀ (State.pinEvent x0 x1 x2 x3 x4 x5) := by
  unfold State.pinEvent
  repeat' (first | with_reducible assumption | with_reducible apply State.pinConflict_kept | with_reducible apply State.setPin_kept | with_reducible exact Kept.upd (by with_reducible assumption) | with_reducible apply ite_kept)

theorem State.outSamples_kept {s₀ : State} (x0 : State) (x1 : Nat) (x2 : OutDesc) (h : Kept s₀ x0) : Kept s₀ (State.outSamples x0 x1 x2).1 := by
  unfold State.outSamples
  repeat' (first | with_reducible assumption | (intro _) | with_reducible apply State.drawBytes_kept | with_reducible apply ite_kept | with_reducible apply foldl_kept | with_reducible refine Kept.fst (by with_reducible assumption) ?_ | (extract_lets +onlyGivenNames x; refine Kept.cut (s₀ := s₀) x ?_ ?_; unfold x; clear x; rotate_left; intro hx; clear_value x; rotate_right) | (extract_lets +onlyGivenNames x; clear_value x) | split | with_reducible exact Kept.upd (by with_reducible assumption))

theorem State.lineTable_kept {s₀ : State} (x0 : State) (x1 : Nat) (x2 : OutDesc) (h : Kept s₀ x0) : Kept s₀ (State.lineTable x0 x1 x2).1 := by
  unfold State.lineTable
  repeat' (first | with_reducible assumption | (intro _) | with_reducible apply State.drawBytes_kept | with_reducible apply ite_kept | with_reducible apply foldl_kept | with_reducible refine Kept.fst (by with_reducible assumption) ?_ | (extract_lets +onlyGivenNames x; refine Kept.cut (s₀ := s₀) x ?_ ?_; unfold x; clear x; rotate_left; intro hx; clear_value x; rotate_right) | (extract_lets +onlyGivenNames x; clear_value x) | split | with_reducible exact Kept.upd (by with_reducible assumption))

theorem State.outWrite_kept {s₀ : State} (x0 : State) (x1 : OutDesc) (x2 : Nat) (x3 : List Byte) (h : Kept s₀ x0) : Kept s₀ (State.outWrite x0 x1 x2 x3) := by
  unfold State.outWrite
  repeat' (first | with_reducible assumption | (intro _) | with_reducible apply State.writeVia_kept | with_reducible apply State.modCluster_kept | with_reducible apply ite_kept | with_reducible apply foldl_kept | with_reducible refine Kept.fst (by with_reducible assumption) ?_ | (extract_lets +onlyGivenNames x; refine Kept.cut (s₀ := s₀) x ?_ ?_; unfold x; clear x; rotate_left; intro hx; clear_value x; rotate_right) | (extract_lets +onlyGivenNames x; clear_value x) | split | with_reducible exact Kept.upd (by with_reducible assumption))

theorem State.putFrame_kept {s₀ : State} (x0 : State) (x1 : OutDesc) (x2 : Nat) (x3 : List Byte) (x4 : List Byte) (x5 : List Byte) (h : Kept s₀ x0) : Kept s₀ (State.putFrame x0 x1 x2 x3 x4 x5) := by
  unfold State.putFrame
  repeat' (first | with_reducible assumption | with_reducible apply State.outWrite_kept)

theorem State.setIsp_kept {s₀ : State} (x0 : State) (x1 : Nat) (x2 : Isp) (h : Kept s₀ x0) : Kept s₀ (State.setIsp x0 x1 x2) := Kept.upd h

theorem State.ispOutput_kept {s₀ : State} (x0 : State) (x1 : Nat) (x2 : Nat) (h : Kept s₀ x0) : Kept s₀ (State.ispOutput x0 x1 x2) := by
  unfold State.ispOutput
  repeat' (first | with_reducible assumption | (intro _) | with_reducible apply State.drawBytes_kept | with_reducible apply State.outSamples_kept | with_reducible apply State.lineTable_kept | with_reducible apply State.putFrame_kept | with_reducible apply State.setIsp_kept | with_reducible apply State.satReg_kept | with_reducible apply State.setRn_kept | with_reducible apply ite_kept | with_reducible apply foldl_kept | with_reducible refine Kept.fst (by with_reducible assumption) ?_ | (extract_lets +onlyGivenNames x; refine Kept.cut (s₀ := s₀) x ?_ ?_; unfold x; clear x; rotate_left; intro hx; clear_value x; rotate_right) | (extract_lets +onlyGivenNames x; clear_value x) | split | with_reducible exact Kept.upd (by with_reducible assumption))

theorem ispFrameDone_kept {s₀ : State} (x0 : Nat) (x1 : State) (h : Kept s₀ x1) : Kept s₀ (ispFrameDone x0 x1) := by
  unfold ispFrameDone
  repeat' (first | with_reducible assumption | (intro _) | with_reducible apply State.ispOutput_kept | with_reducible apply State.setIsp_kept | with_reducible apply State.raise_kept | with_reducible apply State.incReg_kept | with_reducible apply ite_kept | with_reducible apply foldl_kept | with_reducible apply iterate_kept | with_reducible exact Kept.upd (by with_reducible assumption) | (extract_lets +onlyGivenNames x; refine Kept.cut (s₀ := s₀) x ?_ ?_; unfold x; clear x; rotate_left; intro hx; clear_value x; rotate_right) | (extract_lets +onlyGivenNames x; clear_value x))

theorem State.outStart_kept {s₀ : State} (x0 : State) (x1 : Nat) (x2 : Nat) (h : Kept s₀ x0) : Kept s₀ (State.outStart x0 x1 x2) := by
  unfold State.outStart
  repeat' (first | with_reducible assumption | with_reducible apply State.setIsp_kept | with_reducible apply State.setRn_kept | with_reducible apply State.raise_kept | with_reducible apply State.satReg_kept | with_reducible exact Kept.upd (by with_reducible assumption) | with_reducible apply ite_kept)

theorem State.frameBegin_kept {s₀ : State} (x0 : State) (x1 : Nat) (h : Kept s₀ x0) : Kept s₀ (State.frameBegin x0 x1) := by
  unfold State.frameBegin
  repeat' (first | with_reducible assumption | (intro _) | with_reducible apply ispFrameDone_kept | with_reducible apply State.setIsp_kept | with_reducible apply State.outStart_kept | with_reducible apply ite_kept | with_reducible apply foldl_kept | with_reducible apply iterate_kept | with_reducible exact Kept.upd (by with_reducible assumption) | (extract_lets +onlyGivenNames x; refine Kept.cut (s₀ := s₀) x ?_ ?_; unfold x; clear x; rotate_left; intro hx; clear_value x; rotate_right) | (extract_lets +onlyGivenNames x; clear_value x))

theorem State.frameEnd_kept {s₀ : State} (x0 : State) (x1 : Nat) (h : Kept s₀ x0) : Kept s₀ (State.frameEnd x0 x1) := by
  unfold State.frameEnd
  repeat' (first | with_reducible assumption | with_reducible apply State.setIsp_kept | with_reducible exact Kept.upd (by with_reducible assumption) | with_reducible apply ite_kept)

theorem ispParamLoad_kept {s₀ : State} (x0 : Nat) (x1 : Resp) (x2 : State) (h : Kept s₀ x2) : Kept s₀ (ispParamLoad x0 x1 x2) := by
  unfold ispParamLoad
  repeat' (first | with_reducible assumption | with_reducible apply State.readVia_kept | with_reducible apply State.areaFinds_kept | with_reducible apply State.setIsp_kept | with_reducible apply State.dramUe_kept | with_reducible apply State.setErr_kept | with_reducible exact Kept.upd (by with_reducible assumption) | with_reducible apply ite_kept)

theorem State.hdrFixed_kept {s₀ : State} (x0 : State) (x1 : Nat) (x2 : Bool) (h : Kept s₀ x0) : Kept s₀ (State.hdrFixed x0 x1 x2) := by
  unfold State.hdrFixed
  repeat' (first | with_reducible assumption | with_reducible apply State.satReg_kept | with_reducible exact Kept.upd (by with_reducible assumption) | with_reducible apply ite_kept)

theorem State.ispOff_kept {s₀ : State} (x0 : State) (x1 : Nat) (h : Kept s₀ x0) : Kept s₀ (State.ispOff x0 x1) := Kept.upd h

theorem State.lineError_kept {s₀ : State} (x0 : State) (x1 : Nat) (h : Kept s₀ x0) : Kept s₀ (State.lineError x0 x1) := by
  unfold State.lineError
  repeat' (first | with_reducible assumption | with_reducible apply State.raise_kept | with_reducible apply State.satReg_kept | with_reducible apply State.setIsp_kept)

theorem State.ispLine_kept {s₀ : State} (x0 : State) (x1 : Nat) (x2 : Nat) (x3 : Tk) (x4 : Bool) (x5 : Nat) (x6 : List (BitVec 16)) (h : Kept s₀ x0) : Kept s₀ (State.ispLine x0 x1 x2 x3 x4 x5 x6) := by
  unfold State.ispLine
  repeat' (first | with_reducible assumption | with_reducible apply State.frameBegin_kept | with_reducible apply State.lineError_kept | with_reducible apply State.drawNat_kept | with_reducible apply State.setIsp_kept | with_reducible apply State.frameEnd_kept | with_reducible exact Kept.upd (by with_reducible assumption) | with_reducible apply ite_kept)

theorem csiPacket_kept {s₀ : State} (x0 : Nat) (x1 : CsiPacket) (x2 : State) (h : Kept s₀ x2) : Kept s₀ (csiPacket x0 x1 x2) := by
  unfold csiPacket
  repeat' (first | with_reducible assumption | (intro _) | with_reducible apply State.raise_kept | with_reducible apply State.satReg_kept | with_reducible apply State.hdrFixed_kept | with_reducible apply State.frameBegin_kept | with_reducible apply State.frameEnd_kept | with_reducible apply State.incReg_kept | with_reducible apply State.ispLine_kept | with_reducible apply ite_kept | with_reducible apply foldl_kept | with_reducible refine Kept.fst (by with_reducible assumption) ?_ | (extract_lets +onlyGivenNames x; refine Kept.cut (s₀ := s₀) x ?_ ?_; unfold x; clear x; rotate_left; intro hx; clear_value x; rotate_right) | (extract_lets +onlyGivenNames x; clear_value x) | split | with_reducible exact Kept.upd (by with_reducible assumption))

theorem clkLoss_kept {s₀ : State} (x0 : Nat) (x1 : State) (h : Kept s₀ x1) : Kept s₀ (clkLoss x0 x1) := by
  unfold clkLoss
  repeat' (first | with_reducible assumption | with_reducible apply State.raise_kept | with_reducible exact Kept.upd (by with_reducible assumption) | with_reducible apply ite_kept)

theorem State.detDrop_kept {s₀ : State} (x0 : State) (h : Kept s₀ x0) : Kept s₀ (State.detDrop x0) := by
  unfold State.detDrop
  repeat' (first | with_reducible assumption | with_reducible apply State.raise_kept | with_reducible apply State.satReg_kept)

theorem State.bumpGen_kept {s₀ : State} (x0 : State) (x1 : Nat) (x2 : Nat) (h : Kept s₀ x0) : Kept s₀ (State.bumpGen x0 x1 x2) := Kept.upd h

theorem State.putTrk_kept {s₀ : State} (x0 : State) (x1 : Nat) (x2 : Trk) (h : Kept s₀ x0) : Kept s₀ (State.putTrk x0 x1 x2) := by
  unfold State.putTrk
  repeat' (first | with_reducible assumption | with_reducible apply State.bumpGen_kept | with_reducible apply State.writeVia_kept)

theorem State.getTrk_kept {s₀ : State} (x0 : State) (x1 : Nat) (h : Kept s₀ x0) : Kept s₀ (State.getTrk x0 x1).1 := by
  unfold State.getTrk
  repeat' (first | with_reducible assumption | (intro _) | with_reducible apply State.tagRead_kept | with_reducible apply State.putTrk_kept | with_reducible apply State.satReg_kept | with_reducible apply State.tagFault_kept | with_reducible apply ite_kept | with_reducible apply foldl_kept | with_reducible refine Kept.fst (by with_reducible assumption) ?_ | (extract_lets +onlyGivenNames x; refine Kept.cut (s₀ := s₀) x ?_ ?_; unfold x; clear x; rotate_left; intro hx; clear_value x; rotate_right) | (extract_lets +onlyGivenNames x; clear_value x) | split | with_reducible exact Kept.upd (by with_reducible assumption))

theorem State.getPart_kept {s₀ : State} (x0 : State) (x1 : Nat) (x2 : Nat) (h : Kept s₀ x0) : Kept s₀ (State.getPart x0 x1 x2).1 := by
  induction x2 generalizing x0 x1 with
  | zero => exact h
  | succ n ih =>
    unfold State.getPart
    exact ih _ _ (State.getTrk_kept _ _ h)

theorem State.trkMatch_kept {s₀ : State} (x0 : State) (x1 : Nat) (x2 : DetHead) (x3 : Trk) (x4 : Det) (h : Kept s₀ x0) : Kept s₀ (State.trkMatch x0 x1 x2 x3 x4).1 := by
  unfold State.trkMatch
  repeat' (first | with_reducible assumption | (intro _) | with_reducible apply State.fitS_kept | with_reducible apply ite_kept | with_reducible apply foldl_kept | with_reducible refine Kept.fst (by with_reducible assumption) ?_ | (extract_lets +onlyGivenNames x; refine Kept.cut (s₀ := s₀) x ?_ ?_; unfold x; clear x; rotate_left; intro hx; clear_value x; rotate_right) | (extract_lets +onlyGivenNames x; clear_value x) | split | with_reducible exact Kept.upd (by with_reducible assumption))

theorem applyMatches_kept {s₀ : State} (x0 : Nat) (x1 : DetHead) (x2 : List (Nat × Nat)) (x3 : List (Nat × Det)) (x4 : State) (x5 : List Work) (h : Kept s₀ x4) : Kept s₀ (applyMatches x0 x1 x2 x3 x4 x5).1 := by
  induction x3 generalizing x4 x5 with
  | nil => exact h
  | cons d ds ih =>
    unfold applyMatches
    split
    · exact ih _ _ h
    · split
      · exact ih _ _ h
      · exact ih _ _ (State.trkMatch_kept x4 x0 x1 _ _ h)

theorem birth_kept {s₀ : State} (x0 : Nat) (x1 : DetHead) (x2 : Det) (x3 : State) (x4 : List Work) (h : Kept s₀ x3) : Kept s₀ (birth x0 x1 x2 x3 x4).1 := by
  unfold birth
  repeat' (first | with_reducible assumption | (intro _) | with_reducible apply State.raise_kept | with_reducible apply State.satReg_kept | with_reducible apply ite_kept | with_reducible apply foldl_kept | with_reducible refine Kept.fst (by with_reducible assumption) ?_ | (extract_lets +onlyGivenNames x; refine Kept.cut (s₀ := s₀) x ?_ ?_; unfold x; clear x; rotate_left; intro hx; clear_value x; rotate_right) | (extract_lets +onlyGivenNames x; clear_value x) | split | with_reducible exact Kept.upd (by with_reducible assumption))

theorem births_kept {s₀ : State} (x0 : Nat) (x1 : DetHead) (x2 : List (Nat × Nat)) (x3 : List (Nat × Det)) (x4 : State) (x5 : List Work) (h : Kept s₀ x4) : Kept s₀ (births x0 x1 x2 x3 x4 x5).1 := by
  induction x3 generalizing x4 x5 with
  | nil => exact h
  | cons d ds ih =>
    unfold births
    split
    · exact ih _ _ h
    · exact ih _ _ (birth_kept _ _ _ _ _ h)

theorem State.armRule_kept {s₀ : State} (x0 : State) (x1 : Nat) (x2 : Nat) (x3 : Nat) (x4 : Trk) (h : Kept s₀ x0) : Kept s₀ (State.armRule x0 x1 x2 x3 x4) := by
  unfold State.armRule
  repeat' (first | with_reducible assumption | with_reducible apply State.fitS_kept | with_reducible apply State.setRn_kept | with_reducible apply State.armCue_kept)

theorem ruleCues_kept {s₀ : State} (x0 : Nat) (x1 : Nat) (x2 : List Work) (x3 : State) (h : Kept s₀ x3) : Kept s₀ (ruleCues x0 x1 x2 x3).1 := by
  induction x2 generalizing x3 with
  | nil => exact h
  | cons w ws ih =>
    unfold ruleCues
    refine ih _ ?_
    split
    · split
      · exact State.armRule_kept _ _ _ _ _ h
      · exact State.raise_kept _ _ _ (State.satReg_kept _ _ _ _ h)
    · exact h

theorem allCues_kept {s₀ : State} (x0 : Nat) (x1 : Nat) (x2 : Nat) (x3 : State) (x4 : List Work) (h : Kept s₀ x3) : Kept s₀ (allCues x0 x1 x2 x3 x4).1 := by
  induction x2 generalizing x1 x3 x4 with
  | zero => exact h
  | succ n ih =>
    unfold allCues
    exact ih _ _ _ (ruleCues_kept _ _ _ _ h)

theorem State.trkRun_kept {s₀ : State} (x0 : State) (x1 : Nat) (x2 : DetHead) (x3 : List (Nat × Det)) (h : Kept s₀ x0) : Kept s₀ (State.trkRun x0 x1 x2 x3) := by
  unfold State.trkRun
  repeat' (first | with_reducible assumption | (intro _) | with_reducible apply State.getPart_kept | with_reducible apply State.satReg_kept | with_reducible apply State.drawNat_kept | with_reducible apply applyMatches_kept | with_reducible apply births_kept | with_reducible apply allCues_kept | with_reducible apply State.putTrk_kept | with_reducible apply State.raise_kept | with_reducible apply State.incReg_kept | with_reducible apply State.setRn_kept | with_reducible apply ite_kept | with_reducible apply foldl_kept | with_reducible apply iterate_kept | with_reducible exact Kept.upd (by with_reducible assumption) | (extract_lets +onlyGivenNames x; refine Kept.cut (s₀ := s₀) x ?_ ?_; unfold x; clear x; rotate_left; intro hx; clear_value x; rotate_right) | (extract_lets +onlyGivenNames x; clear_value x))

theorem State.trkNotify_kept {s₀ : State} (x0 : State) (x1 : BitVec 16) (h : Kept s₀ x0) : Kept s₀ (State.trkNotify x0 x1) := by
  unfold State.trkNotify
  repeat' (first | with_reducible assumption | with_reducible exact Kept.upd (by with_reducible assumption) | with_reducible apply ite_kept)

theorem State.trkTake_kept {s₀ : State} (x0 : State) (x1 : Nat) (x2 : Job) (h : Kept s₀ x0) : Kept s₀ (State.trkTake x0 x1 x2) := by
  unfold State.trkTake
  repeat' (first | with_reducible assumption | with_reducible apply State.detDrop_kept | with_reducible apply State.tagRead_kept | with_reducible apply State.tagFault_kept | with_reducible apply State.trkRun_kept | with_reducible exact Kept.upd (by with_reducible assumption) | with_reducible apply ite_kept)

theorem trkFrame_kept {s₀ : State} (x0 : Nat) (x1 : State) (h : Kept s₀ x1) : Kept s₀ (trkFrame x0 x1) := by
  unfold trkFrame
  repeat' (first | with_reducible assumption | (intro _) | with_reducible apply State.trkTake_kept | with_reducible apply ite_kept | with_reducible apply foldl_kept | with_reducible refine Kept.fst (by with_reducible assumption) ?_ | (extract_lets +onlyGivenNames x; refine Kept.cut (s₀ := s₀) x ?_ ?_; unfold x; clear x; rotate_left; intro hx; clear_value x; rotate_right) | (extract_lets +onlyGivenNames x; clear_value x) | split | with_reducible exact Kept.upd (by with_reducible assumption))

theorem State.trkFlush_kept {s₀ : State} (x0 : State) (x1 : BitVec 16) (h : Kept s₀ x0) : Kept s₀ (State.trkFlush x0 x1) := by
  unfold State.trkFlush
  repeat' (first | with_reducible assumption | (intro _) | with_reducible apply trkFrame_kept | with_reducible apply ite_kept | with_reducible apply foldl_kept | with_reducible apply iterate_kept | with_reducible exact Kept.upd (by with_reducible assumption) | (extract_lets +onlyGivenNames x; refine Kept.cut (s₀ := s₀) x ?_ ?_; unfold x; clear x; rotate_left; intro hx; clear_value x; rotate_right) | (extract_lets +onlyGivenNames x; clear_value x))

theorem State.icInstall_kept {s₀ : State} (x0 : State) (x1 : Nat) (x2 : Nat) (x3 : Bool) (x4 : Nat) (x5 : List IWord) (h : Kept s₀ x0) : Kept s₀ (State.icInstall x0 x1 x2 x3 x4 x5) := Kept.upd h

theorem holdExpire_kept {s₀ : State} (x0 : Nat) (x1 : State) (h : Kept s₀ x1) : Kept s₀ (holdExpire x0 x1) := by
  unfold holdExpire
  repeat' (first | with_reducible assumption | with_reducible apply State.setCore_kept | with_reducible exact Kept.upd (by with_reducible assumption) | with_reducible apply ite_kept)

theorem State.adv_kept {s₀ : State} (x0 : State) (x1 : Nat) (x2 : Engine) (h : Kept s₀ x0) : Kept s₀ (State.adv x0 x1 x2) := Kept.upd h

theorem State.recoveryEnds_kept {s₀ : State} (x0 : State) (h : Kept s₀ x0) : Kept s₀ (State.recoveryEnds x0) := by
  unfold State.recoveryEnds
  repeat' (first | with_reducible assumption | (intro _) | with_reducible apply State.setRn_kept | with_reducible apply State.raise_kept | with_reducible apply ite_kept | with_reducible apply foldl_kept | with_reducible refine Kept.fst (by with_reducible assumption) ?_ | (extract_lets +onlyGivenNames x; refine Kept.cut (s₀ := s₀) x ?_ ?_; unfold x; clear x; rotate_left; intro hx; clear_value x; rotate_right) | (extract_lets +onlyGivenNames x; clear_value x) | split | with_reducible exact Kept.upd (by with_reducible assumption))

theorem State.setArrived_kept {s₀ : State} (x0 : State) (x1 : Nat) (x2 : Job) (x3 : Nat) (x4 : List Nat) (h : Kept s₀ x0) : Kept s₀ (State.setArrived x0 x1 x2 x3 x4) := by
  unfold State.setArrived
  repeat' (first | with_reducible assumption | with_reducible apply State.modCluster_kept | with_reducible apply State.modJob_kept | with_reducible exact Kept.upd (by with_reducible assumption) | with_reducible apply ite_kept)

theorem State.releaseEng_kept {s₀ : State} (x0 : State) (x1 : Nat) (x2 : Engine) (h : Kept s₀ x0) : Kept s₀ (State.releaseEng x0 x1 x2) := Kept.upd h

theorem State.releaseBarrier_kept {s₀ : State} (x0 : State) (x1 : Nat) (x2 : Job) (x3 : Nat) (h : Kept s₀ x0) : Kept s₀ (State.releaseBarrier x0 x1 x2 x3) := by
  unfold State.releaseBarrier
  repeat' (first | with_reducible assumption | (intro _) | with_reducible apply State.setArrived_kept | with_reducible apply State.releaseEng_kept | with_reducible apply ite_kept | with_reducible apply foldl_kept | with_reducible refine Kept.fst (by with_reducible assumption) ?_ | (extract_lets +onlyGivenNames x; refine Kept.cut (s₀ := s₀) x ?_ ?_; unfold x; clear x; rotate_left; intro hx; clear_value x; rotate_right) | (extract_lets +onlyGivenNames x; clear_value x) | split | with_reducible exact Kept.upd (by with_reducible assumption))

theorem State.firstIssue_kept {s₀ : State} (x0 : State) (x1 : Nat) (x2 : Engine) (h : Kept s₀ x0) : Kept s₀ (State.firstIssue x0 x1 x2) := by
  unfold State.firstIssue
  repeat' (first | with_reducible assumption | (intro _) | with_reducible apply State.modJob_kept | with_reducible apply State.recoveryEnds_kept | with_reducible apply ite_kept | with_reducible apply foldl_kept | with_reducible refine Kept.fst (by with_reducible assumption) ?_ | (extract_lets +onlyGivenNames x; refine Kept.cut (s₀ := s₀) x ?_ ?_; unfold x; clear x; rotate_left; intro hx; clear_value x; rotate_right) | (extract_lets +onlyGivenNames x; clear_value x) | split | with_reducible exact Kept.upd (by with_reducible assumption))

theorem State.perf_kept {s₀ : State} (x0 : State) (x1 : Nat) (x2 : Nat) (x3 : Nat) (h : Kept s₀ x0) : Kept s₀ (State.perf x0 x1 x2 x3) := by
  unfold State.perf
  repeat' (first | with_reducible assumption | (intro _) | with_reducible apply State.countReg_kept | with_reducible apply ite_kept | with_reducible apply foldl_kept | with_reducible apply iterate_kept | with_reducible exact Kept.upd (by with_reducible assumption) | (extract_lets +onlyGivenNames x; refine Kept.cut (s₀ := s₀) x ?_ ?_; unfold x; clear x; rotate_left; intro hx; clear_value x; rotate_right) | (extract_lets +onlyGivenNames x; clear_value x))

theorem State.counted_kept {s₀ : State} (x0 : State) (x1 : Nat) (x2 : Engine) (x3 : Nat) (x4 : Nat → State → State) (h : Kept s₀ x0) (k4 : ∀ (y0 : Nat) (y1 : State), Kept s₀ y1 → Kept s₀ (x4 y0 y1)) : Kept s₀ (State.counted x0 x1 x2 x3 x4) := by
  unfold State.counted
  repeat' (first | with_reducible assumption | (intro _) | with_reducible apply k4 | with_reducible apply State.firstIssue_kept | with_reducible apply State.perf_kept | with_reducible apply ite_kept | with_reducible apply foldl_kept | with_reducible apply iterate_kept | with_reducible exact Kept.upd (by with_reducible assumption) | (extract_lets +onlyGivenNames x; refine Kept.cut (s₀ := s₀) x ?_ ?_; unfold x; clear x; rotate_left; intro hx; clear_value x; rotate_right) | (extract_lets +onlyGivenNames x; clear_value x))

theorem State.issue_kept {s₀ : State} (x0 : State) (x1 : Nat) (x2 : Engine) (x3 : Nat → Bool) (x4 : Nat → State → State) (h : Kept s₀ x0) (k4 : ∀ (y0 : Nat) (y1 : State), Kept s₀ y1 → Kept s₀ (x4 y0 y1)) : Kept s₀ (State.issue x0 x1 x2 x3 x4) := by
  unfold State.issue
  repeat' (first | with_reducible assumption | (intro _) | with_reducible apply k4 | with_reducible apply State.countReg_kept | with_reducible apply State.setCore_kept | with_reducible apply State.counted_kept | with_reducible apply State.firstIssue_kept | with_reducible apply State.adv_kept | with_reducible apply ite_kept | with_reducible apply foldl_kept | with_reducible refine Kept.fst (by with_reducible assumption) ?_ | (extract_lets +onlyGivenNames x; refine Kept.cut (s₀ := s₀) x ?_ ?_; unfold x; clear x; rotate_left; intro hx; clear_value x; rotate_right) | (extract_lets +onlyGivenNames x; clear_value x) | split | with_reducible exact Kept.upd (by with_reducible assumption))

theorem setsr_kept {s₀ : State} (x0 : Nat) (x1 : State) (h : Kept s₀ x1) : Kept s₀ (setsr x0 x1) := by
  unfold setsr
  repeat' (first | with_reducible assumption | (intro _) | with_reducible apply State.issue_kept | with_reducible apply State.adv_kept | with_reducible apply State.modCore_kept | with_reducible apply ite_kept | with_reducible apply foldl_kept | with_reducible apply iterate_kept | with_reducible exact Kept.upd (by with_reducible assumption) | (extract_lets +onlyGivenNames x; refine Kept.cut (s₀ := s₀) x ?_ ?_; unfold x; clear x; rotate_left; intro hx; clear_value x; rotate_right) | (extract_lets +onlyGivenNames x; clear_value x))

theorem xeStart_kept {s₀ : State} (x0 : Nat) (x1 : State) (h : Kept s₀ x1) : Kept s₀ (xeStart x0 x1) := by
  unfold xeStart
  repeat' (first | with_reducible assumption | with_reducible apply State.setCore_kept | with_reducible exact Kept.upd (by with_reducible assumption) | with_reducible apply ite_kept)

theorem jobBarrierRelease_kept {s₀ : State} (x0 : BitVec 16) (x1 : Nat) (x2 : State) (h : Kept s₀ x2) : Kept s₀ (jobBarrierRelease x0 x1 x2) := by
  unfold jobBarrierRelease
  repeat' (first | with_reducible assumption | (intro _) | with_reducible apply State.releaseBarrier_kept | with_reducible apply ite_kept | with_reducible apply foldl_kept | with_reducible refine Kept.fst (by with_reducible assumption) ?_ | (extract_lets +onlyGivenNames x; refine Kept.cut (s₀ := s₀) x ?_ ?_; unfold x; clear x; rotate_left; intro hx; clear_value x; rotate_right) | (extract_lets +onlyGivenNames x; clear_value x) | split | with_reducible exact Kept.upd (by with_reducible assumption))

theorem State.cueBit_kept {s₀ : State} (x0 : State) (x1 : Job) (x2 : Nat) (x3 : Nat) (x4 : Engine) (x5 : State → State) (h : Kept s₀ x0) (k5 : ∀ (y0 : State), Kept s₀ y0 → Kept s₀ (x5 y0)) : Kept s₀ (State.cueBit x0 x1 x2 x3 x4 x5) := by
  unfold State.cueBit
  repeat' (first | with_reducible assumption | (intro _) | with_reducible apply k5 | with_reducible apply State.setJob_kept | with_reducible apply ite_kept | with_reducible apply foldl_kept | with_reducible refine Kept.fst (by with_reducible assumption) ?_ | (extract_lets +onlyGivenNames x; refine Kept.cut (s₀ := s₀) x ?_ ?_; unfold x; clear x; rotate_left; intro hx; clear_value x; rotate_right) | (extract_lets +onlyGivenNames x; clear_value x) | split | with_reducible exact Kept.upd (by with_reducible assumption))

theorem State.cueToEngine_kept {s₀ : State} (x0 : State) (x1 : Job) (x2 : Nat) (x3 : Nat) (x4 : Engine) (h : Kept s₀ x0) : Kept s₀ (State.cueToEngine x0 x1 x2 x3 x4) := by
  unfold State.cueToEngine
  repeat' (first | with_reducible assumption | (intro _) | with_reducible apply State.releaseEng_kept | with_reducible apply State.cueBit_kept | with_reducible apply State.modCore_kept | with_reducible apply ite_kept | with_reducible apply foldl_kept | with_reducible apply iterate_kept | with_reducible exact Kept.upd (by with_reducible assumption) | (extract_lets +onlyGivenNames x; refine Kept.cut (s₀ := s₀) x ?_ ?_; unfold x; clear x; rotate_left; intro hx; clear_value x; rotate_right) | (extract_lets +onlyGivenNames x; clear_value x))

theorem endlOp_kept {s₀ : State} (x0 : Nat) (x1 : Engine) (x2 : State) (h : Kept s₀ x2) : Kept s₀ (endlOp x0 x1 x2) := by
  unfold endlOp
  repeat' (first | with_reducible assumption | (intro _) | with_reducible apply State.issue_kept | with_reducible apply State.modCore_kept | with_reducible apply ite_kept | with_reducible apply foldl_kept | with_reducible apply iterate_kept | with_reducible exact Kept.upd (by with_reducible assumption) | (extract_lets +onlyGivenNames x; refine Kept.cut (s₀ := s₀) x ?_ ?_; unfold x; clear x; rotate_left; intro hx; clear_value x; rotate_right) | (extract_lets +onlyGivenNames x; clear_value x))

theorem nop_kept {s₀ : State} (x0 : Nat) (x1 : Engine) (x2 : State) (h : Kept s₀ x2) : Kept s₀ (nop x0 x1 x2) := by
  unfold nop
  repeat' (first | with_reducible assumption | (intro _) | with_reducible apply State.issue_kept | with_reducible apply State.adv_kept | with_reducible apply ite_kept | with_reducible apply foldl_kept | with_reducible apply iterate_kept | with_reducible exact Kept.upd (by with_reducible assumption) | (extract_lets +onlyGivenNames x; refine Kept.cut (s₀ := s₀) x ?_ ?_; unfold x; clear x; rotate_left; intro hx; clear_value x; rotate_right) | (extract_lets +onlyGivenNames x; clear_value x))

theorem barrierArrive_kept {s₀ : State} (x0 : Nat) (x1 : Engine) (x2 : State) (h : Kept s₀ x2) : Kept s₀ (barrierArrive x0 x1 x2) := by
  unfold barrierArrive
  repeat' (first | with_reducible assumption | (intro _) | with_reducible apply State.setCore_kept | with_reducible apply State.setArrived_kept | with_reducible apply State.releaseBarrier_kept | with_reducible apply ite_kept | with_reducible apply foldl_kept | with_reducible refine Kept.fst (by with_reducible assumption) ?_ | (extract_lets +onlyGivenNames x; refine Kept.cut (s₀ := s₀) x ?_ ?_; unfold x; clear x; rotate_left; intro hx; clear_value x; rotate_right) | (extract_lets +onlyGivenNames x; clear_value x) | split | with_reducible exact Kept.upd (by with_reducible assumption))

theorem State.icFetch_kept {s₀ : State} (x0 : State) (x1 : Nat) (x2 : Nat) (x3 : Bool) (x4 : Nat) (x5 : Resp) (h : Kept s₀ x0) : Kept s₀ (State.icFetch x0 x1 x2 x3 x4 x5) := by
  unfold State.icFetch
  repeat' (first | with_reducible assumption | (intro _) | with_reducible apply State.lineResp_kept | with_reducible apply State.coreFault_kept | with_reducible apply State.icInstall_kept | with_reducible apply ite_kept | with_reducible apply foldl_kept | with_reducible refine Kept.fst (by with_reducible assumption) ?_ | (extract_lets +onlyGivenNames x; refine Kept.cut (s₀ := s₀) x ?_ ?_; unfold x; clear x; rotate_left; intro hx; clear_value x; rotate_right) | (extract_lets +onlyGivenNames x; clear_value x) | split | with_reducible exact Kept.upd (by with_reducible assumption))

theorem State.icWarm_kept {s₀ : State} (x0 : State) (x1 : Nat) (x2 : Nat) (h : Kept s₀ x0) : Kept s₀ (State.icWarm x0 x1 x2) := by
  unfold State.icWarm
  repeat' (first | with_reducible assumption | (intro _) | with_reducible apply State.icFetch_kept | with_reducible apply State.spend_kept | with_reducible apply ite_kept | with_reducible apply foldl_kept | with_reducible apply iterate_kept | with_reducible exact Kept.upd (by with_reducible assumption) | (extract_lets +onlyGivenNames x; refine Kept.cut (s₀ := s₀) x ?_ ?_; unfold x; clear x; rotate_left; intro hx; clear_value x; rotate_right) | (extract_lets +onlyGivenNames x; clear_value x))

theorem State.cueToJobs_kept {s₀ : State} (x0 : State) (x1 : Nat) (h : Kept s₀ x0) : Kept s₀ (State.cueToJobs x0 x1) := by
  unfold State.cueToJobs
  repeat' (first | with_reducible assumption | (intro _) | with_reducible apply State.modJob_kept | with_reducible apply State.cueBit_kept | with_reducible apply State.cueToEngine_kept | with_reducible apply ite_kept | with_reducible apply foldl_kept | with_reducible apply iterate_kept | with_reducible exact Kept.upd (by with_reducible assumption) | (extract_lets +onlyGivenNames x; refine Kept.cut (s₀ := s₀) x ?_ ?_; unfold x; clear x; rotate_left; intro hx; clear_value x; rotate_right) | (extract_lets +onlyGivenNames x; clear_value x))

theorem cuewait_kept {s₀ : State} (x0 : Nat) (x1 : Engine) (x2 : State) (h : Kept s₀ x2) : Kept s₀ (cuewait x0 x1 x2) := by
  unfold cuewait
  repeat' (first | with_reducible assumption | (intro _) | with_reducible apply State.issue_kept | with_reducible apply State.adv_kept | with_reducible apply State.modCore_kept | with_reducible apply State.releaseEng_kept | with_reducible apply State.modJob_kept | with_reducible apply ite_kept | with_reducible apply foldl_kept | with_reducible refine Kept.fst (by with_reducible assumption) ?_ | (extract_lets +onlyGivenNames x; refine Kept.cut (s₀ := s₀) x ?_ ?_; unfold x; clear x; rotate_left; intro hx; clear_value x; rotate_right) | (extract_lets +onlyGivenNames x; clear_value x) | split | with_reducible exact Kept.upd (by with_reducible assumption))

theorem loopOp_kept {s₀ : State} (x0 : Nat) (x1 : Engine) (x2 : State) (h : Kept s₀ x2) : Kept s₀ (loopOp x0 x1 x2) := by
  unfold loopOp
  repeat' (first | with_reducible assumption | (intro _) | with_reducible apply State.issue_kept | with_reducible apply State.modCore_kept | with_reducible apply ite_kept | with_reducible apply foldl_kept | with_reducible apply iterate_kept | with_reducible exact Kept.upd (by with_reducible assumption) | (extract_lets +onlyGivenNames x; refine Kept.cut (s₀ := s₀) x ?_ ?_; unfold x; clear x; rotate_left; intro hx; clear_value x; rotate_right) | (extract_lets +onlyGivenNames x; clear_value x))

theorem bar_kept {s₀ : State} (x0 : Nat) (x1 : Engine) (x2 : State) (h : Kept s₀ x2) : Kept s₀ (bar x0 x1 x2) := by
  unfold bar
  repeat' (first | with_reducible assumption | (intro _) | with_reducible apply State.issue_kept | with_reducible apply State.adv_kept | with_reducible apply State.modCore_kept | with_reducible apply State.overrun_kept | with_reducible apply ite_kept | with_reducible apply foldl_kept | with_reducible refine Kept.fst (by with_reducible assumption) ?_ | (extract_lets +onlyGivenNames x; refine Kept.cut (s₀ := s₀) x ?_ ?_; unfold x; clear x; rotate_left; intro hx; clear_value x; rotate_right) | (extract_lets +onlyGivenNames x; clear_value x) | split | with_reducible exact Kept.upd (by with_reducible assumption))

theorem icacheFill_kept {s₀ : State} (x0 : Nat) (x1 : Engine) (x2 : Resp) (x3 : State) (h : Kept s₀ x3) : Kept s₀ (icacheFill x0 x1 x2 x3) := by
  unfold icacheFill
  dsimp only
  split
  · exact h
  · refine ite_kept ?_ h
    split
    · split
      · rename_i hs
        exact State.icFetch_kept _ _ _ _ _ _ (State.passKeys_kept hs h)
      · exact h
    · exact h

theorem State.perfCycles_kept {s₀ : State} (x0 : State) (x1 : Nat) (h : Kept s₀ x0) : Kept s₀ (State.perfCycles x0 x1) := by
  unfold State.perfCycles
  repeat' (first | with_reducible assumption | (intro _) | with_reducible apply State.drawNat_kept | with_reducible apply State.countReg_kept | with_reducible apply ite_kept | with_reducible apply foldl_kept | with_reducible apply iterate_kept | with_reducible exact Kept.upd (by with_reducible assumption) | (extract_lets +onlyGivenNames x; refine Kept.cut (s₀ := s₀) x ?_ ?_; unfold x; clear x; rotate_left; intro hx; clear_value x; rotate_right) | (extract_lets +onlyGivenNames x; clear_value x))

theorem State.recoveryDrops_kept {s₀ : State} (x0 : State) (h : Kept s₀ x0) : Kept s₀ (State.recoveryDrops x0) := by
  unfold State.recoveryDrops
  repeat' (first | with_reducible assumption | with_reducible exact Kept.upd (by with_reducible assumption) | with_reducible apply ite_kept)

theorem State.deliver_kept {s₀ : State} (x0 : State) (x1 : Nat) (x2 : Transfer) (h : Kept s₀ x0) : Kept s₀ (State.deliver x0 x1 x2) := by
  unfold State.deliver
  repeat' (first | with_reducible assumption | (intro _) | with_reducible apply State.setCore_kept | with_reducible apply ite_kept | with_reducible apply foldl_kept | with_reducible refine Kept.fst (by with_reducible assumption) ?_ | (extract_lets +onlyGivenNames x; refine Kept.cut (s₀ := s₀) x ?_ ?_; unfold x; clear x; rotate_left; intro hx; clear_value x; rotate_right) | (extract_lets +onlyGivenNames x; clear_value x) | split | with_reducible exact Kept.upd (by with_reducible assumption))

theorem State.readsSpad_kept {s₀ : State} (x0 : State) (x1 : Nat) (x2 : Transfer) (x3 : Transfer → State → State) (h : Kept s₀ x0) (k3 : ∀ (y0 : Transfer) (y1 : State), Kept s₀ y1 → Kept s₀ (x3 y0 y1)) : Kept s₀ (State.readsSpad x0 x1 x2 x3) := by
  unfold State.readsSpad
  repeat' (first | with_reducible assumption | (intro _) | with_reducible apply k3 | with_reducible apply State.lineCheckFault_kept | with_reducible apply ite_kept | with_reducible apply foldl_kept | with_reducible apply iterate_kept | with_reducible exact Kept.upd (by with_reducible assumption) | (extract_lets +onlyGivenNames x; refine Kept.cut (s₀ := s₀) x ?_ ?_; unfold x; clear x; rotate_left; intro hx; clear_value x; rotate_right) | (extract_lets +onlyGivenNames x; clear_value x))

theorem State.startXfer_kept {s₀ : State} (x0 : State) (x1 : Nat) (x2 : Job) (x3 : Transfer) (h : Kept s₀ x0) : Kept s₀ (State.startXfer x0 x1 x2 x3) := by
  unfold State.startXfer
  repeat' (first | with_reducible assumption | (intro _) | with_reducible apply State.overrun_kept | with_reducible apply State.deliver_kept | with_reducible apply State.setCore_kept | with_reducible apply State.readsSpad_kept | with_reducible apply ite_kept | with_reducible apply foldl_kept | with_reducible apply iterate_kept | with_reducible exact Kept.upd (by with_reducible assumption) | (extract_lets +onlyGivenNames x; refine Kept.cut (s₀ := s₀) x ?_ ?_; unfold x; clear x; rotate_left; intro hx; clear_value x; rotate_right) | (extract_lets +onlyGivenNames x; clear_value x))

theorem State.useSb_kept {s₀ : State} (x0 : State) (x1 : Nat) (x2 : List MapRec) (x3 : State → State) (h : Kept s₀ x0) (k3 : ∀ (y0 : State), Kept s₀ y0 → Kept s₀ (x3 y0)) : Kept s₀ (State.useSb x0 x1 x2 x3) := by
  unfold State.useSb
  repeat' (first | with_reducible assumption | (intro _) | with_reducible apply k3 | with_reducible apply State.poisonFault_kept | with_reducible apply ite_kept | with_reducible apply foldl_kept | with_reducible refine Kept.fst (by with_reducible assumption) ?_ | (extract_lets +onlyGivenNames x; refine Kept.cut (s₀ := s₀) x ?_ ?_; unfold x; clear x; rotate_left; intro hx; clear_value x; rotate_right) | (extract_lets +onlyGivenNames x; clear_value x) | split | with_reducible exact Kept.upd (by with_reducible assumption))

theorem State.useMap_kept {s₀ : State} (x0 : State) (x1 : Nat) (x2 : Job) (x3 : Nat) (x4 : List MapRec → Bool → State → State) (h : Kept s₀ x0) (k4 : ∀ (y0 : List MapRec) (y1 : Bool) (y2 : State), Kept s₀ y2 → Kept s₀ (x4 y0 y1 y2)) : Kept s₀ (State.useMap x0 x1 x2 x3 x4) := by
  unfold State.useMap
  repeat' (first | with_reducible assumption | (intro _) | with_reducible apply k4 | with_reducible apply State.useSb_kept | with_reducible apply ite_kept | with_reducible apply foldl_kept | with_reducible apply iterate_kept | with_reducible exact Kept.upd (by with_reducible assumption) | (extract_lets +onlyGivenNames x; refine Kept.cut (s₀ := s₀) x ?_ ?_; unfold x; clear x; rotate_left; intro hx; clear_value x; rotate_right) | (extract_lets +onlyGivenNames x; clear_value x))

theorem State.freeResp_kept {s₀ : State} (x0 : State) (h : Kept s₀ x0) : Kept s₀ (State.freeResp x0).1 := Kept.upd h

theorem State.shortReads_kept {s₀ s t : State} {n : Nat} {ls : List Nat} {p : Option PInfo}
    (e : s.shortReads n ls = some (t, p)) (h : Kept s₀ s) : Kept s₀ t := by
  induction ls generalizing s t p with
  | nil =>
    cases e
    exact h
  | cons l ls ih =>
    unfold State.shortReads at e
    split at e
    · cases e
    · split at e
      · cases e
      · rename_i u hu
        obtain ⟨x, hx, hy⟩ := Option.map_eq_some_iff.1 e
        cases hy
        exact ih (t := x.1) (p := x.2) hx
          (State.perf_kept _ _ _ _ (State.lineResp_kept _ _ _ _ (State.freeResp_kept _ (State.passKeys_kept hu h))))

theorem State.useDesc_kept {s₀ : State} (x0 : State) (x1 : Nat) (x2 : Job) (x3 : State) (x4 : Nat)
    (x5 : List Byte → State → State) (h : Kept s₀ x0) (hb : Kept s₀ x3)
    (k5 : ∀ (y0 : List Byte) (y1 : State), Kept s₀ y1 → Kept s₀ (x5 y0 y1)) :
    Kept s₀ (State.useDesc x0 x1 x2 x3 x4 x5) := by
  unfold State.useDesc
  refine ite_kept (k5 _ _ h) (ite_kept (k5 _ _ h) ?_)
  dsimp only
  split
  · exact hb
  · rename_i hs
    exact State.poisonFault_kept _ _ _ (State.shortReads_kept hs h)
  · rename_i hs
    exact k5 _ _ (State.shortReads_kept hs h)

theorem State.loadDone_kept {s₀ : State} (x0 : State) (x1 : Nat) (h : Kept s₀ x0) : Kept s₀ (State.loadDone x0 x1) := by
  unfold State.loadDone
  repeat' (first | with_reducible assumption | with_reducible apply State.adv_kept | with_reducible exact Kept.upd (by with_reducible assumption) | with_reducible apply ite_kept)

theorem State.loadBox_kept {s₀ : State} (x0 : State) (x1 : Nat) (x2 : Job) (x3 x4 x5 : Nat)
    (x6 : Tensor → List Int → List Nat → State → (Option Idx → State → State) → State)
    (x7 : Transfer → State → Transfer × State) (h : Kept s₀ x0)
    (hi : ∀ t o e s k, Kept s₀ s → (∀ i s, Kept s₀ s → Kept s₀ (k i s)) → Kept s₀ (x6 t o e s k))
    (hm : ∀ x s, Kept s₀ s → Kept s₀ (x7 x s).2) : Kept s₀ (State.loadBox x0 x1 x2 x3 x4 x5 x6 x7) := by
  unfold State.loadBox
  refine ite_kept h (State.useMap_kept _ _ _ _ _ h fun rs zero s hs => State.useDesc_kept _ _ _ _ _ _ hs h fun d s hs => ?_)
  refine State.useDesc_kept _ _ _ _ _ _ hs h fun sc s hs => hi _ _ _ _ _ hs fun i s hs => ?_
  refine ite_kept (State.xlateFault_kept _ _ hs) ?_
  exact State.loadDone_kept _ _ (State.startXfer_kept _ _ _ _ (hm _ _ (State.modCore_kept _ _ _ hs)))

theorem State.useIdx_kept {s₀ : State} (x0 : Nat) (x1 : Job) (x2 : State) (x3 x4 : Nat) (x5 : Tensor) (x6 : List Int)
    (x7 : List Nat) (x8 : State) (x9 : Option Idx → State → State) (hb : Kept s₀ x2) (h : Kept s₀ x8)
    (k9 : ∀ (y0 : Option Idx) (y1 : State), Kept s₀ y1 → Kept s₀ (x9 y0 y1)) :
    Kept s₀ (State.useIdx x0 x1 x2 x3 x4 x5 x6 x7 x8 x9) := by
  unfold State.useIdx
  refine State.useDesc_kept _ _ _ _ _ _ h hb fun d s hs => ?_
  dsimp only
  refine ite_kept (State.xlateFault_kept _ _ hs) ?_
  split
  · exact State.lineCheckFault_kept _ _ hs
  · exact State.poisonFault_kept _ _ _ hs
  · split
    · exact hb
    · rename_i e
      exact State.poisonFault_kept _ _ _ (State.shortReads_kept e hs)
    · rename_i e
      exact k9 _ _ (State.shortReads_kept e hs)

theorem gather_kept {s₀ : State} (x0 : Nat) (x1 : State) (h : Kept s₀ x1) : Kept s₀ (gather x0 x1) := by
  unfold gather
  refine State.issue_kept _ _ _ _ _ h fun w s hs => ?_
  split
  · exact hs
  · exact State.loadBox_kept _ _ _ _ _ _ _ _ hs (fun t o e s' k hs' hk => State.useIdx_kept _ _ _ _ _ _ _ _ _ _ hs hs' hk)
      (fun x s hs => hs)

theorem State.dupTile_kept {s₀ : State} (x0 : State) (x1 : Nat) (h : Kept s₀ x0) : Kept s₀ (State.dupTile x0 x1) := by
  unfold State.dupTile
  repeat' (first | with_reducible assumption | with_reducible apply State.coreFault_kept | with_reducible apply State.countReg_kept)

theorem wcnt_kept {s₀ : State} (x0 : Nat) (x1 : State) (h : Kept s₀ x1) : Kept s₀ (wcnt x0 x1) := by
  unfold wcnt
  repeat' (first | with_reducible assumption | (intro _) | with_reducible apply State.issue_kept | with_reducible apply State.xlateFault_kept | with_reducible apply State.setCluster_kept | with_reducible apply State.countReg_kept | with_reducible apply State.adv_kept | with_reducible apply State.modCore_kept | with_reducible apply ite_kept | with_reducible apply foldl_kept | with_reducible refine Kept.fst (by with_reducible assumption) ?_ | (extract_lets +onlyGivenNames x; refine Kept.cut (s₀ := s₀) x ?_ ?_; unfold x; clear x; rotate_left; intro hx; clear_value x; rotate_right) | (extract_lets +onlyGivenNames x; clear_value x) | split | with_reducible exact Kept.upd (by with_reducible assumption))

theorem srd_kept {s₀ : State} (x0 : Nat) (x1 : State) (h : Kept s₀ x1) : Kept s₀ (srd x0 x1) := by
  unfold srd
  repeat' (first | with_reducible assumption | (intro _) | with_reducible apply State.issue_kept | with_reducible apply State.adv_kept | with_reducible apply State.modCore_kept | with_reducible apply State.useMap_kept | with_reducible apply State.useDesc_kept | with_reducible apply State.xlateFault_kept | with_reducible apply ite_kept | with_reducible apply foldl_kept | with_reducible refine Kept.fst (by with_reducible assumption) ?_ | (extract_lets +onlyGivenNames x; refine Kept.cut (s₀ := s₀) x ?_ ?_; unfold x; clear x; rotate_left; intro hx; clear_value x; rotate_right) | (extract_lets +onlyGivenNames x; clear_value x) | split | with_reducible exact Kept.upd (by with_reducible assumption))

theorem State.landLine_kept {s₀ : State} (x0 : State) (x1 : Nat) (x2 : Transfer) (x3 : Nat) (x4 : Nat) (x5 : Resp) (x6 : PInfo) (x7 : List Byte) (h : Kept s₀ x0) : Kept s₀ (State.landLine x0 x1 x2 x3 x4 x5 x6 x7) := by
  unfold State.landLine
  repeat' (first | with_reducible assumption | with_reducible apply State.coreFault_kept | with_reducible apply State.modCore_kept | with_reducible apply State.deliver_kept | with_reducible apply State.countReg_kept | with_reducible exact Kept.upd (by with_reducible assumption) | with_reducible apply ite_kept)

theorem State.outScale_kept {s₀ : State} (x0 : State) (x1 : List Byte) (h : Kept s₀ x0) : Kept s₀ (State.outScale x0 x1).1 := by
  unfold State.outScale
  repeat' (first | with_reducible assumption | (intro _) | with_reducible apply State.drawNat_kept | with_reducible apply ite_kept | with_reducible apply foldl_kept | with_reducible refine Kept.fst (by with_reducible assumption) ?_ | (extract_lets +onlyGivenNames x; refine Kept.cut (s₀ := s₀) x ?_ ?_; unfold x; clear x; rotate_left; intro hx; clear_value x; rotate_right) | (extract_lets +onlyGivenNames x; clear_value x) | split | with_reducible exact Kept.upd (by with_reducible assumption))

theorem State.putSpan_kept {s₀ : State} (x0 : State) (x1 : Owner) (x2 : Bool) (x3 : Nat) (x4 : List (Nat × Nat)) (h : Kept s₀ x0) : Kept s₀ (State.putSpan x0 x1 x2 x3 x4) := by
  unfold State.putSpan
  repeat' (first | with_reducible assumption | with_reducible apply State.storeLine_kept | with_reducible apply State.modCore_kept | with_reducible apply State.keyWrite_kept | with_reducible exact Kept.upd (by with_reducible assumption) | with_reducible apply ite_kept)

theorem State.putWMap_kept {s₀ : State} (x0 : State) (x1 : Owner) (x2 : Bool) (x3 : WMap) (h : Kept s₀ x0) : Kept s₀ (State.putWMap x0 x1 x2 x3) := by
  unfold State.putWMap
  repeat' (first | with_reducible assumption | (intro _) | with_reducible apply State.putSpan_kept | with_reducible apply ite_kept | with_reducible apply foldl_kept | with_reducible apply iterate_kept | with_reducible exact Kept.upd (by with_reducible assumption) | (extract_lets +onlyGivenNames x; refine Kept.cut (s₀ := s₀) x ?_ ?_; unfold x; clear x; rotate_left; intro hx; clear_value x; rotate_right) | (extract_lets +onlyGivenNames x; clear_value x))

theorem swr_kept {s₀ : State} (x0 : Nat) (x1 : State) (h : Kept s₀ x1) : Kept s₀ (swr x0 x1) := by
  unfold swr
  repeat' (first | with_reducible assumption | (intro _) | with_reducible apply State.issue_kept | with_reducible apply State.poisonFault_kept | with_reducible apply State.adv_kept | with_reducible apply State.keyWrite_kept | with_reducible apply State.useMap_kept | with_reducible apply State.useDesc_kept | with_reducible apply State.xlateFault_kept | with_reducible apply State.modCluster_kept | with_reducible apply State.modCore_kept | with_reducible apply State.putWMap_kept | with_reducible apply ite_kept | with_reducible apply foldl_kept | with_reducible refine Kept.fst (by with_reducible assumption) ?_ | (extract_lets +onlyGivenNames x; refine Kept.cut (s₀ := s₀) x ?_ ?_; unfold x; clear x; rotate_left; intro hx; clear_value x; rotate_right) | (extract_lets +onlyGivenNames x; clear_value x) | split | with_reducible exact Kept.upd (by with_reducible assumption))

theorem shortResponse_kept {s₀ : State} (x0 : Nat) (x1 : Nat) (x2 : Resp) (x3 : State) (h : Kept s₀ x3) : Kept s₀ (shortResponse x0 x1 x2 x3) := by
  unfold shortResponse
  dsimp only
  refine ite_kept h ?_
  split
  · exact State.setCore_kept _ _ _ h
  · split
    · exact State.lineCheckFault_kept _ _ h
    · exact h
    · rename_i hs _
      refine State.setCore_kept _ _ _ (foldl_fst_kept _ _ _ (fun p a hp => ?_) (State.passKeys_kept hs h))
      exact State.lineResp_kept _ _ _ _ hp
  · exact h

theorem State.joinSource_kept {s₀ : State} (x0 : State) (x1 : Nat) (x2 : Nat) (x3 : Nat) (x4 : Transfer) (h : Kept s₀ x0) : Kept s₀ (State.joinSource x0 x1 x2 x3 x4) := by
  unfold State.joinSource
  repeat' (first | with_reducible assumption | (intro _) | with_reducible apply State.modCore_kept | with_reducible apply State.countReg_kept | with_reducible apply State.deliver_kept | with_reducible apply State.overrun_kept | with_reducible apply ite_kept | with_reducible apply foldl_kept | with_reducible refine Kept.fst (by with_reducible assumption) ?_ | (extract_lets +onlyGivenNames x; refine Kept.cut (s₀ := s₀) x ?_ ?_; unfold x; clear x; rotate_left; intro hx; clear_value x; rotate_right) | (extract_lets +onlyGivenNames x; clear_value x) | split | with_reducible exact Kept.upd (by with_reducible assumption))

theorem mcastSourceIssue_kept {s₀ : State} (x0 : Nat) (x1 : State) (h : Kept s₀ x1) : Kept s₀ (mcastSourceIssue x0 x1) := by
  unfold mcastSourceIssue
  repeat' (first | with_reducible assumption | (intro _) | with_reducible apply State.drawNat_kept | with_reducible apply State.readsSpad_kept | with_reducible apply State.countReg_kept | with_reducible apply State.modCore_kept | with_reducible apply State.deliver_kept | with_reducible apply State.joinSource_kept | with_reducible apply ite_kept | with_reducible apply foldl_kept | with_reducible refine Kept.fst (by with_reducible assumption) ?_ | (extract_lets +onlyGivenNames x; refine Kept.cut (s₀ := s₀) x ?_ ?_; unfold x; clear x; rotate_left; intro hx; clear_value x; rotate_right) | (extract_lets +onlyGivenNames x; clear_value x) | split | with_reducible exact Kept.upd (by with_reducible assumption))

theorem noIdx_kept {s₀ : State} (t o e s k) (h : Kept s₀ s) (hk : ∀ i s, Kept s₀ s → Kept s₀ (k i s)) :
    Kept s₀ (noIdx t o e s k) := hk _ _ h

theorem State.useParam_kept {s₀ : State} (x0 : State) (x1 : Nat) (x2 : Job) (x3 : State) (x4 : Nat)
    (x5 : ParamDescs → State → State) (h : Kept s₀ x0) (hb : Kept s₀ x3)
    (k5 : ∀ (y0 : ParamDescs) (y1 : State), Kept s₀ y1 → Kept s₀ (x5 y0 y1)) :
    Kept s₀ (State.useParam x0 x1 x2 x3 x4 x5) := by
  unfold State.useParam
  refine State.useDesc_kept _ _ _ _ _ _ h hb fun pd s h => State.useDesc_kept _ _ _ _ _ _ h hb fun sa s h => ?_
  refine State.useDesc_kept _ _ _ _ _ _ h hb fun sw s h => State.useDesc_kept _ _ _ _ _ _ h hb fun so s h => ?_
  refine State.useDesc_kept _ _ _ _ _ _ h hb fun bd s h => State.useDesc_kept _ _ _ _ _ _ h hb fun wd s h => ?_
  exact k5 _ _ h

theorem tileResponse_kept {s₀ : State} (x0 : Nat) (x1 : Nat) (x2 : Nat) (x3 : Resp) (x4 : State) (h : Kept s₀ x4) : Kept s₀ (tileResponse x0 x1 x2 x3 x4) := by
  unfold tileResponse
  dsimp only
  split
  · split
    · exact h
    · rename_i hs
      have ht := fun l => State.lineResp_kept _ x0 l x3 (State.passKeys_kept hs h)
      split
      · exact State.landLine_kept _ _ _ _ _ _ _ _ (ht _)
      · refine foldl_kept _ _ _ (fun s m hs => ?_) (State.landLine_kept _ _ _ _ _ _ _ _ (ht _))
        split
        · exact hs
        · split
          · exact ite_kept hs (State.landLine_kept _ _ _ _ _ _ _ _ hs)
          · exact hs
  · exact h

theorem State.sendStore_kept {s₀ : State} (x0 : State) (x1 : Nat) (x2 : Tensor) (x3 : List Nat) (x4 : WMap) (h : Kept s₀ x0) : Kept s₀ (State.sendStore x0 x1 x2 x3 x4) := by
  unfold State.sendStore
  repeat' (first | with_reducible assumption | with_reducible apply State.putWMap_kept | with_reducible apply State.overrun_kept | with_reducible exact Kept.upd (by with_reducible assumption) | with_reducible apply ite_kept)

theorem ldp_kept {s₀ : State} (x0 : Nat) (x1 : State) (h : Kept s₀ x1) : Kept s₀ (ldp x0 x1) := by
  unfold ldp
  repeat' (first | with_reducible assumption | (intro _) | with_reducible apply State.issue_kept | with_reducible apply State.useMap_kept | with_reducible apply State.useParam_kept | with_reducible apply State.xlateFault_kept | with_reducible apply State.outScale_kept | with_reducible apply State.loadDone_kept | with_reducible apply State.startXfer_kept | with_reducible apply ite_kept | with_reducible apply foldl_kept | with_reducible refine Kept.fst (by with_reducible assumption) ?_ | (extract_lets +onlyGivenNames x; refine Kept.cut (s₀ := s₀) x ?_ ?_; unfold x; clear x; rotate_left; intro hx; clear_value x; rotate_right) | (extract_lets +onlyGivenNames x; clear_value x) | split | with_reducible exact Kept.upd (by with_reducible assumption))

theorem State.mcCount_kept {s₀ : State} (x0 : State) (x1 : Nat) (x2 : Job) (x3 : Nat) (h : Kept s₀ x0) : Kept s₀ (State.mcCount x0 x1 x2 x3).1 := Kept.upd h

theorem markGroup_kept {s₀ : State} (n : Nat) (j : Job) (g : Nat) (b : Bool) (x : Transfer) (s : State) (h : Kept s₀ s) :
    Kept s₀ (markGroup n j g b x s).2 := State.mcCount_kept _ _ _ _ h

theorem rcv_kept {s₀ : State} (x0 : Nat) (x1 : State) (h : Kept s₀ x1) : Kept s₀ (rcv x0 x1) := by
  unfold rcv
  refine State.issue_kept _ _ _ _ _ h fun w s hs => ?_
  split
  · exact hs
  · exact ite_kept (State.loadBox_kept _ _ _ _ _ _ _ _ hs noIdx_kept (markGroup_kept _ _ _ _)) (State.overrun_kept _ _ hs)

theorem State.storeBox_kept {s₀ : State} (x0 : State) (x1 : Nat) (x2 : Job) (x3 x4 : Nat)
    (x5 : Tensor → List Int → List Nat → State → (Option Idx → State → State) → State) (h : Kept s₀ x0)
    (hi : ∀ t o e s k, Kept s₀ s → (∀ i s, Kept s₀ s → Kept s₀ (k i s)) → Kept s₀ (x5 t o e s k)) :
    Kept s₀ (State.storeBox x0 x1 x2 x3 x4 x5) := by
  unfold State.storeBox
  split
  · exact h
  · refine State.useMap_kept _ _ _ _ _ h fun rs zero s hs => State.useDesc_kept _ _ _ _ _ _ hs h fun d s hs => ?_
    refine hi _ _ _ _ _ hs fun i s hs => ?_
    refine ite_kept (State.xlateFault_kept _ _ hs) (State.readSpad_kept _ _ _ _ _ hs fun data => ?_)
    refine State.loadDone_kept _ _ (State.perfCycles_kept _ _ (State.sendStore_kept _ _ _ _ _ ?_))
    exact State.modCore_kept _ _ _ (State.modCore_kept _ _ _ hs)

theorem scatter_kept {s₀ : State} (x0 : Nat) (x1 : State) (h : Kept s₀ x1) : Kept s₀ (scatter x0 x1) := by
  unfold scatter
  refine State.issue_kept _ _ _ _ _ h fun w s hs => ?_
  split
  · exact hs
  · exact State.storeBox_kept _ _ _ _ _ _ hs
      (fun t o e s' k hs' hk => State.useIdx_kept _ _ _ _ _ _ _ _ _ _ hs hs' hk)

theorem st_kept {s₀ : State} (x0 : Nat) (x1 : State) (h : Kept s₀ x1) : Kept s₀ (st x0 x1) := by
  unfold st
  refine State.issue_kept _ _ _ _ _ h fun w s hs => ?_
  split
  · exact hs
  · exact State.storeBox_kept _ _ _ _ _ _ hs noIdx_kept

theorem ticketedStoreAccept_kept {s₀ : State} (x0 : Nat) (x1 : State) (h : Kept s₀ x1) : Kept s₀ (ticketedStoreAccept x0 x1) := by
  unfold ticketedStoreAccept
  repeat' (first | with_reducible assumption | (intro _) | with_reducible apply State.setCore_kept | with_reducible apply State.dupTile_kept | with_reducible apply State.setCluster_kept | with_reducible apply ite_kept | with_reducible apply foldl_kept | with_reducible refine Kept.fst (by with_reducible assumption) ?_ | (extract_lets +onlyGivenNames x; refine Kept.cut (s₀ := s₀) x ?_ ?_; unfold x; clear x; rotate_left; intro hx; clear_value x; rotate_right) | (extract_lets +onlyGivenNames x; clear_value x) | split | with_reducible exact Kept.upd (by with_reducible assumption))

theorem ld_kept {s₀ : State} (x0 : Nat) (x1 : State) (h : Kept s₀ x1) : Kept s₀ (ld x0 x1) := by
  unfold ld
  refine State.issue_kept _ _ _ _ _ h fun w s hs => ?_
  split
  · exact hs
  · refine State.loadBox_kept _ _ _ _ _ _ _ _ hs noIdx_kept fun x s hs => ?_
    split
    · split
      · exact markGroup_kept _ _ _ _ _ _ hs
      · split
        · exact markGroup_kept _ _ _ _ _ _ hs
        · exact hs
    · exact hs

theorem wcntResponse_kept {s₀ : State} (x0 : Nat) (x1 : Nat) (x2 : Bool) (x3 : State) (h : Kept s₀ x3) : Kept s₀ (wcntResponse x0 x1 x2 x3) := by
  unfold wcntResponse
  repeat' (first | with_reducible assumption | (intro _) | with_reducible apply State.setCore_kept | with_reducible apply State.coreFault_kept | with_reducible apply ite_kept | with_reducible apply foldl_kept | with_reducible refine Kept.fst (by with_reducible assumption) ?_ | (extract_lets +onlyGivenNames x; refine Kept.cut (s₀ := s₀) x ?_ ?_; unfold x; clear x; rotate_left; intro hx; clear_value x; rotate_right) | (extract_lets +onlyGivenNames x; clear_value x) | split | with_reducible exact Kept.upd (by with_reducible assumption))

theorem State.tileFault_kept {s₀ : State} (x0 : State) (x1 : Nat) (x2 : List Nat × List Nat × Bool) (h : Kept s₀ x0) : Kept s₀ (State.tileFault x0 x1 x2) := by
  unfold State.tileFault
  repeat' (first | with_reducible assumption | with_reducible apply State.coreFault_kept)

theorem State.readTile_kept {s₀ : State} (x0 : State) (x1 : Nat) (x2 : Nat) (x3 : State → State) (h : Kept s₀ x0) (k3 : ∀ (y0 : State), Kept s₀ y0 → Kept s₀ (x3 y0)) : Kept s₀ (State.readTile x0 x1 x2 x3) := by
  unfold State.readTile
  repeat' (first | with_reducible assumption | (intro _) | with_reducible apply k3 | with_reducible apply State.countReg_kept | with_reducible apply State.tileFault_kept | with_reducible apply ite_kept | with_reducible apply foldl_kept | with_reducible apply iterate_kept | with_reducible exact Kept.upd (by with_reducible assumption) | (extract_lets +onlyGivenNames x; refine Kept.cut (s₀ := s₀) x ?_ ?_; unfold x; clear x; rotate_left; intro hx; clear_value x; rotate_right) | (extract_lets +onlyGivenNames x; clear_value x))

theorem State.osCounts_kept {s₀ : State} (x0 : State) (x1 : Nat) (x2 : Param) (x3 : Tile) (x4 : Pass) (x5 : Pass) (h : Kept s₀ x0) : Kept s₀ (State.osCounts x0 x1 x2 x3 x4 x5) := by
  unfold State.osCounts
  repeat' (first | with_reducible assumption | with_reducible apply State.countReg_kept | with_reducible apply State.perf_kept)

theorem State.osStores_kept {s₀ : State} (x0 : State) (x1 : Nat) (x2 : Job) (x3 : State → State) (x4 : List (Nat × List Byte)) (h : Kept s₀ x0) (k3 : ∀ (y0 : State), Kept s₀ y0 → Kept s₀ (x3 y0)) : Kept s₀ (State.osStores x0 x1 x2 x3 x4) := by
  induction x4 generalizing x0 with
  | nil => exact k3 _ h
  | cons p l ih =>
    unfold State.osStores
    split
    · exact State.xlateFault_kept _ _ h
    · exact ih _ (State.keyWrite_kept _ _ _ _ _ h)

theorem State.osRun_kept {s₀ : State} (x0 : State) (x1 : Nat) (x2 : Job) (x3 : OsEnt) (x4 : Param) (x5 : State → State) (h : Kept s₀ x0) (k5 : ∀ (y0 : State), Kept s₀ y0 → Kept s₀ (x5 y0)) : Kept s₀ (State.osRun x0 x1 x2 x3 x4 x5) := by
  unfold State.osRun
  repeat' (first | with_reducible assumption | (intro _) | with_reducible apply k5 | with_reducible apply State.osCounts_kept | with_reducible apply State.modCore_kept | with_reducible apply State.osStores_kept | with_reducible apply ite_kept | with_reducible apply foldl_kept | with_reducible refine Kept.fst (by with_reducible assumption) ?_ | (extract_lets +onlyGivenNames x; refine Kept.cut (s₀ := s₀) x ?_ ?_; unfold x; clear x; rotate_left; intro hx; clear_value x; rotate_right) | (extract_lets +onlyGivenNames x; clear_value x) | split | with_reducible exact Kept.upd (by with_reducible assumption))

theorem State.osTileRead_kept {s₀ : State} (x0 : State) (x1 : Nat) (x2 : Job) (x3 : OsEnt) (x4 : State → State) (h : Kept s₀ x0) (k4 : ∀ (y0 : State), Kept s₀ y0 → Kept s₀ (x4 y0)) : Kept s₀ (State.osTileRead x0 x1 x2 x3 x4) := by
  unfold State.osTileRead
  repeat' (first | with_reducible assumption | (intro _) | with_reducible apply k4 | with_reducible apply State.overrun_kept | with_reducible apply State.readTile_kept | with_reducible apply State.osRun_kept | with_reducible apply ite_kept | with_reducible apply foldl_kept | with_reducible apply iterate_kept | with_reducible exact Kept.upd (by with_reducible assumption) | (extract_lets +onlyGivenNames x; refine Kept.cut (s₀ := s₀) x ?_ ?_; unfold x; clear x; rotate_left; intro hx; clear_value x; rotate_right) | (extract_lets +onlyGivenNames x; clear_value x))

theorem State.osPump_kept {s₀ : State} (x0 : State) (x1 : Nat) (x2 : Nat) (h : Kept s₀ x0) : Kept s₀ (State.osPump x0 x1 x2) := by
  induction x2 generalizing x0 with
  | zero => exact h
  | succ k ih =>
    unfold State.osPump
    split
    · exact ite_kept (ih _ (State.osTileRead_kept _ _ _ _ _ (State.modCore_kept _ _ _ h) fun s hs => hs)) h
    · exact h

theorem State.arrayIssue_kept {s₀ : State} (x0 : State) (x1 : Nat) (x2 : Nat) (x3 : Job) (x4 : Bool) (x5 : Token) (x6 : Token) (h : Kept s₀ x0) : Kept s₀ (State.arrayIssue x0 x1 x2 x3 x4 x5 x6) := by
  unfold State.arrayIssue
  repeat' (first | with_reducible assumption | (intro _) | with_reducible apply State.overrun_kept | with_reducible apply State.lineCheckFault_kept | with_reducible apply State.poisonFault_kept | with_reducible apply State.adv_kept | with_reducible apply State.modCore_kept | with_reducible apply ite_kept | with_reducible apply foldl_kept | with_reducible refine Kept.fst (by with_reducible assumption) ?_ | (extract_lets +onlyGivenNames x; refine Kept.cut (s₀ := s₀) x ?_ ?_; unfold x; clear x; rotate_left; intro hx; clear_value x; rotate_right) | (extract_lets +onlyGivenNames x; clear_value x) | split | with_reducible exact Kept.upd (by with_reducible assumption))

theorem State.accRange_kept {s₀ : State} (x0 : State) (x1 : Nat) (h : Kept s₀ x0) : Kept s₀ (State.accRange x0 x1) := by
  unfold State.accRange
  repeat' (first | with_reducible assumption | with_reducible apply State.coreFault_kept)

theorem State.useToken_kept {s₀ : State} (x0 : State) (x1 : Nat) (x2 : Nat) (x3 : Bool) (x4 : Bool) (x5 : Token → State → State) (h : Kept s₀ x0) (k5 : ∀ (y0 : Token) (y1 : State), Kept s₀ y1 → Kept s₀ (x5 y0 y1)) : Kept s₀ (State.useToken x0 x1 x2 x3 x4 x5) := by
  unfold State.useToken
  repeat' (first | with_reducible assumption | (intro _) | with_reducible apply k5 | with_reducible apply State.overrun_kept | with_reducible apply State.modCore_kept | with_reducible apply ite_kept | with_reducible apply foldl_kept | with_reducible refine Kept.fst (by with_reducible assumption) ?_ | (extract_lets +onlyGivenNames x; refine Kept.cut (s₀ := s₀) x ?_ ?_; unfold x; clear x; rotate_left; intro hx; clear_value x; rotate_right) | (extract_lets +onlyGivenNames x; clear_value x) | split | with_reducible exact Kept.upd (by with_reducible assumption))

theorem os_kept {s₀ : State} (x0 : Nat) (x1 : State) (h : Kept s₀ x1) : Kept s₀ (os x0 x1) := by
  unfold os
  repeat' (first | with_reducible assumption | (intro _) | with_reducible apply State.issue_kept | with_reducible apply State.accRange_kept | with_reducible apply State.useToken_kept | with_reducible apply State.overrun_kept | with_reducible apply State.readSpad_kept | with_reducible apply State.modCore_kept | with_reducible apply State.osTileRead_kept | with_reducible apply State.adv_kept | with_reducible apply ite_kept | with_reducible apply foldl_kept | with_reducible refine Kept.fst (by with_reducible assumption) ?_ | (extract_lets +onlyGivenNames x; refine Kept.cut (s₀ := s₀) x ?_ ?_; unfold x; clear x; rotate_left; intro hx; clear_value x; rotate_right) | (extract_lets +onlyGivenNames x; clear_value x) | split | with_reducible exact Kept.upd (by with_reducible assumption))

theorem arrayOp_kept {s₀ : State} (x0 : Nat) (x1 : Nat) (x2 : State) (h : Kept s₀ x2) : Kept s₀ (arrayOp x0 x1 x2) := by
  unfold arrayOp
  repeat' (first | with_reducible assumption | (intro _) | with_reducible apply State.issue_kept | with_reducible apply State.accRange_kept | with_reducible apply State.useToken_kept | with_reducible apply State.arrayIssue_kept | with_reducible apply ite_kept | with_reducible apply foldl_kept | with_reducible refine Kept.fst (by with_reducible assumption) ?_ | (extract_lets +onlyGivenNames x; refine Kept.cut (s₀ := s₀) x ?_ ?_; unfold x; clear x; rotate_left; intro hx; clear_value x; rotate_right) | (extract_lets +onlyGivenNames x; clear_value x) | split | with_reducible exact Kept.upd (by with_reducible assumption))

theorem State.drainFault_kept {s₀ : State} (x0 : State) (x1 : Nat) (x2 : List Nat × List Nat × Bool) (h : Kept s₀ x0) : Kept s₀ (State.drainFault x0 x1 x2) := by
  unfold State.drainFault
  repeat' (first | with_reducible assumption | (intro _) | with_reducible apply State.coreFault_kept | with_reducible apply ite_kept | with_reducible apply foldl_kept | with_reducible refine Kept.fst (by with_reducible assumption) ?_ | (extract_lets +onlyGivenNames x; refine Kept.cut (s₀ := s₀) x ?_ ?_; unfold x; clear x; rotate_left; intro hx; clear_value x; rotate_right) | (extract_lets +onlyGivenNames x; clear_value x) | split | with_reducible exact Kept.upd (by with_reducible assumption))

theorem arrayDrain_kept {s₀ : State} (x0 : Nat) (x1 : Option (Fin 33 × Fin 33 × Int)) (x2 : State) (h : Kept s₀ x2) : Kept s₀ (arrayDrain x0 x1 x2) := by
  unfold arrayDrain
  repeat' (first | with_reducible assumption | (intro _) | with_reducible apply State.countReg_kept | with_reducible apply State.drawNat_kept | with_reducible apply State.perfCycles_kept | with_reducible apply State.drainFault_kept | with_reducible apply State.osPump_kept | with_reducible apply State.modCore_kept | with_reducible apply ite_kept | with_reducible apply foldl_kept | with_reducible refine Kept.fst (by with_reducible assumption) ?_ | (extract_lets +onlyGivenNames x; refine Kept.cut (s₀ := s₀) x ?_ ?_; unfold x; clear x; rotate_left; intro hx; clear_value x; rotate_right) | (extract_lets +onlyGivenNames x; clear_value x) | split | with_reducible exact Kept.upd (by with_reducible assumption))

theorem droopDetect_kept {s₀ : State} (x0 : Nat) (x1 : State) (h : Kept s₀ x1) : Kept s₀ (droopDetect x0 x1) := by
  unfold droopDetect
  repeat' (first | with_reducible assumption | with_reducible apply State.incReg_kept | with_reducible apply State.modCluster_kept | with_reducible exact Kept.upd (by with_reducible assumption) | with_reducible apply ite_kept)

theorem State.applySetCap_kept {s₀ : State} (x0 : State) (h : Kept s₀ x0) : Kept s₀ (State.applySetCap x0) := by
  unfold State.applySetCap
  repeat' (first | with_reducible assumption | (intro _) | with_reducible apply State.setRn_kept | with_reducible apply State.auditIfLocked_kept | with_reducible apply State.modReel_kept | with_reducible apply State.complete_kept | with_reducible apply ite_kept | with_reducible apply foldl_kept | with_reducible apply iterate_kept | with_reducible exact Kept.upd (by with_reducible assumption) | (extract_lets +onlyGivenNames x; refine Kept.cut (s₀ := s₀) x ?_ ?_; unfold x; clear x; rotate_left; intro hx; clear_value x; rotate_right) | (extract_lets +onlyGivenNames x; clear_value x))

theorem State.newEstimates_kept {s₀ : State} (x0 : State) (h : Kept s₀ x0) : Kept s₀ (State.newEstimates x0) := by
  unfold State.newEstimates
  extract_lets draw x
  have hx : Kept s₀ x := foldl_fst_kept _ _ _ (fun p a hp => State.drawNat_kept p.1 20 hp) h
  clear_value x
  exact State.setRn_kept _ _ _ _ (State.setRn_kept _ _ _ _ (Kept.upd hx))

theorem State.learn_kept {s₀ : State} (x0 : State) (x1 : Nat) (h : Kept s₀ x0) : Kept s₀ (State.learn x0 x1) := by
  unfold State.learn
  repeat' (first | with_reducible assumption | (intro _) | with_reducible apply State.setWin_kept | with_reducible apply ite_kept | with_reducible apply foldl_kept | with_reducible refine Kept.fst (by with_reducible assumption) ?_ | (extract_lets +onlyGivenNames x; refine Kept.cut (s₀ := s₀) x ?_ ?_; unfold x; clear x; rotate_left; intro hx; clear_value x; rotate_right) | (extract_lets +onlyGivenNames x; clear_value x) | split | with_reducible exact Kept.upd (by with_reducible assumption))

theorem State.dutyDown_kept {s₀ : State} (x0 : State) (x1 : Nat) (h : Kept s₀ x0) : Kept s₀ (State.dutyDown x0 x1) := Kept.upd h

theorem State.gafFlag_kept {s₀ : State} (x0 : State) (x1 : Nat) (x2 : Nat) (x3 : Bool) (h : Kept s₀ x0) : Kept s₀ (State.gafFlag x0 x1 x2 x3) := by
  unfold State.gafFlag
  repeat' (first | with_reducible assumption | with_reducible apply State.raise_kept | with_reducible apply State.setRn_kept | with_reducible exact Kept.upd (by with_reducible assumption) | with_reducible apply ite_kept)

theorem State.applyCap_kept {s₀ : State} (x0 : State) (x1 : List Nat) (h : Kept s₀ x0) : Kept s₀ (State.applyCap x0 x1) := by
  unfold State.applyCap
  repeat' (first | with_reducible assumption | (intro _) | with_reducible apply State.modCluster_kept | with_reducible apply State.incReg_kept | with_reducible apply State.dutyDown_kept | with_reducible apply State.gafFlag_kept | with_reducible apply ite_kept | with_reducible apply foldl_kept | with_reducible refine Kept.fst (by with_reducible assumption) ?_ | (extract_lets +onlyGivenNames x; refine Kept.cut (s₀ := s₀) x ?_ ?_; unfold x; clear x; rotate_left; intro hx; clear_value x; rotate_right) | (extract_lets +onlyGivenNames x; clear_value x) | split | with_reducible exact Kept.upd (by with_reducible assumption))

theorem State.actuate_kept {s₀ : State} (x0 : State) (x1 : Nat) (h : Kept s₀ x0) : Kept s₀ (State.actuate x0 x1) := Kept.upd h

theorem State.riskOf_kept {s₀ : State} (x0 : State) (x1 : Job) (h : Kept s₀ x0) : Kept s₀ (State.riskOf x0 x1) := by
  unfold State.riskOf
  repeat' (first | with_reducible assumption | (intro _) | with_reducible apply State.drawNat_kept | with_reducible apply State.modJob_kept | with_reducible apply State.raise_kept | with_reducible apply State.setRn_kept | with_reducible apply ite_kept | with_reducible apply foldl_kept | with_reducible refine Kept.fst (by with_reducible assumption) ?_ | (extract_lets +onlyGivenNames x; refine Kept.cut (s₀ := s₀) x ?_ ?_; unfold x; clear x; rotate_left; intro hx; clear_value x; rotate_right) | (extract_lets +onlyGivenNames x; clear_value x) | split | with_reducible exact Kept.upd (by with_reducible assumption))

theorem gafferUpdate_kept {s₀ : State} (x0 : State) (h : Kept s₀ x0) : Kept s₀ (gafferUpdate x0) := by
  unfold gafferUpdate
  repeat' (first | with_reducible assumption | (intro _) | with_reducible apply State.applySetCap_kept | with_reducible apply State.newEstimates_kept | with_reducible apply State.learn_kept | with_reducible apply State.modCluster_kept | with_reducible apply State.applyCap_kept | with_reducible apply State.actuate_kept | with_reducible apply State.riskOf_kept | with_reducible apply ite_kept | with_reducible apply ite_fst_kept | with_reducible apply foldl_kept | with_reducible apply foldl_fst_kept | with_reducible apply iterate_kept | with_reducible refine Kept.fst (by with_reducible assumption) ?_ | with_reducible refine State.takeMsg_kept (by with_reducible assumption) ?_ | (extract_lets +onlyGivenNames x; refine Kept.cut (s₀ := s₀) x ?_ ?_; unfold x; clear x; rotate_left; intro hx; clear_value x; rotate_right) | (extract_lets +onlyGivenNames x; refine Kept.cutF (s₀ := s₀) x ?_ ?_; unfold x; clear x; rotate_left; intro hxf; clear_value x; rotate_right) | with_reducible apply hxf | (extract_lets +onlyGivenNames x; clear_value x) | split | with_reducible exact Kept.upd (by with_reducible assumption) | (with_reducible refine Kept.upd ?_; first | with_reducible apply State.applySetCap_kept | with_reducible apply State.newEstimates_kept | with_reducible apply State.learn_kept | with_reducible apply State.modCluster_kept | with_reducible apply State.applyCap_kept | with_reducible apply State.actuate_kept | with_reducible apply State.riskOf_kept | with_reducible apply ite_kept | with_reducible apply foldl_kept | with_reducible apply iterate_kept) | dsimp only)

theorem State.claimCeiling_kept {s₀ : State} (x0 : State) (x1 : Nat) (h : Kept s₀ x0) : Kept s₀ (State.claimCeiling x0 x1) := Kept.upd h

theorem State.phaseEnds_kept {s₀ : State} (x0 : State) (x1 : Nat) (x2 : BitVec 16) (h : Kept s₀ x0) : Kept s₀ (State.phaseEnds x0 x1 x2) := by
  unfold State.phaseEnds
  repeat' (first | with_reducible assumption | (intro _) | with_reducible apply State.setWin_kept | with_reducible apply ite_kept | with_reducible apply foldl_kept | with_reducible refine Kept.fst (by with_reducible assumption) ?_ | (extract_lets +onlyGivenNames x; refine Kept.cut (s₀ := s₀) x ?_ ?_; unfold x; clear x; rotate_left; intro hx; clear_value x; rotate_right) | (extract_lets +onlyGivenNames x; clear_value x) | split | with_reducible exact Kept.upd (by with_reducible assumption))

theorem barWaitWindow_kept {s₀ : State} (x0 : List (Nat × Nat)) (x1 : State) (h : Kept s₀ x1) : Kept s₀ (barWaitWindow x0 x1) := by
  unfold barWaitWindow
  repeat' (first | with_reducible assumption | (intro _) | with_reducible apply State.modCluster_kept | with_reducible apply ite_kept | with_reducible apply foldl_kept | with_reducible apply iterate_kept | with_reducible exact Kept.upd (by with_reducible assumption) | (extract_lets +onlyGivenNames x; refine Kept.cut (s₀ := s₀) x ?_ ?_; unfold x; clear x; rotate_left; intro hx; clear_value x; rotate_right) | (extract_lets +onlyGivenNames x; clear_value x))

theorem opSwitch_kept {s₀ : State} (x0 : Nat) (x1 : State) (h : Kept s₀ x1) : Kept s₀ (opSwitch x0 x1) := by
  unfold opSwitch
  repeat' (first | with_reducible assumption | (intro _) | with_reducible apply State.incReg_kept | with_reducible apply State.setCluster_kept | with_reducible apply ite_kept | with_reducible apply foldl_kept | with_reducible refine Kept.fst (by with_reducible assumption) ?_ | (extract_lets +onlyGivenNames x; refine Kept.cut (s₀ := s₀) x ?_ ?_; unfold x; clear x; rotate_left; intro hx; clear_value x; rotate_right) | (extract_lets +onlyGivenNames x; clear_value x) | split | with_reducible exact Kept.upd (by with_reducible assumption))

theorem State.toFallback_kept {s₀ : State} (x0 : State) (x1 : Nat) (h : Kept s₀ x0) : Kept s₀ (State.toFallback x0 x1) := by
  unfold State.toFallback
  repeat' (first | with_reducible assumption | with_reducible apply State.dutyDown_kept | with_reducible apply State.actuate_kept | with_reducible apply State.modCluster_kept | with_reducible exact Kept.upd (by with_reducible assumption) | with_reducible apply ite_kept)

theorem prochotRelease_kept {s₀ : State} (x0 : State) (h : Kept s₀ x0) : Kept s₀ (prochotRelease x0) := by
  unfold prochotRelease
  repeat' (first | with_reducible assumption | with_reducible exact Kept.upd (by with_reducible assumption) | with_reducible apply ite_kept)

theorem State.explains_kept {s₀ : State} (x0 : State) (h : Kept s₀ x0) : Kept s₀ (State.explains x0) := Kept.upd h

theorem sagWarn_kept {s₀ : State} (x0 : Nat) (x1 : State) (h : Kept s₀ x1) : Kept s₀ (sagWarn x0 x1) := by
  unfold sagWarn
  repeat' (first | with_reducible assumption | with_reducible apply State.incReg_kept | with_reducible apply State.setRn_kept | with_reducible apply State.raise_kept | with_reducible apply State.explains_kept | with_reducible apply State.toFallback_kept | with_reducible apply ite_kept | with_reducible exact Kept.upd (by with_reducible assumption) | (extract_lets +onlyGivenNames x; refine Kept.cut (s₀ := s₀) x ?_ ?_; unfold x; clear x; rotate_left; intro hx; clear_value x; rotate_right) | (extract_lets +onlyGivenNames x; clear_value x))

theorem calibrationUpdate_kept {s₀ : State} (x0 : List (Option Nat)) (x1 : State) (h : Kept s₀ x1) : Kept s₀ (calibrationUpdate x0 x1) := by
  unfold calibrationUpdate
  refine State.gafFlag_kept _ _ _ _ (State.gafFlag_kept _ _ _ _ (foldl_kept _ _ _ ?_ ?_))
  · intro s a hs
    exact State.setRn_kept _ _ _ _ hs
  · refine State.setRn_kept _ _ _ _ (Kept.upd (foldl_kept _ _ _ ?_ h))
    intro s a hs
    dsimp only
    split
    · exact Kept.upd hs
    · exact Kept.upd hs
    · exact Kept.upd (State.drawNat_kept _ _ hs)

theorem thermalCeilingWindow_kept {s₀ : State} (x0 : Bool) (x1 : State) (h : Kept s₀ x1) : Kept s₀ (thermalCeilingWindow x0 x1) := by
  unfold thermalCeilingWindow
  repeat' (first | with_reducible assumption | (intro _) | with_reducible apply State.modCluster_kept | with_reducible apply State.raise_kept | with_reducible apply State.dutyDown_kept | with_reducible apply ite_kept | with_reducible apply foldl_kept | with_reducible apply iterate_kept | with_reducible exact Kept.upd (by with_reducible assumption) | (extract_lets +onlyGivenNames x; refine Kept.cut (s₀ := s₀) x ?_ ?_; unfold x; clear x; rotate_left; intro hx; clear_value x; rotate_right) | (extract_lets +onlyGivenNames x; clear_value x))

theorem droopRecover_kept {s₀ : State} (x0 : Nat) (x1 : Nat) (x2 : State) (h : Kept s₀ x2) : Kept s₀ (droopRecover x0 x1 x2) := by
  unfold droopRecover
  repeat' (first | with_reducible assumption | with_reducible apply State.incReg_kept | with_reducible apply State.modCluster_kept | with_reducible exact Kept.upd (by with_reducible assumption) | with_reducible apply ite_kept)

theorem opChangeEnd_kept {s₀ : State} (x0 : Nat) (x1 : State) (h : Kept s₀ x1) : Kept s₀ (opChangeEnd x0 x1) := by
  unfold opChangeEnd
  repeat' (first | with_reducible assumption | (intro _) | with_reducible apply State.actuate_kept | with_reducible apply State.setCluster_kept | with_reducible apply ite_kept | with_reducible apply foldl_kept | with_reducible refine Kept.fst (by with_reducible assumption) ?_ | (extract_lets +onlyGivenNames x; refine Kept.cut (s₀ := s₀) x ?_ ?_; unfold x; clear x; rotate_left; intro hx; clear_value x; rotate_right) | (extract_lets +onlyGivenNames x; clear_value x) | split | with_reducible exact Kept.upd (by with_reducible assumption))

theorem prochotAssert_kept {s₀ : State} (x0 : State) (h : Kept s₀ x0) : Kept s₀ (prochotAssert x0) := by
  unfold prochotAssert
  repeat' (first | with_reducible assumption | (intro _) | with_reducible apply State.raise_kept | with_reducible apply State.explains_kept | with_reducible apply State.modCluster_kept | with_reducible apply State.toFallback_kept | with_reducible apply ite_kept | with_reducible apply foldl_kept | with_reducible apply iterate_kept | with_reducible exact Kept.upd (by with_reducible assumption) | (extract_lets +onlyGivenNames x; refine Kept.cut (s₀ := s₀) x ?_ ?_; unfold x; clear x; rotate_left; intro hx; clear_value x; rotate_right) | (extract_lets +onlyGivenNames x; clear_value x))

theorem State.phaseStart_kept {s₀ : State} (x0 : State) (x1 : Nat) (x2 : Job) (x3 : Nat) (h : Kept s₀ x0) : Kept s₀ (State.phaseStart x0 x1 x2 x3) := by
  unfold State.phaseStart
  repeat' (first | with_reducible assumption | (intro _) | with_reducible apply State.phaseEnds_kept | with_reducible apply State.modCluster_kept | with_reducible apply ite_kept | with_reducible apply foldl_kept | with_reducible refine Kept.fst (by with_reducible assumption) ?_ | (extract_lets +onlyGivenNames x; refine Kept.cut (s₀ := s₀) x ?_ ?_; unfold x; clear x; rotate_left; intro hx; clear_value x; rotate_right) | (extract_lets +onlyGivenNames x; clear_value x) | split | with_reducible exact Kept.upd (by with_reducible assumption))

theorem phase_kept {s₀ : State} (x0 : Nat) (x1 : State) (h : Kept s₀ x1) : Kept s₀ (phase x0 x1) := by
  unfold phase
  repeat' (first | with_reducible assumption | (intro _) | with_reducible apply State.issue_kept | with_reducible apply State.adv_kept | with_reducible apply State.phaseStart_kept | with_reducible apply ite_kept | with_reducible apply foldl_kept | with_reducible refine Kept.fst (by with_reducible assumption) ?_ | (extract_lets +onlyGivenNames x; refine Kept.cut (s₀ := s₀) x ?_ ?_; unfold x; clear x; rotate_left; intro hx; clear_value x; rotate_right) | (extract_lets +onlyGivenNames x; clear_value x) | split | with_reducible exact Kept.upd (by with_reducible assumption))

theorem State.phaseDrop_kept {s₀ : State} (x0 : State) (x1 : Nat) (x2 : BitVec 16) (h : Kept s₀ x0) : Kept s₀ (State.phaseDrop x0 x1 x2) := Kept.upd h

theorem setCap_kept {s₀ : State} (x0 : Nat) (x1 : State) (h : Kept s₀ x1) : Kept s₀ (setCap x0 x1) := by
  unfold setCap
  repeat' (first | with_reducible assumption | (intro _) | with_reducible apply State.takeCmd_kept | with_reducible apply State.refuse_kept | with_reducible apply State.modReel_kept | with_reducible apply ite_kept | with_reducible apply foldl_kept | with_reducible apply iterate_kept | with_reducible exact Kept.upd (by with_reducible assumption) | (extract_lets +onlyGivenNames x; refine Kept.cut (s₀ := s₀) x ?_ ?_; unfold x; clear x; rotate_left; intro hx; clear_value x; rotate_right) | (extract_lets +onlyGivenNames x; clear_value x))

theorem gatingSlot_kept {s₀ : State} (x0 : State) (h : Kept s₀ x0) : Kept s₀ (gatingSlot x0) := by
  unfold gatingSlot
  repeat' (first | with_reducible assumption | (intro _) | with_reducible apply State.modCluster_kept | with_reducible apply ite_kept | with_reducible apply foldl_kept | with_reducible apply iterate_kept | with_reducible exact Kept.upd (by with_reducible assumption) | (extract_lets +onlyGivenNames x; refine Kept.cut (s₀ := s₀) x ?_ ?_; unfold x; clear x; rotate_left; intro hx; clear_value x; rotate_right) | (extract_lets +onlyGivenNames x; clear_value x))

theorem thermalSample_kept {s₀ : State} (x0 : List (BitVec 10)) (x1 : State) (h : Kept s₀ x1) : Kept s₀ (thermalSample x0 x1) := by
  unfold thermalSample
  repeat' (first | with_reducible assumption | (intro _) | with_reducible apply State.setRn_kept | with_reducible apply State.raise_kept | with_reducible apply ite_kept | with_reducible apply ite_fst_kept | with_reducible apply foldl_kept | with_reducible apply foldl_fst_kept | with_reducible apply iterate_kept | with_reducible refine Kept.fst (by with_reducible assumption) ?_ | with_reducible refine State.takeMsg_kept (by with_reducible assumption) ?_ | (extract_lets +onlyGivenNames x; refine Kept.cut (s₀ := s₀) x ?_ ?_; unfold x; clear x; rotate_left; intro hx; clear_value x; rotate_right) | (extract_lets +onlyGivenNames x; refine Kept.cutF (s₀ := s₀) x ?_ ?_; unfold x; clear x; rotate_left; intro hxf; clear_value x; rotate_right) | with_reducible apply hxf | (extract_lets +onlyGivenNames x; clear_value x) | split | with_reducible exact Kept.upd (by with_reducible assumption) | (with_reducible refine Kept.upd ?_; first | with_reducible apply State.setRn_kept | with_reducible apply State.raise_kept | with_reducible apply ite_kept | with_reducible apply foldl_kept | with_reducible apply iterate_kept) | dsimp only)

theorem State.writeLineTags_kept {s₀ : State} (x0 : State) (x1 : Nat) (x2 : Nat) (h : Kept s₀ x0) : Kept s₀ (State.writeLineTags x0 x1 x2) := by
  unfold State.writeLineTags
  repeat' (first | with_reducible assumption | (intro _) | with_reducible apply State.writeVia_kept | with_reducible apply ite_kept | with_reducible apply foldl_kept | with_reducible apply iterate_kept | with_reducible exact Kept.upd (by with_reducible assumption) | (extract_lets +onlyGivenNames x; refine Kept.cut (s₀ := s₀) x ?_ ?_; unfold x; clear x; rotate_left; intro hx; clear_value x; rotate_right) | (extract_lets +onlyGivenNames x; clear_value x))

theorem loadImage_kept {s₀ : State} (x0 : Nat) (x1 : State) (h : Kept s₀ x1) : Kept s₀ (loadImage x0 x1) := by
  unfold loadImage
  repeat' (first | with_reducible assumption | (intro _) | with_reducible apply State.takeCmd_kept | with_reducible apply State.refuse_kept | with_reducible apply State.setSlot_kept | with_reducible apply State.readVia_kept | with_reducible apply State.writeVia_kept | with_reducible apply State.poisonLines_kept | with_reducible apply State.writeLineTags_kept | with_reducible apply State.modReel_kept | with_reducible apply ite_kept | with_reducible apply foldl_kept | with_reducible apply iterate_kept | with_reducible exact Kept.upd (by with_reducible assumption) | (extract_lets +onlyGivenNames x; refine Kept.cut (s₀ := s₀) x ?_ ?_; unfold x; clear x; rotate_left; intro hx; clear_value x; rotate_right) | (extract_lets +onlyGivenNames x; clear_value x))

theorem loadImageVerified_kept {s₀ : State} (x0 : Nat) (x1 : State) (h : Kept s₀ x1) : Kept s₀ (loadImageVerified x0 x1) := by
  unfold loadImageVerified
  repeat' (first | with_reducible assumption | (intro _) | with_reducible apply State.modReel_kept | with_reducible apply State.refuse_kept | with_reducible apply State.setSlot_kept | with_reducible apply State.auditAs_kept | with_reducible apply State.done_kept | with_reducible apply ite_kept | with_reducible apply foldl_kept | with_reducible refine Kept.fst (by with_reducible assumption) ?_ | (extract_lets +onlyGivenNames x; refine Kept.cut (s₀ := s₀) x ?_ ?_; unfold x; clear x; rotate_left; intro hx; clear_value x; rotate_right) | (extract_lets +onlyGivenNames x; clear_value x) | split | with_reducible exact Kept.upd (by with_reducible assumption))

theorem State.givePhases_kept {s₀ : State} (x0 : State) (x1 : Nat) (x2 : Nat) (x3 : List Nat) (h : Kept s₀ x0) : Kept s₀ (State.givePhases x0 x1 x2 x3).1 := by
  unfold State.givePhases
  repeat' (first | with_reducible assumption | (intro _) | with_reducible apply State.setWin_kept | with_reducible apply ite_kept | with_reducible apply ite_fst_kept | with_reducible apply foldl_kept | with_reducible apply foldl_fst_kept | with_reducible apply iterate_kept | with_reducible refine Kept.fst (by with_reducible assumption) ?_ | (extract_lets +onlyGivenNames x; refine Kept.cut (s₀ := s₀) x ?_ ?_; unfold x; clear x; rotate_left; intro hx; clear_value x; rotate_right) | (extract_lets +onlyGivenNames x; clear_value x) | split | with_reducible exact Kept.upd (by with_reducible assumption) | dsimp only)

theorem rebind_kept {s₀ : State} (x0 : Nat) (x1 : State) (h : Kept s₀ x1) : Kept s₀ (rebind x0 x1) := by
  unfold rebind
  repeat' (first | with_reducible assumption | (intro _) | with_reducible apply State.takeCmd_kept | with_reducible apply State.refuse_kept | with_reducible apply State.givePhases_kept | with_reducible apply State.done_kept | with_reducible apply State.setJob_kept | with_reducible apply ite_kept | with_reducible apply foldl_kept | with_reducible refine Kept.fst (by with_reducible assumption) ?_ | (extract_lets +onlyGivenNames x; refine Kept.cut (s₀ := s₀) x ?_ ?_; unfold x; clear x; rotate_left; intro hx; clear_value x; rotate_right) | (extract_lets +onlyGivenNames x; clear_value x) | split | with_reducible exact Kept.upd (by with_reducible assumption))

theorem State.initMutables_kept {s₀ : State} (x0 : State) (x1 : Job) (h : Kept s₀ x0) : Kept s₀ (State.initMutables x0 x1) := by
  unfold State.initMutables
  repeat' (first | with_reducible assumption | with_reducible apply State.writeVia_kept | with_reducible exact Kept.upd (by with_reducible assumption) | with_reducible apply ite_kept)

theorem State.bindJob_kept {s₀ : State} (x0 : State) (x1 : Cmd) (x2 : BindArgs) (x3 : List Nat) (x4 : List VaSeg) (h : Kept s₀ x0) : Kept s₀ (State.bindJob x0 x1 x2 x3 x4) := by
  unfold State.bindJob
  repeat' (first | with_reducible assumption | (intro _) | with_reducible apply State.modCluster_kept | with_reducible apply State.setCue_kept | with_reducible apply State.givePhases_kept | with_reducible apply State.initMutables_kept | with_reducible apply State.writeVia_kept | with_reducible apply State.modJob_kept | with_reducible apply ite_kept | with_reducible apply ite_fst_kept | with_reducible apply foldl_kept | with_reducible apply foldl_fst_kept | with_reducible apply iterate_kept | with_reducible refine Kept.fst (by with_reducible assumption) ?_ | with_reducible refine State.takeMsg_kept (by with_reducible assumption) ?_ | (extract_lets +onlyGivenNames x; refine Kept.cut (s₀ := s₀) x ?_ ?_; unfold x; clear x; rotate_left; intro hx; clear_value x; rotate_right) | (extract_lets +onlyGivenNames x; refine Kept.cutF (s₀ := s₀) x ?_ ?_; unfold x; clear x; rotate_left; intro hxf; clear_value x; rotate_right) | with_reducible apply hxf | (extract_lets +onlyGivenNames x; clear_value x) | split | with_reducible exact Kept.upd (by with_reducible assumption) | (with_reducible refine Kept.upd ?_; first | with_reducible apply State.modCluster_kept | with_reducible apply State.setCue_kept | with_reducible apply State.givePhases_kept | with_reducible apply State.initMutables_kept | with_reducible apply State.writeVia_kept | with_reducible apply State.modJob_kept | with_reducible apply ite_kept | with_reducible apply foldl_kept | with_reducible apply iterate_kept) | dsimp only)

theorem bind_kept {s₀ : State} (x0 : Nat) (x1 : State) (h : Kept s₀ x1) : Kept s₀ (bind x0 x1) := by
  unfold bind
  repeat' (first | with_reducible assumption | (intro _) | with_reducible apply State.takeCmd_kept | with_reducible apply State.readVia_kept | with_reducible apply State.refuse_kept | with_reducible apply State.dramUe_kept | with_reducible apply State.done_kept | with_reducible apply State.bindJob_kept | with_reducible apply ite_kept | with_reducible apply foldl_kept | with_reducible refine Kept.fst (by with_reducible assumption) ?_ | (extract_lets +onlyGivenNames x; refine Kept.cut (s₀ := s₀) x ?_ ?_; unfold x; clear x; rotate_left; intro hx; clear_value x; rotate_right) | (extract_lets +onlyGivenNames x; clear_value x) | split | with_reducible exact Kept.upd (by with_reducible assumption))

theorem State.freePhases_kept {s₀ : State} (x0 : State) (x1 : Job) (h : Kept s₀ x0) : Kept s₀ (State.freePhases x0 x1) := by
  unfold State.freePhases
  repeat' (first | with_reducible assumption | (intro _) | with_reducible apply State.setWin_kept | with_reducible apply ite_kept | with_reducible apply foldl_kept | with_reducible apply iterate_kept | with_reducible exact Kept.upd (by with_reducible assumption) | (extract_lets +onlyGivenNames x; refine Kept.cut (s₀ := s₀) x ?_ ?_; unfold x; clear x; rotate_left; intro hx; clear_value x; rotate_right) | (extract_lets +onlyGivenNames x; clear_value x))

theorem State.unbind_kept {s₀ : State} (x0 : State) (x1 : Job) (h : Kept s₀ x0) : Kept s₀ (State.unbind x0 x1) := by
  unfold State.unbind
  repeat' (first | with_reducible assumption | (intro _) | with_reducible apply State.phaseDrop_kept | with_reducible apply State.modCluster_kept | with_reducible apply State.setCue_kept | with_reducible apply State.freePhases_kept | with_reducible apply ite_kept | with_reducible apply foldl_kept | with_reducible apply iterate_kept | with_reducible exact Kept.upd (by with_reducible assumption) | (extract_lets +onlyGivenNames x; refine Kept.cut (s₀ := s₀) x ?_ ?_; unfold x; clear x; rotate_left; intro hx; clear_value x; rotate_right) | (extract_lets +onlyGivenNames x; clear_value x))

theorem State.seatTake_kept {s₀ : State} (x0 : State) (x1 : Job) (x2 : List Nat) (x3 : CoreMode) (x4 : Bool) (h : Kept s₀ x0) : Kept s₀ (State.seatTake x0 x1 x2 x3 x4) := by
  unfold State.seatTake
  repeat' (first | with_reducible assumption | (intro _) | with_reducible apply State.modCore_kept | with_reducible apply ite_kept | with_reducible apply ite_fst_kept | with_reducible apply foldl_kept | with_reducible apply foldl_fst_kept | with_reducible apply iterate_kept | with_reducible refine Kept.fst (by with_reducible assumption) ?_ | with_reducible refine State.takeMsg_kept (by with_reducible assumption) ?_ | (extract_lets +onlyGivenNames x; refine Kept.cut (s₀ := s₀) x ?_ ?_; unfold x; clear x; rotate_left; intro hx; clear_value x; rotate_right) | (extract_lets +onlyGivenNames x; refine Kept.cutF (s₀ := s₀) x ?_ ?_; unfold x; clear x; rotate_left; intro hxf; clear_value x; rotate_right) | with_reducible apply hxf | (extract_lets +onlyGivenNames x; clear_value x) | split | with_reducible exact Kept.upd (by with_reducible assumption) | (with_reducible refine Kept.upd ?_; first | with_reducible apply State.modCore_kept | with_reducible apply ite_kept | with_reducible apply foldl_kept | with_reducible apply iterate_kept) | dsimp only)

theorem State.resume_kept {s₀ : State} (x0 : State) (x1 : Job) (x2 : List Nat) (h : Kept s₀ x0) : Kept s₀ (State.resume x0 x1 x2) := by
  unfold State.resume
  repeat' (first | with_reducible assumption | (intro _) | with_reducible apply State.seatTake_kept | with_reducible apply State.setJob_kept | with_reducible apply State.claimCeiling_kept | with_reducible apply ite_kept | with_reducible apply foldl_kept | with_reducible apply iterate_kept | with_reducible exact Kept.upd (by with_reducible assumption) | (extract_lets +onlyGivenNames x; refine Kept.cut (s₀ := s₀) x ?_ ?_; unfold x; clear x; rotate_left; intro hx; clear_value x; rotate_right) | (extract_lets +onlyGivenNames x; clear_value x))

theorem State.restoreCnts_kept {s₀ : State} (x0 : State) (x1 : Job) (h : Kept s₀ x0) : Kept s₀ (State.restoreCnts x0 x1) := by
  unfold State.restoreCnts
  repeat' (first | with_reducible assumption | (intro _) | with_reducible apply State.modCluster_kept | with_reducible apply ite_kept | with_reducible apply foldl_kept | with_reducible apply iterate_kept | with_reducible exact Kept.upd (by with_reducible assumption) | (extract_lets +onlyGivenNames x; refine Kept.cut (s₀ := s₀) x ?_ ?_; unfold x; clear x; rotate_left; intro hx; clear_value x; rotate_right) | (extract_lets +onlyGivenNames x; clear_value x))

theorem State.arriveCheck_kept {s₀ : State} (x0 : State) (x1 : Nat) (x2 : State → State) (h : Kept s₀ x0) (k2 : ∀ (y0 : State), Kept s₀ y0 → Kept s₀ (x2 y0)) : Kept s₀ (State.arriveCheck x0 x1 x2) := by
  unfold State.arriveCheck
  repeat' (first | with_reducible assumption | (intro _) | with_reducible apply k2 | with_reducible apply State.overrun_kept | with_reducible apply ite_kept | with_reducible apply foldl_kept | with_reducible apply iterate_kept | with_reducible exact Kept.upd (by with_reducible assumption) | (extract_lets +onlyGivenNames x; refine Kept.cut (s₀ := s₀) x ?_ ?_; unfold x; clear x; rotate_left; intro hx; clear_value x; rotate_right) | (extract_lets +onlyGivenNames x; clear_value x))

theorem publishOne_kept {s₀ : State} (x0 x1 x2 : Nat) (x3 : State × Nat × Nat) (x4 : List Byte) (h : Kept s₀ x3.1) :
    Kept s₀ (publishOne x0 x1 x2 x3 x4).1 := by
  unfold publishOne
  exact ite_fst_kept (State.writeVia_kept _ _ _ _ h) h

theorem State.publish_kept {s₀ : State} (x0 : State) (x1 : Job) (h : Kept s₀ x0) : Kept s₀ (State.publish x0 x1) := by
  unfold State.publish
  repeat' (first | with_reducible assumption | (intro _) | with_reducible apply publishOne_kept | with_reducible apply State.writeVia_kept | with_reducible apply State.raise_kept | with_reducible apply State.modJob_kept | with_reducible apply ite_kept | with_reducible apply ite_fst_kept | with_reducible apply foldl_kept | with_reducible apply foldl_fst_kept | with_reducible apply iterate_kept | with_reducible refine Kept.fst (by with_reducible assumption) ?_ | (extract_lets +onlyGivenNames x; refine Kept.cut (s₀ := s₀) x ?_ ?_; unfold x; clear x; rotate_left; intro hx; clear_value x; rotate_right) | (extract_lets +onlyGivenNames x; clear_value x) | split | with_reducible exact Kept.upd (by with_reducible assumption) | dsimp only)

theorem State.commitJob_kept {s₀ : State} (x0 : State) (x1 : BitVec 16) (x2 : Nat) (x3 : Bool) (h : Kept s₀ x0) : Kept s₀ (State.commitJob x0 x1 x2 x3) := by
  unfold State.commitJob
  repeat' (first | with_reducible assumption | (intro _) | with_reducible apply State.publish_kept | with_reducible apply State.trkFlush_kept | with_reducible apply State.writeVia_kept | with_reducible apply State.modCluster_kept | with_reducible apply State.modJob_kept | with_reducible apply State.trkNotify_kept | with_reducible apply ite_kept | with_reducible apply foldl_kept | with_reducible refine Kept.fst (by with_reducible assumption) ?_ | (extract_lets +onlyGivenNames x; refine Kept.cut (s₀ := s₀) x ?_ ?_; unfold x; clear x; rotate_left; intro hx; clear_value x; rotate_right) | (extract_lets +onlyGivenNames x; clear_value x) | split | with_reducible exact Kept.upd (by with_reducible assumption))

theorem State.switchImage_kept {s₀ : State} (x0 : State) (x1 : BitVec 16) (x2 : Option Nat) (h : Kept s₀ x0) : Kept s₀ (State.switchImage x0 x1 x2) := by
  unfold State.switchImage
  repeat' (first | with_reducible assumption | (intro _) | with_reducible apply State.setJob_kept | with_reducible apply State.modCore_kept | with_reducible apply State.initMutables_kept | with_reducible apply ite_kept | with_reducible apply foldl_kept | with_reducible refine Kept.fst (by with_reducible assumption) ?_ | (extract_lets +onlyGivenNames x; refine Kept.cut (s₀ := s₀) x ?_ ?_; unfold x; clear x; rotate_left; intro hx; clear_value x; rotate_right) | (extract_lets +onlyGivenNames x; clear_value x) | split | with_reducible exact Kept.upd (by with_reducible assumption))

theorem State.freeTake_kept {s₀ : State} (x0 : State) (x1 : BitVec 16) (h : Kept s₀ x0) : Kept s₀ (State.freeTake x0 x1) := by
  unfold State.freeTake
  repeat' (first | with_reducible assumption | (intro _) | with_reducible apply State.modCore_kept | with_reducible apply State.phaseDrop_kept | with_reducible apply State.modCluster_kept | with_reducible apply State.setJob_kept | with_reducible apply ite_kept | with_reducible apply foldl_kept | with_reducible refine Kept.fst (by with_reducible assumption) ?_ | (extract_lets +onlyGivenNames x; refine Kept.cut (s₀ := s₀) x ?_ ?_; unfold x; clear x; rotate_left; intro hx; clear_value x; rotate_right) | (extract_lets +onlyGivenNames x; clear_value x) | split | with_reducible exact Kept.upd (by with_reducible assumption))

theorem State.runDone_kept {s₀ : State} (x0 : State) (x1 : Job) (x2 : Run) (x3 : Nat) (h : Kept s₀ x0) : Kept s₀ (State.runDone x0 x1 x2 x3) := by
  unfold State.runDone
  repeat' (first | with_reducible assumption | with_reducible apply State.complete_kept | with_reducible apply State.unreserve_kept | with_reducible apply State.acct_kept | with_reducible exact Kept.upd (by with_reducible assumption) | with_reducible apply ite_kept)

theorem State.revert_kept {s₀ : State} (x0 : State) (x1 : BitVec 16) (h : Kept s₀ x0) : Kept s₀ (State.revert x0 x1) := by
  unfold State.revert
  repeat' (first | with_reducible assumption | (intro _) | with_reducible apply State.writeVia_kept | with_reducible apply State.modJob_kept | with_reducible apply ite_kept | with_reducible apply foldl_kept | with_reducible refine Kept.fst (by with_reducible assumption) ?_ | (extract_lets +onlyGivenNames x; refine Kept.cut (s₀ := s₀) x ?_ ?_; unfold x; clear x; rotate_left; intro hx; clear_value x; rotate_right) | (extract_lets +onlyGivenNames x; clear_value x) | split | with_reducible exact Kept.upd (by with_reducible assumption))

theorem State.cancelRuns_kept {s₀ : State} (x0 : State) (x1 : Job) (h : Kept s₀ x0) : Kept s₀ (State.cancelRuns x0 x1) := by
  unfold State.cancelRuns
  repeat' (first | with_reducible assumption | (intro _) | with_reducible apply State.runDone_kept | with_reducible apply State.modJob_kept | with_reducible apply ite_kept | with_reducible apply foldl_kept | with_reducible apply iterate_kept | with_reducible exact Kept.upd (by with_reducible assumption) | (extract_lets +onlyGivenNames x; refine Kept.cut (s₀ := s₀) x ?_ ?_; unfold x; clear x; rotate_left; intro hx; clear_value x; rotate_right) | (extract_lets +onlyGivenNames x; clear_value x))

theorem State.failJob_kept {s₀ : State} (x0 : State) (x1 : BitVec 16) (x2 : Nat) (h : Kept s₀ x0) : Kept s₀ (State.failJob x0 x1 x2) := by
  unfold State.failJob
  repeat' (first | with_reducible assumption | (intro _) | with_reducible apply State.runDone_kept | with_reducible apply State.revert_kept | with_reducible apply State.freeTake_kept | with_reducible apply State.modJob_kept | with_reducible apply State.recoveryDrops_kept | with_reducible apply State.raise_kept | with_reducible apply State.cancelRuns_kept | with_reducible apply ite_kept | with_reducible apply foldl_kept | with_reducible refine Kept.fst (by with_reducible assumption) ?_ | (extract_lets +onlyGivenNames x; refine Kept.cut (s₀ := s₀) x ?_ ?_; unfold x; clear x; rotate_left; intro hx; clear_value x; rotate_right) | (extract_lets +onlyGivenNames x; clear_value x) | split | with_reducible exact Kept.upd (by with_reducible assumption))

theorem State.shapeCheck_kept {s₀ : State} (x0 : State) (x1 : BitVec 16) (h : Kept s₀ x0) : Kept s₀ (State.shapeCheck x0 x1) := by
  unfold State.shapeCheck
  repeat' (first | with_reducible assumption | (intro _) | with_reducible apply State.failJob_kept | with_reducible apply ite_kept | with_reducible apply foldl_kept | with_reducible refine Kept.fst (by with_reducible assumption) ?_ | (extract_lets +onlyGivenNames x; refine Kept.cut (s₀ := s₀) x ?_ ?_; unfold x; clear x; rotate_left; intro hx; clear_value x; rotate_right) | (extract_lets +onlyGivenNames x; clear_value x) | split | with_reducible exact Kept.upd (by with_reducible assumption))

theorem State.endRun_kept {s₀ : State} (x0 : State) (x1 : BitVec 16) (h : Kept s₀ x0) : Kept s₀ (State.endRun x0 x1) := by
  unfold State.endRun
  repeat' (first | with_reducible assumption | (intro _) | with_reducible apply State.commitJob_kept | with_reducible apply State.switchImage_kept | with_reducible apply State.freeTake_kept | with_reducible apply State.modJob_kept | with_reducible apply State.shapeCheck_kept | with_reducible apply State.runDone_kept | with_reducible apply ite_kept | with_reducible apply foldl_kept | with_reducible refine Kept.fst (by with_reducible assumption) ?_ | (extract_lets +onlyGivenNames x; refine Kept.cut (s₀ := s₀) x ?_ ?_; unfold x; clear x; rotate_left; intro hx; clear_value x; rotate_right) | (extract_lets +onlyGivenNames x; clear_value x) | split | with_reducible exact Kept.upd (by with_reducible assumption))

theorem endOp_kept {s₀ : State} (x0 : Nat) (x1 : Engine) (x2 : State) (h : Kept s₀ x2) : Kept s₀ (endOp x0 x1 x2) := by
  unfold endOp
  repeat' (first | with_reducible assumption | (intro _) | with_reducible apply State.issue_kept | with_reducible apply State.adv_kept | with_reducible apply State.modCore_kept | with_reducible apply State.phaseDrop_kept | with_reducible apply State.phaseEnds_kept | with_reducible apply State.arriveCheck_kept | with_reducible apply State.endRun_kept | with_reducible apply ite_kept | with_reducible apply foldl_kept | with_reducible refine Kept.fst (by with_reducible assumption) ?_ | (extract_lets +onlyGivenNames x; refine Kept.cut (s₀ := s₀) x ?_ ?_; unfold x; clear x; rotate_left; intro hx; clear_value x; rotate_right) | (extract_lets +onlyGivenNames x; clear_value x) | split | with_reducible exact Kept.upd (by with_reducible assumption))

theorem State.releaseTake_kept {s₀ : State} (x0 : State) (x1 : Job) (h : Kept s₀ x0) : Kept s₀ (State.releaseTake x0 x1) := by
  unfold State.releaseTake
  repeat' (first | with_reducible assumption | (intro _) | with_reducible apply State.modCore_kept | with_reducible apply State.modJob_kept | with_reducible apply State.incReg_kept | with_reducible apply ite_kept | with_reducible apply foldl_kept | with_reducible apply iterate_kept | with_reducible exact Kept.upd (by with_reducible assumption) | (extract_lets +onlyGivenNames x; refine Kept.cut (s₀ := s₀) x ?_ ?_; unfold x; clear x; rotate_left; intro hx; clear_value x; rotate_right) | (extract_lets +onlyGivenNames x; clear_value x))

theorem State.dispatch_kept {s₀ : State} (x0 : State) (x1 : Nat) (h : Kept s₀ x0) : Kept s₀ (State.dispatch x0 x1) := by
  unfold State.dispatch
  repeat' (first | with_reducible assumption | (intro _) | with_reducible apply State.releaseTake_kept | with_reducible apply State.raise_kept | with_reducible apply State.incReg_kept | with_reducible apply ite_kept | with_reducible apply foldl_kept | with_reducible refine Kept.fst (by with_reducible assumption) ?_ | (extract_lets +onlyGivenNames x; refine Kept.cut (s₀ := s₀) x ?_ ?_; unfold x; clear x; rotate_left; intro hx; clear_value x; rotate_right) | (extract_lets +onlyGivenNames x; clear_value x) | split | with_reducible exact Kept.upd (by with_reducible assumption))

theorem State.warm_kept {s₀ : State} (x0 : State) (x1 : Nat) (x2 : Nat) (x3 : Engine) (h : Kept s₀ x0) : Kept s₀ (State.warm x0 x1 x2 x3) := by
  unfold State.warm
  repeat' (first | with_reducible assumption | (intro _) | with_reducible apply State.icFetch_kept | with_reducible apply ite_kept | with_reducible apply foldl_kept | with_reducible apply iterate_kept | with_reducible exact Kept.upd (by with_reducible assumption) | (extract_lets +onlyGivenNames x; refine Kept.cut (s₀ := s₀) x ?_ ?_; unfold x; clear x; rotate_left; intro hx; clear_value x; rotate_right) | (extract_lets +onlyGivenNames x; clear_value x))

theorem State.warmTake_kept {s₀ : State} (x0 : State) (x1 : Job) (h : Kept s₀ x0) : Kept s₀ (State.warmTake x0 x1) := by
  unfold State.warmTake
  repeat' (first | with_reducible assumption | (intro _) | with_reducible apply State.warm_kept | with_reducible apply ite_kept | with_reducible apply foldl_kept | with_reducible apply iterate_kept | with_reducible exact Kept.upd (by with_reducible assumption) | (extract_lets +onlyGivenNames x; refine Kept.cut (s₀ := s₀) x ?_ ?_; unfold x; clear x; rotate_left; intro hx; clear_value x; rotate_right) | (extract_lets +onlyGivenNames x; clear_value x))

theorem State.startAgain_kept {s₀ : State} (x0 : State) (x1 : Job) (x2 : List Nat) (h : Kept s₀ x0) : Kept s₀ (State.startAgain x0 x1 x2) := by
  unfold State.startAgain
  repeat' (first | with_reducible assumption | (intro _) | with_reducible apply State.seatTake_kept | with_reducible apply State.setJob_kept | with_reducible apply State.claimCeiling_kept | with_reducible apply State.warmTake_kept | with_reducible apply ite_kept | with_reducible apply foldl_kept | with_reducible apply iterate_kept | with_reducible exact Kept.upd (by with_reducible assumption) | (extract_lets +onlyGivenNames x; refine Kept.cut (s₀ := s₀) x ?_ ?_; unfold x; clear x; rotate_left; intro hx; clear_value x; rotate_right) | (extract_lets +onlyGivenNames x; clear_value x))

theorem State.slateRelease_kept {s₀ : State} (x0 : State) (x1 : BitVec 16) (h : Kept s₀ x0) : Kept s₀ (State.slateRelease x0 x1) := by
  unfold State.slateRelease
  repeat' (first | with_reducible assumption | (intro _) | with_reducible apply State.claimCeiling_kept | with_reducible apply State.releaseEng_kept | with_reducible apply State.modJob_kept | with_reducible apply State.modCore_kept | with_reducible apply ite_kept | with_reducible apply foldl_kept | with_reducible refine Kept.fst (by with_reducible assumption) ?_ | (extract_lets +onlyGivenNames x; refine Kept.cut (s₀ := s₀) x ?_ ?_; unfold x; clear x; rotate_left; intro hx; clear_value x; rotate_right) | (extract_lets +onlyGivenNames x; clear_value x) | split | with_reducible exact Kept.upd (by with_reducible assumption))

theorem State.jscFault_kept {s₀ : State} (x0 : State) (x1 : Job) (x2 : Nat) (x3 : Nat) (x4 : Nat) (x5 : Nat) (h : Kept s₀ x0) : Kept s₀ (State.jscFault x0 x1 x2 x3 x4 x5) := by
  unfold State.jscFault
  repeat' (first | with_reducible assumption | (intro _) | with_reducible apply State.modCore_kept | with_reducible apply State.detect_kept | with_reducible apply ite_kept | with_reducible apply foldl_kept | with_reducible apply iterate_kept | with_reducible exact Kept.upd (by with_reducible assumption) | (extract_lets +onlyGivenNames x; refine Kept.cut (s₀ := s₀) x ?_ ?_; unfold x; clear x; rotate_left; intro hx; clear_value x; rotate_right) | (extract_lets +onlyGivenNames x; clear_value x))

theorem State.claim_kept {s₀ : State} (x0 : State) (x1 : Job) (x2 : List Nat) (h : Kept s₀ x0) : Kept s₀ (State.claim x0 x1 x2) := by
  unfold State.claim
  repeat' (first | with_reducible assumption | (intro _) | with_reducible apply State.modJob_kept | with_reducible apply State.claimCeiling_kept | with_reducible apply ite_kept | with_reducible apply foldl_kept | with_reducible apply iterate_kept | with_reducible exact Kept.upd (by with_reducible assumption) | (extract_lets +onlyGivenNames x; refine Kept.cut (s₀ := s₀) x ?_ ?_; unfold x; clear x; rotate_left; intro hx; clear_value x; rotate_right) | (extract_lets +onlyGivenNames x; clear_value x))

theorem State.startRun_kept {s₀ : State} (x0 : State) (x1 : Job) (x2 : Run) (x3 : List Nat) (h : Kept s₀ x0) : Kept s₀ (State.startRun x0 x1 x2 x3) := by
  unfold State.startRun
  repeat' (first | with_reducible assumption | (intro _) | with_reducible apply State.seatTake_kept | with_reducible apply State.setJob_kept | with_reducible apply State.claimCeiling_kept | with_reducible apply State.warmTake_kept | with_reducible apply ite_kept | with_reducible apply foldl_kept | with_reducible apply iterate_kept | with_reducible exact Kept.upd (by with_reducible assumption) | (extract_lets +onlyGivenNames x; refine Kept.cut (s₀ := s₀) x ?_ ?_; unfold x; clear x; rotate_left; intro hx; clear_value x; rotate_right) | (extract_lets +onlyGivenNames x; clear_value x))

theorem takeStart_kept {s₀ : State} (x0 : BitVec 16) (x1 : State) (h : Kept s₀ x1) : Kept s₀ (takeStart x0 x1) := by
  unfold takeStart
  repeat' (first | with_reducible assumption | (intro _) | with_reducible apply State.startAgain_kept | with_reducible apply State.resume_kept | with_reducible apply State.startRun_kept | with_reducible apply State.claim_kept | with_reducible apply ite_kept | with_reducible apply foldl_kept | with_reducible refine Kept.fst (by with_reducible assumption) ?_ | (extract_lets +onlyGivenNames x; refine Kept.cut (s₀ := s₀) x ?_ ?_; unfold x; clear x; rotate_left; intro hx; clear_value x; rotate_right) | (extract_lets +onlyGivenNames x; clear_value x) | split | with_reducible exact Kept.upd (by with_reducible assumption))

theorem spill_kept {s₀ : State} (x0 : BitVec 16) (x1 : State) (h : Kept s₀ x1) : Kept s₀ (spill x0 x1) := by
  unfold spill
  repeat' (first | with_reducible assumption | (intro _) | with_reducible apply State.overrun_kept | with_reducible apply State.modCore_kept | with_reducible apply ite_kept | with_reducible apply foldl_kept | with_reducible refine Kept.fst (by with_reducible assumption) ?_ | (extract_lets +onlyGivenNames x; refine Kept.cut (s₀ := s₀) x ?_ ?_; unfold x; clear x; rotate_left; intro hx; clear_value x; rotate_right) | (extract_lets +onlyGivenNames x; clear_value x) | split | with_reducible exact Kept.upd (by with_reducible assumption))

theorem State.writeLive_kept {s₀ : State} (x0 : State) (x1 : Job) (x2 : Nat) (x3 : List Byte) (h : Kept s₀ x0) : Kept s₀ (State.writeLive x0 x1 x2 x3) := by
  unfold State.writeLive
  repeat' (first | with_reducible assumption | (intro _) | with_reducible apply State.writeVia_kept | with_reducible apply State.poisonLines_kept | with_reducible apply ite_kept | with_reducible apply foldl_kept | with_reducible apply iterate_kept | with_reducible exact Kept.upd (by with_reducible assumption) | (extract_lets +onlyGivenNames x; refine Kept.cut (s₀ := s₀) x ?_ ?_; unfold x; clear x; rotate_left; intro hx; clear_value x; rotate_right) | (extract_lets +onlyGivenNames x; clear_value x))

theorem slateCommit_kept {s₀ : State} (x0 : BitVec 16) (x1 : State) (h : Kept s₀ x1) : Kept s₀ (slateCommit x0 x1) := by
  unfold slateCommit
  repeat' (first | with_reducible assumption | (intro _) | with_reducible apply State.lineCheckFault_kept | with_reducible apply State.switchImage_kept | with_reducible apply State.commitJob_kept | with_reducible apply State.writeLive_kept | with_reducible apply State.modCore_kept | with_reducible apply State.modJob_kept | with_reducible apply State.slateRelease_kept | with_reducible apply ite_kept | with_reducible apply foldl_kept | with_reducible refine Kept.fst (by with_reducible assumption) ?_ | (extract_lets +onlyGivenNames x; refine Kept.cut (s₀ := s₀) x ?_ ?_; unfold x; clear x; rotate_left; intro hx; clear_value x; rotate_right) | (extract_lets +onlyGivenNames x; clear_value x) | split | with_reducible exact Kept.upd (by with_reducible assumption))

theorem spillDone_kept {s₀ : State} (x0 : BitVec 16) (x1 : State) (h : Kept s₀ x1) : Kept s₀ (spillDone x0 x1) := by
  unfold spillDone
  repeat' (first | with_reducible assumption | (intro _) | with_reducible apply State.lineCheckFault_kept | with_reducible apply State.writeLive_kept | with_reducible apply State.freeTake_kept | with_reducible apply State.modJob_kept | with_reducible apply State.shapeCheck_kept | with_reducible apply State.incReg_kept | with_reducible apply ite_kept | with_reducible apply foldl_kept | with_reducible refine Kept.fst (by with_reducible assumption) ?_ | (extract_lets +onlyGivenNames x; refine Kept.cut (s₀ := s₀) x ?_ ?_; unfold x; clear x; rotate_left; intro hx; clear_value x; rotate_right) | (extract_lets +onlyGivenNames x; clear_value x) | split | with_reducible exact Kept.upd (by with_reducible assumption))

theorem State.shapeChecks_kept {s₀ : State} (x0 : State) (x1 : Nat) (h : Kept s₀ x0) : Kept s₀ (State.shapeChecks x0 x1) := by
  unfold State.shapeChecks
  repeat' (first | with_reducible assumption | (intro _) | with_reducible apply State.shapeCheck_kept | with_reducible apply ite_kept | with_reducible apply foldl_kept | with_reducible apply iterate_kept | with_reducible exact Kept.upd (by with_reducible assumption) | (extract_lets +onlyGivenNames x; refine Kept.cut (s₀ := s₀) x ?_ ?_; unfold x; clear x; rotate_left; intro hx; clear_value x; rotate_right) | (extract_lets +onlyGivenNames x; clear_value x))

theorem autoRearm_kept {s₀ : State} (x0 : BitVec 16) (x1 : State) (h : Kept s₀ x1) : Kept s₀ (autoRearm x0 x1) := by
  unfold autoRearm
  repeat' (first | with_reducible assumption | (intro _) | with_reducible apply State.modReel_kept | with_reducible apply State.setJob_kept | with_reducible apply ite_kept | with_reducible apply foldl_kept | with_reducible refine Kept.fst (by with_reducible assumption) ?_ | (extract_lets +onlyGivenNames x; refine Kept.cut (s₀ := s₀) x ?_ ?_; unfold x; clear x; rotate_left; intro hx; clear_value x; rotate_right) | (extract_lets +onlyGivenNames x; clear_value x) | split | with_reducible exact Kept.upd (by with_reducible assumption))

theorem yieldOp_kept {s₀ : State} (x0 : Nat) (x1 : Engine) (x2 : State) (h : Kept s₀ x2) : Kept s₀ (yieldOp x0 x1 x2) := by
  unfold yieldOp
  repeat' (first | with_reducible assumption | (intro _) | with_reducible apply State.issue_kept | with_reducible apply State.adv_kept | with_reducible apply State.modCore_kept | with_reducible apply ite_kept | with_reducible apply foldl_kept | with_reducible refine Kept.fst (by with_reducible assumption) ?_ | (extract_lets +onlyGivenNames x; refine Kept.cut (s₀ := s₀) x ?_ ?_; unfold x; clear x; rotate_left; intro hx; clear_value x; rotate_right) | (extract_lets +onlyGivenNames x; clear_value x) | split | with_reducible exact Kept.upd (by with_reducible assumption))

theorem slate_kept {s₀ : State} (x0 : Nat) (x1 : Engine) (x2 : State) (h : Kept s₀ x2) : Kept s₀ (slate x0 x1 x2) := by
  unfold slate
  repeat' (first | with_reducible assumption | (intro _) | with_reducible apply State.issue_kept | with_reducible apply State.adv_kept | with_reducible apply State.modCore_kept | with_reducible apply State.arriveCheck_kept | with_reducible apply State.modJob_kept | with_reducible apply ite_kept | with_reducible apply foldl_kept | with_reducible refine Kept.fst (by with_reducible assumption) ?_ | (extract_lets +onlyGivenNames x; refine Kept.cut (s₀ := s₀) x ?_ ?_; unfold x; clear x; rotate_left; intro hx; clear_value x; rotate_right) | (extract_lets +onlyGivenNames x; clear_value x) | split | with_reducible exact Kept.upd (by with_reducible assumption))

theorem feRelease_kept {s₀ : State} (x0 : BitVec 16) (x1 : State) (h : Kept s₀ x1) : Kept s₀ (feRelease x0 x1) := by
  unfold feRelease
  repeat' (first | with_reducible assumption | (intro _) | with_reducible apply State.modJob_kept | with_reducible apply State.releaseTake_kept | with_reducible apply ite_kept | with_reducible apply foldl_kept | with_reducible refine Kept.fst (by with_reducible assumption) ?_ | (extract_lets +onlyGivenNames x; refine Kept.cut (s₀ := s₀) x ?_ ?_; unfold x; clear x; rotate_left; intro hx; clear_value x; rotate_right) | (extract_lets +onlyGivenNames x; clear_value x) | split | with_reducible exact Kept.upd (by with_reducible assumption))

theorem restoreDone_kept {s₀ : State} (x0 : BitVec 16) (x1 : Resp) (x2 : State) (h : Kept s₀ x2) : Kept s₀ (restoreDone x0 x1 x2) := by
  unfold restoreDone
  repeat' (first | with_reducible assumption | (intro _) | with_reducible apply State.areaFinds_kept | with_reducible apply State.readVia_kept | with_reducible apply State.jscFault_kept | with_reducible apply State.modCore_kept | with_reducible apply State.modCluster_kept | with_reducible apply State.warmTake_kept | with_reducible apply State.modJob_kept | with_reducible apply ite_kept | with_reducible apply foldl_kept | with_reducible refine Kept.fst (by with_reducible assumption) ?_ | (extract_lets +onlyGivenNames x; refine Kept.cut (s₀ := s₀) x ?_ ?_; unfold x; clear x; rotate_left; intro hx; clear_value x; rotate_right) | (extract_lets +onlyGivenNames x; clear_value x) | split | with_reducible exact Kept.upd (by with_reducible assumption))

theorem jobRestart_kept {s₀ : State} (x0 : BitVec 16) (x1 : State) (h : Kept s₀ x1) : Kept s₀ (jobRestart x0 x1) := by
  unfold jobRestart
  repeat' (first | with_reducible assumption | (intro _) | with_reducible apply State.failJob_kept | with_reducible apply State.freeTake_kept | with_reducible apply State.restoreCnts_kept | with_reducible apply State.revert_kept | with_reducible apply State.shapeCheck_kept | with_reducible apply State.modJob_kept | with_reducible apply State.acct_kept | with_reducible apply State.incReg_kept | with_reducible apply ite_kept | with_reducible apply foldl_kept | with_reducible refine Kept.fst (by with_reducible assumption) ?_ | (extract_lets +onlyGivenNames x; refine Kept.cut (s₀ := s₀) x ?_ ?_; unfold x; clear x; rotate_left; intro hx; clear_value x; rotate_right) | (extract_lets +onlyGivenNames x; clear_value x) | split | with_reducible exact Kept.upd (by with_reducible assumption))

theorem State.setPort_kept {s₀ : State} (x0 : State) (x1 : Nat) (x2 : Port) (h : Kept s₀ x0) : Kept s₀ (State.setPort x0 x1 x2) := Kept.upd h

theorem State.modPort_kept {s₀ : State} (x0 : State) (x1 : Nat) (x2 : Port → Port) (h : Kept s₀ x0) : Kept s₀ (State.modPort x0 x1 x2) := Kept.upd h

theorem State.sendReel_kept {s₀ : State} (x0 : State) (x1 : Nat) (x2 : ReelHdr) (x3 : List Byte) (x4 : Option Nat) (x5 : BitVec 48) (x6 : BitVec 128) (x7 : BitVec 16) (h : Kept s₀ x0) : Kept s₀ (State.sendReel x0 x1 x2 x3 x4 x5 x6 x7) := Kept.upd h

theorem State.sendPeer_kept {s₀ : State} (x0 : State) (x1 : Nat) (x2 : Nat) (x3 : Nat) (x4 : Nat) (x5 : Nat) (x6 : List Byte) (h : Kept s₀ x0) : Kept s₀ (State.sendPeer x0 x1 x2 x3 x4 x5 x6) := by
  unfold State.sendPeer
  repeat' (first | with_reducible assumption | (intro _) | with_reducible apply State.sendReel_kept | with_reducible apply ite_kept | with_reducible apply foldl_kept | with_reducible refine Kept.fst (by with_reducible assumption) ?_ | (extract_lets +onlyGivenNames x; refine Kept.cut (s₀ := s₀) x ?_ ?_; unfold x; clear x; rotate_left; intro hx; clear_value x; rotate_right) | (extract_lets +onlyGivenNames x; clear_value x) | split | with_reducible exact Kept.upd (by with_reducible assumption))

theorem State.sendPeerFree_kept {s₀ : State} (x0 : State) (x1 : Nat) (x2 : Nat) (x3 : Nat) (x4 : List Byte) (h : Kept s₀ x0) : Kept s₀ (State.sendPeerFree x0 x1 x2 x3 x4) := by
  unfold State.sendPeerFree
  repeat' (first | with_reducible assumption | with_reducible apply State.drawNat_kept | with_reducible apply State.sendPeer_kept)

theorem State.flowCount_kept {s₀ : State} (x0 : State) (x1 : Nat) (x2 : Nat) (h : Kept s₀ x0) : Kept s₀ (State.flowCount x0 x1 x2) := Kept.upd h

theorem State.netCount_kept {s₀ : State} (x0 : State) (x1 : Nat) (h : Kept s₀ x0) : Kept s₀ (State.netCount x0 x1) := Kept.upd h

theorem State.notePn_kept {s₀ : State} (x0 : State) (x1 : Nat) (x2 : Frame) (h : Kept s₀ x0) : Kept s₀ (State.notePn x0 x1 x2) := by
  unfold State.notePn
  repeat' (first | with_reducible assumption | with_reducible apply State.modPort_kept | with_reducible exact Kept.upd (by with_reducible assumption) | with_reducible apply ite_kept)

theorem State.setFlow_kept {s₀ : State} (x0 : State) (x1 : Nat) (x2 : Flow) (h : Kept s₀ x0) : Kept s₀ (State.setFlow x0 x1 x2) := Kept.upd h

theorem State.cueCapture_kept {s₀ : State} (x0 : State) (x1 : Nat) (x2 : Int) (x3 : Bool) (h : Kept s₀ x0) : Kept s₀ (State.cueCapture x0 x1 x2 x3) := by
  unfold State.cueCapture
  repeat' (first | with_reducible assumption | with_reducible apply State.pushEvt_kept)

theorem State.remoteLate_kept {s₀ : State} (x0 : State) (x1 : Nat) (h : Kept s₀ x0) : Kept s₀ (State.remoteLate x0 x1) := by
  unfold State.remoteLate
  repeat' (first | with_reducible assumption | with_reducible apply State.setCue_kept | with_reducible apply State.raise_kept | with_reducible apply State.incReg_kept)

theorem State.sendCapture_kept {s₀ : State} (x0 : State) (x1 : Nat) (x2 : Nat) (x3 : Nat) (h : Kept s₀ x0) : Kept s₀ (State.sendCapture x0 x1 x2 x3) := by
  unfold State.sendCapture
  repeat' (first | with_reducible assumption | with_reducible apply State.netCount_kept | with_reducible apply State.setWin_kept | with_reducible apply State.sendReel_kept | with_reducible apply State.incReg_kept | with_reducible exact Kept.upd (by with_reducible assumption) | with_reducible apply ite_kept)

theorem remoteCaptureSend_kept {s₀ : State} (x0 : Fin 64) (x1 : State) (h : Kept s₀ x1) : Kept s₀ (remoteCaptureSend x0 x1) := by
  unfold remoteCaptureSend
  repeat' (first | with_reducible assumption | (intro _) | with_reducible apply advanceTo_kept | with_reducible apply State.remoteLate_kept | with_reducible apply State.setCue_kept | with_reducible apply State.sendCapture_kept | with_reducible apply ite_kept | with_reducible apply foldl_kept | with_reducible refine Kept.fst (by with_reducible assumption) ?_ | (extract_lets +onlyGivenNames x; refine Kept.cut (s₀ := s₀) x ?_ ?_; unfold x; clear x; rotate_left; intro hx; clear_value x; rotate_right) | (extract_lets +onlyGivenNames x; clear_value x) | split | with_reducible exact Kept.upd (by with_reducible assumption))

theorem State.putCue_kept {s₀ : State} (x0 : State) (x1 : Nat) (x2 : SMap Word) (h : Kept s₀ x0) : Kept s₀ (State.putCue x0 x1 x2) := by
  unfold State.putCue
  repeat' (first | with_reducible assumption | (intro _) | with_reducible apply State.setReg_kept | with_reducible apply ite_kept | with_reducible apply foldl_kept | with_reducible apply iterate_kept | with_reducible exact Kept.upd (by with_reducible assumption) | (extract_lets +onlyGivenNames x; refine Kept.cut (s₀ := s₀) x ?_ ?_; unfold x; clear x; rotate_left; intro hx; clear_value x; rotate_right) | (extract_lets +onlyGivenNames x; clear_value x))

theorem State.cueClearArm_kept {s₀ : State} (x0 : State) (x1 : Nat) (h : Kept s₀ x0) : Kept s₀ (State.cueClearArm x0 x1) := Kept.upd h

theorem State.cueAdvance_kept {s₀ : State} (x0 : State) (x1 : Nat) (h : Kept s₀ x0) : Kept s₀ (State.cueAdvance x0 x1) := by
  unfold State.cueAdvance
  repeat' (first | with_reducible assumption | with_reducible apply State.setRn_kept | with_reducible apply State.fitS_kept | with_reducible exact Kept.upd (by with_reducible assumption) | with_reducible apply ite_kept)

theorem State.cueTurn_kept {s₀ : State} (x0 : State) (x1 : Nat) (h : Kept s₀ x0) : Kept s₀ (State.cueTurn x0 x1) := by
  unfold State.cueTurn
  repeat' (first | with_reducible assumption | with_reducible apply State.putCue_kept | with_reducible apply State.cueClearArm_kept | with_reducible apply State.cueAdvance_kept | with_reducible exact Kept.upd (by with_reducible assumption) | with_reducible apply ite_kept)

theorem whenBit_kept {s₀ : State} (x0 : Nat) (x1 : Nat) (x2 : State → State) (x3 : State) (k2 : ∀ (y0 : State), Kept s₀ y0 → Kept s₀ (x2 y0)) (h : Kept s₀ x3) : Kept s₀ (whenBit x0 x1 x2 x3) := by
  unfold whenBit
  repeat' (first | with_reducible assumption | (intro _) | with_reducible apply k2 | with_reducible apply ite_kept | with_reducible apply foldl_kept | with_reducible apply iterate_kept | with_reducible exact Kept.upd (by with_reducible assumption) | (extract_lets +onlyGivenNames x; refine Kept.cut (s₀ := s₀) x ?_ ?_; unfold x; clear x; rotate_left; intro hx; clear_value x; rotate_right) | (extract_lets +onlyGivenNames x; clear_value x))

theorem State.cuePinAction_kept {s₀ : State} (x0 : State) (x1 : Nat) (x2 : Int) (h : Kept s₀ x0) : Kept s₀ (State.cuePinAction x0 x1 x2) := by
  unfold State.cuePinAction
  repeat' (first | with_reducible assumption | with_reducible apply State.pinEvent_kept)

theorem State.cuePend_kept {s₀ : State} (x0 : State) (x1 : Nat) (h : Kept s₀ x0) : Kept s₀ (State.cuePend x0 x1) := by
  unfold State.cuePend
  repeat' (first | with_reducible assumption | with_reducible apply State.raise_kept | with_reducible apply State.setReg_kept)

theorem State.cueActions_kept {s₀ : State} (x0 : State) (x1 : Nat) (x2 : Int) (x3 : Bool) (h : Kept s₀ x0) : Kept s₀ (State.cueActions x0 x1 x2 x3) := by
  unfold State.cueActions
  repeat' (first | with_reducible assumption | (intro _) | with_reducible apply whenBit_kept | with_reducible apply State.cuePinAction_kept | with_reducible apply State.remoteLate_kept | with_reducible apply State.dispatch_kept | with_reducible apply State.cuePend_kept | with_reducible apply State.cueCapture_kept | with_reducible apply ite_kept | with_reducible apply foldl_kept | with_reducible apply iterate_kept | with_reducible exact Kept.upd (by with_reducible assumption) | (extract_lets +onlyGivenNames x; refine Kept.cut (s₀ := s₀) x ?_ ?_; unfold x; clear x; rotate_left; intro hx; clear_value x; rotate_right) | (extract_lets +onlyGivenNames x; clear_value x))

theorem State.cueFired_kept {s₀ : State} (x0 : State) (x1 : Nat) (x2 : Int) (x3 : Bool) (h : Kept s₀ x0) : Kept s₀ (State.cueFired x0 x1 x2 x3) := by
  unfold State.cueFired
  repeat' (first | with_reducible assumption | with_reducible apply State.setRn_kept | with_reducible apply State.raise_kept | with_reducible apply State.incReg_kept | with_reducible exact Kept.upd (by with_reducible assumption) | with_reducible apply ite_kept)

theorem State.cueAfter_kept {s₀ : State} (x0 : State) (x1 : Nat) (h : Kept s₀ x0) : Kept s₀ (State.cueAfter x0 x1) := by
  unfold State.cueAfter
  repeat' (first | with_reducible assumption | (intro _) | with_reducible apply State.cueTurn_kept | with_reducible apply State.armCue_kept | with_reducible apply State.setCue_kept | with_reducible apply ite_kept | with_reducible apply foldl_kept | with_reducible refine Kept.fst (by with_reducible assumption) ?_ | (extract_lets +onlyGivenNames x; refine Kept.cut (s₀ := s₀) x ?_ ?_; unfold x; clear x; rotate_left; intro hx; clear_value x; rotate_right) | (extract_lets +onlyGivenNames x; clear_value x) | split | with_reducible exact Kept.upd (by with_reducible assumption))

theorem cueFire_kept {s₀ : State} (x0 : Fin 64) (x1 : State) (h : Kept s₀ x1) : Kept s₀ (cueFire x0 x1) := by
  unfold cueFire
  repeat' (first | with_reducible assumption | (intro _) | with_reducible apply advanceTo_kept | with_reducible apply State.cueActions_kept | with_reducible apply State.cueFired_kept | with_reducible apply State.cueToJobs_kept | with_reducible apply State.cueAfter_kept | with_reducible apply ite_kept | with_reducible apply foldl_kept | with_reducible refine Kept.fst (by with_reducible assumption) ?_ | (extract_lets +onlyGivenNames x; refine Kept.cut (s₀ := s₀) x ?_ ?_; unfold x; clear x; rotate_left; intro hx; clear_value x; rotate_right) | (extract_lets +onlyGivenNames x; clear_value x) | split | with_reducible exact Kept.upd (by with_reducible assumption))

theorem State.offerBody_kept {s₀ : State} (x0 : State) (x1 : Handshake) (h : Kept s₀ x0) : Kept s₀ (State.offerBody x0 x1).1 := by
  unfold State.offerBody
  split
  · exact State.drawBytes_kept x0 1607 h
  · exact Kept.upd (State.drawBytes_kept x0 32 h)

theorem State.deviceSig_kept {s₀ : State} (x0 : State) (x1 : String) (x2 : Digest) (h : Kept s₀ x0) : Kept s₀ (State.deviceSig x0 x1 x2).1 := by
  unfold State.deviceSig
  repeat' (first | with_reducible assumption | (intro _) | with_reducible apply ite_kept | with_reducible apply foldl_kept | with_reducible refine Kept.fst (by with_reducible assumption) ?_ | (extract_lets +onlyGivenNames x; refine Kept.cut (s₀ := s₀) x ?_ ?_; unfold x; clear x; rotate_left; intro hx; clear_value x; rotate_right) | (extract_lets +onlyGivenNames x; clear_value x) | split | with_reducible exact Kept.upd (by with_reducible assumption))

theorem State.modSec_kept {s₀ : State} (x0 : State) (x1 : Sec → Sec) (h : Kept s₀ x0) : Kept s₀ (State.modSec x0 x1) := Kept.upd h

theorem State.takeMsg_kept {s₀ s t : State} {o : HsOrigin} {n : Nat} {x : HsMsg} (e : s.takeMsg o n = some (x, t))
    (h : Kept s₀ s) : Kept s₀ t := by
  unfold State.takeMsg at e
  split at e
  · cases e
    exact State.modSec_kept _ _ h
  · cases e

theorem State.dropHand_kept {s₀ : State} (x0 : State) (x1 : Handshake) (h : Kept s₀ x0) : Kept s₀ (State.dropHand x0 x1) := Kept.upd h

theorem State.sendMsg_kept {s₀ : State} (x0 : State) (x1 : HsOrigin) (x2 : BitVec 48) (x3 : BitVec 128) (x4 : BitVec 16) (x5 : Nat) (x6 : Nat) (x7 : List Byte) (h : Kept s₀ x0) : Kept s₀ (State.sendMsg x0 x1 x2 x3 x4 x5 x6 x7) := by
  unfold State.sendMsg
  repeat' (first | with_reducible assumption | (intro _) | with_reducible apply State.drawNat_kept | with_reducible apply State.sendReel_kept | with_reducible apply State.writeVia_kept | with_reducible apply State.modSec_kept | with_reducible apply ite_kept | with_reducible apply foldl_kept | with_reducible refine Kept.fst (by with_reducible assumption) ?_ | (extract_lets +onlyGivenNames x; refine Kept.cut (s₀ := s₀) x ?_ ?_; unfold x; clear x; rotate_left; intro hx; clear_value x; rotate_right) | (extract_lets +onlyGivenNames x; clear_value x) | split | with_reducible exact Kept.upd (by with_reducible assumption))

theorem hsTimeout_kept {s₀ : State} (x0 : HsOrigin) (x1 : Byte) (x2 : State) (h : Kept s₀ x2) : Kept s₀ (hsTimeout x0 x1 x2) := by
  unfold hsTimeout
  repeat' (first | with_reducible assumption | (intro _) | with_reducible apply advance_kept | with_reducible apply State.offerBody_kept | with_reducible apply State.deviceSig_kept | with_reducible apply State.dropHand_kept | with_reducible apply State.sendMsg_kept | with_reducible apply ite_kept | with_reducible apply foldl_kept | with_reducible refine Kept.fst (by with_reducible assumption) ?_ | (extract_lets +onlyGivenNames x; refine Kept.cut (s₀ := s₀) x ?_ ?_; unfold x; clear x; rotate_left; intro hx; clear_value x; rotate_right) | (extract_lets +onlyGivenNames x; clear_value x) | split | with_reducible exact Kept.upd (by with_reducible assumption))

theorem State.setSession_kept {s₀ : State} (x0 : State) (x1 : Nat) (x2 : Session) (h : Kept s₀ x0) : Kept s₀ (State.setSession x0 x1 x2) := Kept.upd h

theorem State.newHand_kept {s₀ : State} (x0 : State) (x1 : HsMsg) (h : Kept s₀ x0) : Kept s₀ (State.newHand x0 x1) := by
  unfold State.newHand
  repeat' (first | with_reducible assumption | (intro _) | with_reducible apply State.setSession_kept | with_reducible apply State.modSec_kept | with_reducible apply ite_kept | with_reducible apply foldl_kept | with_reducible refine Kept.fst (by with_reducible assumption) ?_ | (extract_lets +onlyGivenNames x; refine Kept.cut (s₀ := s₀) x ?_ ?_; unfold x; clear x; rotate_left; intro hx; clear_value x; rotate_right) | (extract_lets +onlyGivenNames x; clear_value x) | split | with_reducible exact Kept.upd (by with_reducible assumption))

theorem State.loseReels_kept {s₀ : State} (x0 : State) (x1 : Fin 256) (h : Kept s₀ x0) : Kept s₀ (State.loseReels x0 x1) := by
  unfold State.loseReels
  repeat' (first | with_reducible assumption | (intro _) | with_reducible apply State.detachReel_kept | with_reducible apply State.raise_kept | with_reducible apply ite_kept | with_reducible apply foldl_kept | with_reducible apply iterate_kept | with_reducible exact Kept.upd (by with_reducible assumption) | (extract_lets +onlyGivenNames x; refine Kept.cut (s₀ := s₀) x ?_ ?_; unfold x; clear x; rotate_left; intro hx; clear_value x; rotate_right) | (extract_lets +onlyGivenNames x; clear_value x))

theorem State.sessionChange_kept {s₀ : State} (x0 : State) (h : Kept s₀ x0) : Kept s₀ (State.sessionChange x0) := by
  unfold State.sessionChange
  repeat' (first | with_reducible assumption | with_reducible apply State.raise_kept)

theorem State.closeSession_kept {s₀ : State} (x0 : State) (x1 : Fin 256) (x2 : Nat) (h : Kept s₀ x0) : Kept s₀ (State.closeSession x0 x1 x2) := by
  unfold State.closeSession
  repeat' (first | with_reducible assumption | (intro _) | with_reducible apply State.setSession_kept | with_reducible apply State.loseReels_kept | with_reducible apply State.modSec_kept | with_reducible apply State.modPort_kept | with_reducible apply State.sessionChange_kept | with_reducible apply State.auditAs_kept | with_reducible apply ite_kept | with_reducible apply foldl_kept | with_reducible refine Kept.fst (by with_reducible assumption) ?_ | (extract_lets +onlyGivenNames x; refine Kept.cut (s₀ := s₀) x ?_ ?_; unfold x; clear x; rotate_left; intro hx; clear_value x; rotate_right) | (extract_lets +onlyGivenNames x; clear_value x) | split | with_reducible exact Kept.upd (by with_reducible assumption))

theorem State.installLink_kept {s₀ : State} (x0 : State) (x1 : Nat) (x2 : Fin 256) (x3 : BitVec 48) (x4 : Digest) (h : Kept s₀ x0) : Kept s₀ (State.installLink x0 x1 x2 x3 x4) := by
  unfold State.installLink
  repeat' (first | with_reducible assumption | (intro _) | with_reducible apply State.closeSession_kept | with_reducible apply State.modPort_kept | with_reducible apply State.setRn_kept | with_reducible apply ite_kept | with_reducible apply foldl_kept | with_reducible refine Kept.fst (by with_reducible assumption) ?_ | (extract_lets +onlyGivenNames x; refine Kept.cut (s₀ := s₀) x ?_ ?_; unfold x; clear x; rotate_left; intro hx; clear_value x; rotate_right) | (extract_lets +onlyGivenNames x; clear_value x) | split | with_reducible exact Kept.upd (by with_reducible assumption))

theorem hello_kept {s₀ : State} (x0 : HsOrigin) (x1 : State) (h : Kept s₀ x1) : Kept s₀ (hello x0 x1) := by
  unfold hello
  split
  · exact h
  · rename_i heq
    have ht := State.takeMsg_kept heq h
    refine ite_kept ht ?_
    split
    · refine ite_kept ?_ (State.newHand_kept _ _ (State.dropHand_kept _ _ ht))
      exact ite_kept ht (State.sendMsg_kept _ _ _ _ _ _ _ _ ht)
    · exact State.newHand_kept _ _ ht

theorem sessionLifetimeExpiry_kept {s₀ : State} (x0 : Fin 256) (x1 : State) (h : Kept s₀ x1) : Kept s₀ (sessionLifetimeExpiry x0 x1) := by
  unfold sessionLifetimeExpiry
  repeat' (first | with_reducible assumption | with_reducible apply State.closeSession_kept | with_reducible apply advance_kept | with_reducible exact Kept.upd (by with_reducible assumption) | with_reducible apply ite_kept)

theorem State.takeFragment_kept {s₀ : State} (x0 : State) (x1 : HsOrigin) (x2 : BitVec 48) (x3 : BitVec 128) (x4 : BitVec 16) (x5 : Option (BitVec 64)) (x6 : List Byte) (h : Kept s₀ x0) : Kept s₀ (State.takeFragment x0 x1 x2 x3 x4 x5 x6) := by
  unfold State.takeFragment
  repeat' (first | with_reducible assumption | with_reducible apply State.modSec_kept | with_reducible exact Kept.upd (by with_reducible assumption) | with_reducible apply ite_kept)

theorem State.setHand_kept {s₀ : State} (x0 : State) (x1 : Handshake) (h : Kept s₀ x0) : Kept s₀ (State.setHand x0 x1) := Kept.upd h

theorem offer_kept {s₀ : State} (x0 : HsOrigin) (x1 : Byte) (x2 : State) (h : Kept s₀ x2) : Kept s₀ (offer x0 x1 x2) := by
  unfold offer
  repeat' (first | with_reducible assumption | (intro _) | with_reducible apply State.offerBody_kept | with_reducible apply State.deviceSig_kept | with_reducible apply State.sendMsg_kept | with_reducible apply State.dropHand_kept | with_reducible apply State.setHand_kept | with_reducible apply ite_kept | with_reducible apply foldl_kept | with_reducible refine Kept.fst (by with_reducible assumption) ?_ | (extract_lets +onlyGivenNames x; refine Kept.cut (s₀ := s₀) x ?_ ?_; unfold x; clear x; rotate_left; intro hx; clear_value x; rotate_right) | (extract_lets +onlyGivenNames x; clear_value x) | split | with_reducible exact Kept.upd (by with_reducible assumption))

theorem State.closeWhere_kept {s₀ : State} (x0 : State) (x1 : Session → Bool) (x2 : Nat) (h : Kept s₀ x0) : Kept s₀ (State.closeWhere x0 x1 x2) := by
  unfold State.closeWhere
  repeat' (first | with_reducible assumption | (intro _) | with_reducible apply State.closeSession_kept | with_reducible apply ite_kept | with_reducible apply foldl_kept | with_reducible apply iterate_kept | with_reducible exact Kept.upd (by with_reducible assumption) | (extract_lets +onlyGivenNames x; refine Kept.cut (s₀ := s₀) x ?_ ?_; unfold x; clear x; rotate_left; intro hx; clear_value x; rotate_right) | (extract_lets +onlyGivenNames x; clear_value x))

theorem State.openSession_kept {s₀ : State} (x0 : State) (x1 : Handshake) (x2 : Fin 256) (h : Kept s₀ x0) : Kept s₀ (State.openSession x0 x1 x2) := by
  unfold State.openSession
  repeat' (first | with_reducible assumption | (intro _) | with_reducible apply State.installLink_kept | with_reducible apply State.setSession_kept | with_reducible apply State.modSec_kept | with_reducible apply State.setWin_kept | with_reducible apply State.sessionChange_kept | with_reducible apply State.auditAs_kept | with_reducible apply ite_kept | with_reducible apply foldl_kept | with_reducible refine Kept.fst (by with_reducible assumption) ?_ | (extract_lets +onlyGivenNames x; refine Kept.cut (s₀ := s₀) x ?_ ?_; unfold x; clear x; rotate_left; intro hx; clear_value x; rotate_right) | (extract_lets +onlyGivenNames x; clear_value x) | split | with_reducible exact Kept.upd (by with_reducible assumption))

theorem doneRow_kept {s₀ : State} (x0 : HsOrigin) (x1 : Byte) (x2 : State) (h : Kept s₀ x2) : Kept s₀ (doneRow x0 x1 x2) := by
  unfold doneRow
  repeat' (first | with_reducible assumption | (intro _) | with_reducible apply State.dropHand_kept | with_reducible apply State.sendMsg_kept | with_reducible apply State.openSession_kept | with_reducible apply ite_kept | with_reducible apply foldl_kept | with_reducible refine Kept.fst (by with_reducible assumption) ?_ | (extract_lets +onlyGivenNames x; refine Kept.cut (s₀ := s₀) x ?_ ?_; unfold x; clear x; rotate_left; intro hx; clear_value x; rotate_right) | (extract_lets +onlyGivenNames x; clear_value x) | split | with_reducible exact Kept.upd (by with_reducible assumption))

theorem State.sessCloseWrite_kept {s₀ : State} (x0 : State) (x1 : Nat) (h : Kept s₀ x0) : Kept s₀ (State.sessCloseWrite x0 x1) := by
  unfold State.sessCloseWrite
  repeat' (first | with_reducible assumption | (intro _) | with_reducible apply State.closeSession_kept | with_reducible apply ite_kept | with_reducible apply foldl_kept | with_reducible refine Kept.fst (by with_reducible assumption) ?_ | (extract_lets +onlyGivenNames x; refine Kept.cut (s₀ := s₀) x ?_ ?_; unfold x; clear x; rotate_left; intro hx; clear_value x; rotate_right) | (extract_lets +onlyGivenNames x; clear_value x) | split | with_reducible exact Kept.upd (by with_reducible assumption))

theorem rekey_kept {s₀ : State} (x0 : Fin 4) (x1 : State) (h : Kept s₀ x1) : Kept s₀ (rekey x0 x1) := by
  unfold rekey
  repeat' (first | with_reducible assumption | (intro _) | with_reducible apply State.modPort_kept | with_reducible apply State.drawNat_kept | with_reducible apply State.sendMsg_kept | with_reducible apply ite_kept | with_reducible apply foldl_kept | with_reducible refine Kept.fst (by with_reducible assumption) ?_ | (extract_lets +onlyGivenNames x; refine Kept.cut (s₀ := s₀) x ?_ ?_; unfold x; clear x; rotate_left; intro hx; clear_value x; rotate_right) | (extract_lets +onlyGivenNames x; clear_value x) | split | with_reducible exact Kept.upd (by with_reducible assumption))

theorem closeMsg_kept {s₀ : State} (x0 : HsOrigin) (x1 : State) (h : Kept s₀ x1) : Kept s₀ (closeMsg x0 x1) := by
  unfold closeMsg
  split
  · exact h
  · rename_i heq
    have ht := State.takeMsg_kept heq h
    split
    · exact State.closeSession_kept _ _ _ ht
    · exact ht

theorem accept_kept {s₀ : State} (x0 : HsOrigin) (x1 : State) (h : Kept s₀ x1) : Kept s₀ (accept x0 x1) := by
  unfold accept
  split
  · exact h
  · rename_i heq
    have ht := State.takeMsg_kept heq h
    split
    · exact ht
    · exact State.setHand_kept _ _ ht

theorem rekeyTxSwitch_kept {s₀ : State} (x0 : Fin 4) (x1 : State) (h : Kept s₀ x1) : Kept s₀ (rekeyTxSwitch x0 x1) := by
  unfold rekeyTxSwitch
  repeat' (first | with_reducible assumption | (intro _) | with_reducible apply State.setRn_kept | with_reducible apply State.modPort_kept | with_reducible apply ite_kept | with_reducible apply foldl_kept | with_reducible refine Kept.fst (by with_reducible assumption) ?_ | (extract_lets +onlyGivenNames x; refine Kept.cut (s₀ := s₀) x ?_ ?_; unfold x; clear x; rotate_left; intro hx; clear_value x; rotate_right) | (extract_lets +onlyGivenNames x; clear_value x) | split | with_reducible exact Kept.upd (by with_reducible assumption))

theorem State.mboxWrite_kept {s₀ : State} (x0 : State) (x1 : Fin 8) (x2 : Nat) (h : Kept s₀ x0) : Kept s₀ (State.mboxWrite x0 x1 x2) := by
  unfold State.mboxWrite
  repeat' (first | with_reducible assumption | with_reducible apply State.modSec_kept | with_reducible apply State.readVia_kept | with_reducible apply State.dramUe_kept | with_reducible apply State.takeFragment_kept | with_reducible exact Kept.upd (by with_reducible assumption) | with_reducible apply ite_kept)

theorem State.lifetimes_kept {s₀ : State} (x0 : State) (h : Kept s₀ x0) : Kept s₀ (State.lifetimes x0) := by
  unfold State.lifetimes
  repeat' (first | with_reducible assumption | with_reducible apply State.closeWhere_kept)

theorem State.rxDrop_kept {s₀ : State} (x0 : State) (x1 : Nat) (h : Kept s₀ x0) : Kept s₀ (State.rxDrop x0 x1) := by
  unfold State.rxDrop
  repeat' (first | with_reducible assumption | with_reducible apply State.raise_kept | with_reducible apply State.satReg_kept)

theorem State.noFlow_kept {s₀ : State} (x0 : State) (h : Kept s₀ x0) : Kept s₀ (State.noFlow x0) := Kept.upd h

theorem State.txTake_kept {s₀ : State} (x0 : State) (x1 : Nat) (x2 : Nat) (h : Kept s₀ x0) : Kept s₀ (State.txTake x0 x1 x2) := by
  unfold State.txTake
  repeat' (first | with_reducible assumption | with_reducible apply State.readVia_kept | with_reducible apply State.modPort_kept)

theorem State.creditNow_kept {s₀ : State} (x0 : State) (x1 : Nat) (h : Kept s₀ x0) : Kept s₀ (State.creditNow x0 x1) := Kept.upd h

theorem State.sendPfc_kept {s₀ : State} (x0 : State) (x1 : Nat) (x2 : Nat) (h : Kept s₀ x0) : Kept s₀ (State.sendPfc x0 x1 x2) := by
  unfold State.sendPfc
  repeat' (first | with_reducible assumption | with_reducible apply State.incReg_kept | with_reducible apply State.modPort_kept | with_reducible exact Kept.upd (by with_reducible assumption) | with_reducible apply ite_kept)

theorem State.pfcCheck_kept {s₀ : State} (x0 : State) (x1 : Nat) (h : Kept s₀ x0) : Kept s₀ (State.pfcCheck x0 x1) := by
  unfold State.pfcCheck
  repeat' (first | with_reducible assumption | with_reducible apply State.sendPfc_kept | with_reducible apply State.setPort_kept | with_reducible exact Kept.upd (by with_reducible assumption) | with_reducible apply ite_kept)

theorem State.popStaging_kept {s₀ : State} (x0 : State) (x1 : Nat) (h : Kept s₀ x0) : Kept s₀ (State.popStaging x0 x1) := by
  unfold State.popStaging
  repeat' (first | with_reducible assumption | with_reducible apply State.pfcCheck_kept | with_reducible apply State.modPort_kept)

theorem State.txFill_kept {s₀ : State} (x0 : State) (x1 : Nat) (h : Kept s₀ x0) : Kept s₀ (State.txFill x0 x1) := by
  unfold State.txFill
  repeat' (first | with_reducible assumption | (intro _) | with_reducible apply State.txTake_kept | with_reducible apply State.creditNow_kept | with_reducible apply State.modPort_kept | with_reducible apply ite_kept | with_reducible apply foldl_kept | with_reducible apply iterate_kept | with_reducible exact Kept.upd (by with_reducible assumption) | (extract_lets +onlyGivenNames x; refine Kept.cut (s₀ := s₀) x ?_ ?_; unfold x; clear x; rotate_left; intro hx; clear_value x; rotate_right) | (extract_lets +onlyGivenNames x; clear_value x))

theorem State.classify_kept {s₀ : State} (x0 : State) (x1 : Nat) (x2 : Frame) (h : Kept s₀ x0) : Kept s₀ (State.classify x0 x1 x2) := by
  unfold State.classify
  repeat' (first | with_reducible assumption | with_reducible apply State.setPort_kept | with_reducible apply State.satReg_kept | with_reducible apply State.pfcCheck_kept | with_reducible apply State.rxDrop_kept | with_reducible exact Kept.upd (by with_reducible assumption) | with_reducible apply ite_kept)

theorem linkUp_kept {s₀ : State} (x0 : Nat) (x1 : State) (h : Kept s₀ x1) : Kept s₀ (linkUp x0 x1) := by
  unfold linkUp
  repeat' (first | with_reducible assumption | (intro _) | with_reducible apply State.drawBool_kept | with_reducible apply State.raise_kept | with_reducible apply State.modPort_kept | with_reducible apply ite_kept | with_reducible apply foldl_kept | with_reducible refine Kept.fst (by with_reducible assumption) ?_ | (extract_lets +onlyGivenNames x; refine Kept.cut (s₀ := s₀) x ?_ ?_; unfold x; clear x; rotate_left; intro hx; clear_value x; rotate_right) | (extract_lets +onlyGivenNames x; clear_value x) | split | with_reducible exact Kept.upd (by with_reducible assumption))

theorem State.cmplBytes_kept {s₀ : State} (x0 : State) (x1 : Nat) (x2 : Nat) (x3 : Nat) (x4 : Nat) (h : Kept s₀ x0) : Kept s₀ (State.cmplBytes x0 x1 x2 x3 x4).1 := by
  unfold State.cmplBytes
  repeat' (first | with_reducible assumption | (intro _) | with_reducible apply State.readVia_kept | with_reducible apply ite_kept | with_reducible apply ite_fst_kept | with_reducible apply foldl_kept | with_reducible apply foldl_fst_kept | with_reducible apply iterate_kept | with_reducible refine Kept.fst (by with_reducible assumption) ?_ | (extract_lets +onlyGivenNames x; refine Kept.cut (s₀ := s₀) x ?_ ?_; unfold x; clear x; rotate_left; intro hx; clear_value x; rotate_right) | (extract_lets +onlyGivenNames x; clear_value x) | split | with_reducible exact Kept.upd (by with_reducible assumption) | dsimp only)

theorem State.fecCount_kept {s₀ : State} (x0 : State) (x1 : Nat) (h : Kept s₀ x0) : Kept s₀ (State.fecCount x0 x1) := by
  unfold State.fecCount
  repeat' (first | with_reducible assumption | with_reducible apply State.drawNat_kept | with_reducible apply State.satReg_kept | with_reducible apply State.raise_kept | with_reducible exact Kept.upd (by with_reducible assumption) | with_reducible apply ite_kept)

theorem frameReceive_kept {s₀ : State} (x0 : Nat) (x1 : Frame) (x2 : State) (h : Kept s₀ x2) : Kept s₀ (frameReceive x0 x1 x2) := by
  unfold frameReceive
  repeat' (first | with_reducible assumption | with_reducible apply State.incReg_kept | with_reducible apply State.fecCount_kept | with_reducible apply State.satReg_kept | with_reducible apply State.classify_kept | with_reducible apply State.notePn_kept | with_reducible exact Kept.upd (by with_reducible assumption) | with_reducible apply ite_kept)

theorem State.badFrame_kept {s₀ : State} (x0 : State) (h : Kept s₀ x0) : Kept s₀ (State.badFrame x0) := Kept.upd h

theorem State.popCmdBuf_kept {s₀ : State} (x0 : State) (x1 : Nat) (h : Kept s₀ x0) : Kept s₀ (State.popCmdBuf x0 x1) := Kept.upd h

theorem State.reelFrame_kept {s₀ : State} (x0 : State) (x1 : Nat) (x2 : Nat) (x3 : Frame → ReelHdr → List Byte → State → State) (h : Kept s₀ x0) (k3 : ∀ (y0 : Frame) (y1 : ReelHdr) (y2 : List Byte) (y3 : State), Kept s₀ y3 → Kept s₀ (x3 y0 y1 y2 y3)) : Kept s₀ (State.reelFrame x0 x1 x2 x3) := by
  unfold State.reelFrame
  repeat' (first | with_reducible assumption | (intro _) | with_reducible apply k3 | with_reducible apply State.badFrame_kept | with_reducible apply State.popCmdBuf_kept | with_reducible apply ite_kept | with_reducible apply foldl_kept | with_reducible refine Kept.fst (by with_reducible assumption) ?_ | (extract_lets +onlyGivenNames x; refine Kept.cut (s₀ := s₀) x ?_ ?_; unfold x; clear x; rotate_left; intro hx; clear_value x; rotate_right) | (extract_lets +onlyGivenNames x; clear_value x) | split | with_reducible exact Kept.upd (by with_reducible assumption))

theorem State.badSession_kept {s₀ : State} (x0 : State) (h : Kept s₀ x0) : Kept s₀ (State.badSession x0) := Kept.upd h

theorem State.sessionFrame_kept {s₀ : State} (x0 : State) (x1 : Fin 4) (x2 : Nat) (x3 : Bool) (x4 : Fin 256 → ReelHdr → List Byte → State → State) (h : Kept s₀ x0) (k4 : ∀ (y0 : Fin 256) (y1 : ReelHdr) (y2 : List Byte) (y3 : State), Kept s₀ y3 → Kept s₀ (x4 y0 y1 y2 y3)) : Kept s₀ (State.sessionFrame x0 x1 x2 x3 x4) := by
  unfold State.sessionFrame
  repeat' (first | with_reducible assumption | (intro _) | with_reducible apply k4 | with_reducible apply State.reelFrame_kept | with_reducible apply State.badSession_kept | with_reducible apply State.setSession_kept | with_reducible apply ite_kept | with_reducible apply foldl_kept | with_reducible refine Kept.fst (by with_reducible assumption) ?_ | (extract_lets +onlyGivenNames x; refine Kept.cut (s₀ := s₀) x ?_ ?_; unfold x; clear x; rotate_left; intro hx; clear_value x; rotate_right) | (extract_lets +onlyGivenNames x; clear_value x) | split | with_reducible exact Kept.upd (by with_reducible assumption))

theorem State.txHead_kept {s₀ : State} (x0 : State) (x1 : Nat) (h : Kept s₀ x0) : Kept s₀ (State.txHead x0 x1) := Kept.upd h

theorem State.txDone_kept {s₀ : State} (x0 : State) (x1 : Nat) (x2 : Nat) (x3 : Bool) (h : Kept s₀ x0) : Kept s₀ (State.txDone x0 x1 x2 x3) := by
  unfold State.txDone
  repeat' (first | with_reducible assumption | with_reducible apply State.readVia_kept | with_reducible apply State.writeVia_kept | with_reducible apply State.txHead_kept | with_reducible exact Kept.upd (by with_reducible assumption) | with_reducible apply ite_kept)

theorem linkDown_kept {s₀ : State} (x0 : Nat) (x1 : State) (h : Kept s₀ x1) : Kept s₀ (linkDown x0 x1) := by
  unfold linkDown
  repeat' (first | with_reducible assumption | (intro _) | with_reducible apply State.drawBool_kept | with_reducible apply State.modPort_kept | with_reducible apply State.txDone_kept | with_reducible apply State.raise_kept | with_reducible apply ite_kept | with_reducible apply foldl_kept | with_reducible refine Kept.fst (by with_reducible assumption) ?_ | (extract_lets +onlyGivenNames x; refine Kept.cut (s₀ := s₀) x ?_ ?_; unfold x; clear x; rotate_left; intro hx; clear_value x; rotate_right) | (extract_lets +onlyGivenNames x; clear_value x) | split | with_reducible exact Kept.upd (by with_reducible assumption))

theorem pfcReceive_kept {s₀ : State} (x0 : Nat) (x1 : Nat) (x2 : Nat → Nat) (x3 : State) (h : Kept s₀ x3) : Kept s₀ (pfcReceive x0 x1 x2 x3) := by
  unfold pfcReceive
  repeat' (first | with_reducible assumption | with_reducible apply State.incReg_kept | with_reducible apply State.satReg_kept | with_reducible apply State.modPort_kept | with_reducible exact Kept.upd (by with_reducible assumption) | with_reducible apply ite_kept)

theorem State.sendCmpl_kept {s₀ : State} (x0 : State) (x1 : Nat) (x2 : Nat) (x3 : Word) (x4 : Nat) (x5 : Nat) (h : Kept s₀ x0) : Kept s₀ (State.sendCmpl x0 x1 x2 x3 x4 x5) := by
  unfold State.sendCmpl
  repeat' (first | with_reducible assumption | with_reducible apply State.cmplBytes_kept | with_reducible apply State.modReel_kept | with_reducible apply State.sendPeer_kept)

theorem cmplSend_kept {s₀ : State} (x0 : Nat) (x1 : State) (h : Kept s₀ x1) : Kept s₀ (cmplSend x0 x1) := by
  unfold cmplSend
  repeat' (first | with_reducible assumption | (intro _) | with_reducible apply State.sendCmpl_kept | with_reducible apply State.modReel_kept | with_reducible apply ite_kept | with_reducible apply foldl_kept | with_reducible refine Kept.fst (by with_reducible assumption) ?_ | (extract_lets +onlyGivenNames x; refine Kept.cut (s₀ := s₀) x ?_ ?_; unfold x; clear x; rotate_left; intro hx; clear_value x; rotate_right) | (extract_lets +onlyGivenNames x; clear_value x) | split | with_reducible exact Kept.upd (by with_reducible assumption))

theorem cmplRetry_kept {s₀ : State} (x0 : Nat) (x1 : State) (h : Kept s₀ x1) : Kept s₀ (cmplRetry x0 x1) := by
  unfold cmplRetry
  repeat' (first | with_reducible assumption | (intro _) | with_reducible apply State.modReel_kept | with_reducible apply State.sendCmpl_kept | with_reducible apply ite_kept | with_reducible apply foldl_kept | with_reducible refine Kept.fst (by with_reducible assumption) ?_ | (extract_lets +onlyGivenNames x; refine Kept.cut (s₀ := s₀) x ?_ ?_; unfold x; clear x; rotate_left; intro hx; clear_value x; rotate_right) | (extract_lets +onlyGivenNames x; clear_value x) | split | with_reducible exact Kept.upd (by with_reducible assumption))

theorem State.egressWait_kept {s₀ : State} (x0 : State) (x1 : Nat) (x2 : TxFrame) (h : Kept s₀ x0) : Kept s₀ (State.egressWait x0 x1 x2) := by
  unfold State.egressWait
  repeat' (first | with_reducible assumption | with_reducible apply State.drawNat_kept | with_reducible apply State.setRn_kept | with_reducible exact Kept.upd (by with_reducible assumption) | with_reducible apply ite_kept)

theorem State.creditSent_kept {s₀ : State} (x0 : State) (x1 : Nat) (x2 : TxFrame) (h : Kept s₀ x0) : Kept s₀ (State.creditSent x0 x1 x2) := Kept.upd h

theorem State.ackCmpl_kept {s₀ : State} (x0 : State) (x1 : Nat) (x2 : Word) (h : Kept s₀ x0) : Kept s₀ (State.ackCmpl x0 x1 x2) := by
  unfold State.ackCmpl
  repeat' (first | with_reducible assumption | (intro _) | with_reducible apply State.setReel_kept | with_reducible apply ite_kept | with_reducible apply foldl_kept | with_reducible refine Kept.fst (by with_reducible assumption) ?_ | (extract_lets +onlyGivenNames x; refine Kept.cut (s₀ := s₀) x ?_ ?_; unfold x; clear x; rotate_left; intro hx; clear_value x; rotate_right) | (extract_lets +onlyGivenNames x; clear_value x) | split | with_reducible exact Kept.upd (by with_reducible assumption))

theorem State.apuDeliver_kept {s₀ : State} (x0 : State) (x1 : Nat) (x2 : Frame) (x3 : Bool) (h : Kept s₀ x0) : Kept s₀ (State.apuDeliver x0 x1 x2 x3) := by
  unfold State.apuDeliver
  repeat' (first | with_reducible assumption | with_reducible apply State.rxDrop_kept | with_reducible apply State.readVia_kept | with_reducible apply State.writeVia_kept | with_reducible apply State.setRn_kept | with_reducible exact Kept.upd (by with_reducible assumption) | with_reducible apply ite_kept)

theorem apuRxFrame_kept {s₀ : State} (x0 : Nat) (x1 : State) (h : Kept s₀ x1) : Kept s₀ (apuRxFrame x0 x1) := by
  unfold apuRxFrame
  repeat' (first | with_reducible assumption | (intro _) | with_reducible apply State.apuDeliver_kept | with_reducible apply State.popCmdBuf_kept | with_reducible apply State.popStaging_kept | with_reducible apply State.noFlow_kept | with_reducible apply ite_kept | with_reducible apply foldl_kept | with_reducible refine Kept.fst (by with_reducible assumption) ?_ | (extract_lets +onlyGivenNames x; refine Kept.cut (s₀ := s₀) x ?_ ?_; unfold x; clear x; rotate_left; intro hx; clear_value x; rotate_right) | (extract_lets +onlyGivenNames x; clear_value x) | split | with_reducible exact Kept.upd (by with_reducible assumption))

theorem cmdFrame_kept {s₀ : State} (x0 : Fin 4) (x1 : State) (h : Kept s₀ x1) : Kept s₀ (cmdFrame x0 x1) := by
  unfold cmdFrame
  repeat' (first | with_reducible assumption | (intro _) | with_reducible apply State.sessionFrame_kept | with_reducible apply State.ackCmpl_kept | with_reducible apply State.pushCmd_kept | with_reducible apply State.modReel_kept | with_reducible apply State.reelDrops_kept | with_reducible apply State.sendPeerFree_kept | with_reducible apply State.netCount_kept | with_reducible apply ite_kept | with_reducible apply foldl_kept | with_reducible apply iterate_kept | with_reducible exact Kept.upd (by with_reducible assumption) | (extract_lets +onlyGivenNames x; refine Kept.cut (s₀ := s₀) x ?_ ?_; unfold x; clear x; rotate_left; intro hx; clear_value x; rotate_right) | (extract_lets +onlyGivenNames x; clear_value x))

theorem attach_kept {s₀ : State} (x0 : Fin 4) (x1 : State) (h : Kept s₀ x1) : Kept s₀ (attach x0 x1) := by
  unfold attach
  repeat' (first | with_reducible assumption | (intro _) | with_reducible apply State.sessionFrame_kept | with_reducible apply State.drawBytes_kept | with_reducible apply State.sendPeerFree_kept | with_reducible apply State.modReel_kept | with_reducible apply State.sendCmpl_kept | with_reducible apply ite_kept | with_reducible apply foldl_kept | with_reducible apply iterate_kept | with_reducible exact Kept.upd (by with_reducible assumption) | (extract_lets +onlyGivenNames x; refine Kept.cut (s₀ := s₀) x ?_ ?_; unfold x; clear x; rotate_left; intro hx; clear_value x; rotate_right) | (extract_lets +onlyGivenNames x; clear_value x))

theorem sessionLost_kept {s₀ : State} (x0 : Fin 256) (x1 : State) (h : Kept s₀ x1) : Kept s₀ (sessionLost x0 x1) := by
  unfold sessionLost
  repeat' (first | with_reducible assumption | with_reducible apply State.loseReels_kept | with_reducible apply advance_kept | with_reducible exact Kept.upd (by with_reducible assumption) | with_reducible apply ite_kept)

theorem ackFrame_kept {s₀ : State} (x0 : Fin 4) (x1 : State) (h : Kept s₀ x1) : Kept s₀ (ackFrame x0 x1) := by
  unfold ackFrame
  repeat' (first | with_reducible assumption | (intro _) | with_reducible apply State.sessionFrame_kept | with_reducible apply State.ackCmpl_kept | with_reducible apply ite_kept | with_reducible apply foldl_kept | with_reducible apply iterate_kept | with_reducible exact Kept.upd (by with_reducible assumption) | (extract_lets +onlyGivenNames x; refine Kept.cut (s₀ := s₀) x ?_ ?_; unfold x; clear x; rotate_left; intro hx; clear_value x; rotate_right) | (extract_lets +onlyGivenNames x; clear_value x))

theorem handshakeFrame_kept {s₀ : State} (x0 : Fin 4) (x1 : State) (h : Kept s₀ x1) : Kept s₀ (handshakeFrame x0 x1) := by
  unfold handshakeFrame
  repeat' (first | with_reducible assumption | (intro _) | with_reducible apply State.reelFrame_kept | with_reducible apply State.satReg_kept | with_reducible apply State.setPort_kept | with_reducible apply State.takeFragment_kept | with_reducible apply ite_kept | with_reducible apply foldl_kept | with_reducible apply iterate_kept | with_reducible exact Kept.upd (by with_reducible assumption) | (extract_lets +onlyGivenNames x; refine Kept.cut (s₀ := s₀) x ?_ ?_; unfold x; clear x; rotate_left; intro hx; clear_value x; rotate_right) | (extract_lets +onlyGivenNames x; clear_value x))

theorem State.txProtect_kept {s₀ : State} (x0 : State) (x1 : Nat) (h : Kept s₀ x0) : Kept s₀ (State.txProtect x0 x1).1 := by
  unfold State.txProtect
  repeat' (first | with_reducible assumption | (intro _) | with_reducible apply State.modPort_kept | with_reducible apply State.raise_kept | with_reducible apply State.setRn_kept | with_reducible apply State.satReg_kept | with_reducible apply ite_kept | with_reducible apply foldl_kept | with_reducible refine Kept.fst (by with_reducible assumption) ?_ | (extract_lets +onlyGivenNames x; refine Kept.cut (s₀ := s₀) x ?_ ?_; unfold x; clear x; rotate_left; intro hx; clear_value x; rotate_right) | (extract_lets +onlyGivenNames x; clear_value x) | split | with_reducible exact Kept.upd (by with_reducible assumption))

theorem pfcRefresh_kept {s₀ : State} (x0 : Nat) (x1 : State) (h : Kept s₀ x1) : Kept s₀ (pfcRefresh x0 x1) := by
  unfold pfcRefresh
  repeat' (first | with_reducible assumption | with_reducible apply State.sendPfc_kept | with_reducible exact Kept.upd (by with_reducible assumption) | with_reducible apply ite_kept)

theorem txFrameDone_kept {s₀ : State} (x0 : Nat) (x1 : State) (h : Kept s₀ x1) : Kept s₀ (txFrameDone x0 x1) := by
  unfold txFrameDone
  repeat' (first | with_reducible assumption | (intro _) | with_reducible apply State.creditSent_kept | with_reducible apply State.egressWait_kept | with_reducible apply State.modPort_kept | with_reducible apply State.txProtect_kept | with_reducible apply State.txDone_kept | with_reducible apply ite_kept | with_reducible apply foldl_kept | with_reducible refine Kept.fst (by with_reducible assumption) ?_ | (extract_lets +onlyGivenNames x; refine Kept.cut (s₀ := s₀) x ?_ ?_; unfold x; clear x; rotate_left; intro hx; clear_value x; rotate_right) | (extract_lets +onlyGivenNames x; clear_value x) | split | with_reducible exact Kept.upd (by with_reducible assumption))

theorem State.txQueue_kept {s₀ : State} (x0 : State) (x1 : Nat) (x2 : Nat) (h : Kept s₀ x0) : Kept s₀ (State.txQueue x0 x1 x2) := by
  unfold State.txQueue
  repeat' (first | with_reducible assumption | with_reducible apply State.txFill_kept | with_reducible apply State.setRn_kept)

theorem pfcPauseExpiry_kept {s₀ : State} (x0 : Nat) (x1 : Nat) (x2 : State) (h : Kept s₀ x2) : Kept s₀ (pfcPauseExpiry x0 x1 x2) := Kept.upd h

theorem detach_kept {s₀ : State} (x0 : Fin 4) (x1 : State) (h : Kept s₀ x1) : Kept s₀ (detach x0 x1) := by
  unfold detach
  repeat' (first | with_reducible assumption | (intro _) | with_reducible apply State.sessionFrame_kept | with_reducible apply State.detachReel_kept | with_reducible apply State.sendPeerFree_kept | with_reducible apply ite_kept | with_reducible apply foldl_kept | with_reducible apply iterate_kept | with_reducible exact Kept.upd (by with_reducible assumption) | (extract_lets +onlyGivenNames x; refine Kept.cut (s₀ := s₀) x ?_ ?_; unfold x; clear x; rotate_left; intro hx; clear_value x; rotate_right) | (extract_lets +onlyGivenNames x; clear_value x))

theorem ackSend_kept {s₀ : State} (x0 : Nat) (x1 : State) (h : Kept s₀ x1) : Kept s₀ (ackSend x0 x1) := by
  unfold ackSend
  repeat' (first | with_reducible assumption | (intro _) | with_reducible apply State.modReel_kept | with_reducible apply State.sendPeerFree_kept | with_reducible apply ite_kept | with_reducible apply foldl_kept | with_reducible refine Kept.fst (by with_reducible assumption) ?_ | (extract_lets +onlyGivenNames x; refine Kept.cut (s₀ := s₀) x ?_ ?_; unfold x; clear x; rotate_left; intro hx; clear_value x; rotate_right) | (extract_lets +onlyGivenNames x; clear_value x) | split | with_reducible exact Kept.upd (by with_reducible assumption))

theorem State.endCancelled_kept {s₀ : State} (x0 : State) (x1 : BitVec 16) (h : Kept s₀ x0) : Kept s₀ (State.endCancelled x0 x1) := by
  unfold State.endCancelled
  repeat' (first | with_reducible assumption | (intro _) | with_reducible apply State.runDone_kept | with_reducible apply State.recoveryDrops_kept | with_reducible apply State.modJob_kept | with_reducible apply ite_kept | with_reducible apply foldl_kept | with_reducible refine Kept.fst (by with_reducible assumption) ?_ | (extract_lets +onlyGivenNames x; refine Kept.cut (s₀ := s₀) x ?_ ?_; unfold x; clear x; rotate_left; intro hx; clear_value x; rotate_right) | (extract_lets +onlyGivenNames x; clear_value x) | split | with_reducible exact Kept.upd (by with_reducible assumption))

theorem cancelDone_kept {s₀ : State} (x0 : BitVec 16) (x1 : State) (h : Kept s₀ x1) : Kept s₀ (cancelDone x0 x1) := by
  unfold cancelDone
  repeat' (first | with_reducible assumption | (intro _) | with_reducible apply State.modJob_kept | with_reducible apply State.endCancelled_kept | with_reducible apply State.freeTake_kept | with_reducible apply State.restoreCnts_kept | with_reducible apply State.unbind_kept | with_reducible apply State.cancelRuns_kept | with_reducible apply State.modReel_kept | with_reducible apply State.complete_kept | with_reducible apply State.shapeCheck_kept | with_reducible apply ite_kept | with_reducible apply foldl_kept | with_reducible refine Kept.fst (by with_reducible assumption) ?_ | (extract_lets +onlyGivenNames x; refine Kept.cut (s₀ := s₀) x ?_ ?_; unfold x; clear x; rotate_left; intro hx; clear_value x; rotate_right) | (extract_lets +onlyGivenNames x; clear_value x) | split | with_reducible exact Kept.upd (by with_reducible assumption))

theorem State.acceptRun_kept {s₀ : State} (x0 : State) (x1 : Cmd) (x2 : Job) (x3 : Bool) (h : Kept s₀ x0) : Kept s₀ (State.acceptRun x0 x1 x2 x3) := by
  unfold State.acceptRun
  repeat' (first | with_reducible assumption | with_reducible apply State.modReel_kept | with_reducible apply State.setCue_kept | with_reducible apply State.setJob_kept | with_reducible apply ite_kept | with_reducible exact Kept.upd (by with_reducible assumption) | (extract_lets +onlyGivenNames x; refine Kept.cut (s₀ := s₀) x ?_ ?_; unfold x; clear x; rotate_left; intro hx; clear_value x; rotate_right) | (extract_lets +onlyGivenNames x; clear_value x))

theorem State.cancelTake_kept {s₀ : State} (x0 : State) (x1 : BitVec 16) (h : Kept s₀ x0) : Kept s₀ (State.cancelTake x0 x1) := by
  unfold State.cancelTake
  repeat' (first | with_reducible assumption | (intro _) | with_reducible apply State.revert_kept | with_reducible apply State.endCancelled_kept | with_reducible apply State.freeTake_kept | with_reducible apply State.restoreCnts_kept | with_reducible apply State.modJob_kept | with_reducible apply State.modCore_kept | with_reducible apply ite_kept | with_reducible apply foldl_kept | with_reducible refine Kept.fst (by with_reducible assumption) ?_ | (extract_lets +onlyGivenNames x; refine Kept.cut (s₀ := s₀) x ?_ ?_; unfold x; clear x; rotate_left; intro hx; clear_value x; rotate_right) | (extract_lets +onlyGivenNames x; clear_value x) | split | with_reducible exact Kept.upd (by with_reducible assumption))

theorem State.cancelJob_kept {s₀ : State} (x0 : State) (x1 : Cmd) (x2 : Job) (x3 : Nat) (h : Kept s₀ x0) : Kept s₀ (State.cancelJob x0 x1 x2 x3) := by
  unfold State.cancelJob
  repeat' (first | with_reducible assumption | with_reducible apply State.cancelRuns_kept | with_reducible apply State.modJob_kept | with_reducible apply State.cancelTake_kept | with_reducible apply State.modReel_kept | with_reducible exact Kept.upd (by with_reducible assumption) | with_reducible apply ite_kept)

theorem State.takeCancel_kept {s₀ : State} (x0 : State) (x1 : Nat) (x2 : Nat) (h : Kept s₀ x0) : Kept s₀ (State.takeCancel x0 x1 x2) := by
  unfold State.takeCancel
  repeat' (first | with_reducible assumption | (intro _) | with_reducible apply State.takeCmd_kept | with_reducible apply State.withJob_kept | with_reducible apply State.cancelJob_kept | with_reducible apply ite_kept | with_reducible apply foldl_kept | with_reducible apply iterate_kept | with_reducible exact Kept.upd (by with_reducible assumption) | (extract_lets +onlyGivenNames x; refine Kept.cut (s₀ := s₀) x ?_ ?_; unfold x; clear x; rotate_left; intro hx; clear_value x; rotate_right) | (extract_lets +onlyGivenNames x; clear_value x))

theorem cancelPending_kept {s₀ : State} (x0 : Nat) (x1 : State) (h : Kept s₀ x1) : Kept s₀ (cancelPending x0 x1) := by
  unfold cancelPending
  repeat' (first | with_reducible assumption | with_reducible apply State.takeCancel_kept)

theorem State.takeRun_kept {s₀ : State} (x0 : State) (x1 : Nat) (x2 : Nat) (h : Kept s₀ x0) : Kept s₀ (State.takeRun x0 x1 x2) := by
  unfold State.takeRun
  repeat' (first | with_reducible assumption | (intro _) | with_reducible apply State.takeCmd_kept | with_reducible apply State.withJob_kept | with_reducible apply State.refuse_kept | with_reducible apply State.acceptRun_kept | with_reducible apply ite_kept | with_reducible apply foldl_kept | with_reducible refine Kept.fst (by with_reducible assumption) ?_ | (extract_lets +onlyGivenNames x; refine Kept.cut (s₀ := s₀) x ?_ ?_; unfold x; clear x; rotate_left; intro hx; clear_value x; rotate_right) | (extract_lets +onlyGivenNames x; clear_value x) | split | with_reducible exact Kept.upd (by with_reducible assumption))

theorem arm_kept {s₀ : State} (x0 : Nat) (x1 : State) (h : Kept s₀ x1) : Kept s₀ (arm x0 x1) := by
  unfold arm
  repeat' (first | with_reducible assumption | with_reducible apply State.takeRun_kept)

theorem cancel_kept {s₀ : State} (x0 : Nat) (x1 : State) (h : Kept s₀ x1) : Kept s₀ (cancel x0 x1) := by
  unfold cancel
  repeat' (first | with_reducible assumption | with_reducible apply State.takeCancel_kept)

theorem cancelUnbind_kept {s₀ : State} (x0 : Nat) (x1 : State) (h : Kept s₀ x1) : Kept s₀ (cancelUnbind x0 x1) := by
  unfold cancelUnbind
  repeat' (first | with_reducible assumption | with_reducible apply State.takeCancel_kept)

theorem query_kept {s₀ : State} (x0 : Nat) (x1 : State) (h : Kept s₀ x1) : Kept s₀ (query x0 x1) := by
  unfold query
  repeat' (first | with_reducible assumption | (intro _) | with_reducible apply State.takeCmd_kept | with_reducible apply State.withJob_kept | with_reducible apply State.done_kept | with_reducible apply ite_kept | with_reducible apply foldl_kept | with_reducible apply iterate_kept | with_reducible exact Kept.upd (by with_reducible assumption) | (extract_lets +onlyGivenNames x; refine Kept.cut (s₀ := s₀) x ?_ ?_; unfold x; clear x; rotate_left; intro hx; clear_value x; rotate_right) | (extract_lets +onlyGivenNames x; clear_value x))

theorem run_kept {s₀ : State} (x0 : Nat) (x1 : State) (h : Kept s₀ x1) : Kept s₀ (run x0 x1) := by
  unfold run
  repeat' (first | with_reducible assumption | with_reducible apply State.takeRun_kept)

theorem State.loseTake_kept {s₀ : State} (x0 : State) (x1 : BitVec 16) (x2 : Bool) (h : Kept s₀ x0) : Kept s₀ (State.loseTake x0 x1 x2) := by
  unfold State.loseTake
  repeat' (first | with_reducible assumption | (intro _) | with_reducible apply State.modCore_kept | with_reducible apply State.setJob_kept | with_reducible apply ite_kept | with_reducible apply foldl_kept | with_reducible refine Kept.fst (by with_reducible assumption) ?_ | (extract_lets +onlyGivenNames x; refine Kept.cut (s₀ := s₀) x ?_ ?_; unfold x; clear x; rotate_left; intro hx; clear_value x; rotate_right) | (extract_lets +onlyGivenNames x; clear_value x) | split | with_reducible exact Kept.upd (by with_reducible assumption))

theorem dailyOverdue_kept {s₀ : State} (x0 : Nat) (x1 : State) (h : Kept s₀ x1) : Kept s₀ (dailyOverdue x0 x1) := by
  unfold dailyOverdue
  repeat' (first | with_reducible assumption | with_reducible apply State.raise_kept | with_reducible apply State.setHealth_kept | with_reducible exact Kept.upd (by with_reducible assumption) | with_reducible apply ite_kept)

theorem State.disarm_kept {s₀ : State} (x0 : State) (x1 : Nat) (h : Kept s₀ x0) : Kept s₀ (State.disarm x0 x1) := by
  unfold State.disarm
  repeat' (first | with_reducible assumption | with_reducible apply State.commitRes_kept | with_reducible apply State.setArmed_kept | with_reducible exact Kept.upd (by with_reducible assumption) | with_reducible apply ite_kept)

theorem State.retired_kept {s₀ : State} (x0 : State) (x1 : Nat) (h : Kept s₀ x0) : Kept s₀ (State.retired x0 x1) := by
  unfold State.retired
  repeat' (first | with_reducible assumption | (intro _) | with_reducible apply State.disarm_kept | with_reducible apply State.setRn_kept | with_reducible apply State.ispOff_kept | with_reducible apply State.shapeChecks_kept | with_reducible apply ite_kept | with_reducible apply foldl_kept | with_reducible refine Kept.fst (by with_reducible assumption) ?_ | (extract_lets +onlyGivenNames x; refine Kept.cut (s₀ := s₀) x ?_ ?_; unfold x; clear x; rotate_left; intro hx; clear_value x; rotate_right) | (extract_lets +onlyGivenNames x; clear_value x) | split | with_reducible exact Kept.upd (by with_reducible assumption))

theorem dailyStart_kept {s₀ : State} (x0 : Nat) (x1 : State) (h : Kept s₀ x1) : Kept s₀ (dailyStart x0 x1) := by
  unfold dailyStart
  repeat' (first | with_reducible assumption | with_reducible apply State.setHealth_kept | with_reducible apply State.modCore_kept | with_reducible exact Kept.upd (by with_reducible assumption) | with_reducible apply ite_kept)

theorem State.recoveryFrom_kept {s₀ : State} (x0 : State) (x1 : Nat) (h : Kept s₀ x0) : Kept s₀ (State.recoveryFrom x0 x1) := Kept.upd h

theorem c1Stop_kept {s₀ : State} (x0 : Nat) (x1 : State) (h : Kept s₀ x1) : Kept s₀ (c1Stop x0 x1) := by
  unfold c1Stop
  repeat' (first | with_reducible assumption | (intro _) | with_reducible apply State.recoveryFrom_kept | with_reducible apply State.loseTake_kept | with_reducible apply State.incReg_kept | with_reducible apply ite_kept | with_reducible apply foldl_kept | with_reducible refine Kept.fst (by with_reducible assumption) ?_ | (extract_lets +onlyGivenNames x; refine Kept.cut (s₀ := s₀) x ?_ ?_; unfold x; clear x; rotate_left; intro hx; clear_value x; rotate_right) | (extract_lets +onlyGivenNames x; clear_value x) | split | with_reducible exact Kept.upd (by with_reducible assumption))

theorem State.putReport_kept {s₀ : State} (x0 : State) (x1 : List Byte) (h : Kept s₀ x0) : Kept s₀ (State.putReport x0 x1) := by
  unfold State.putReport
  repeat' (first | with_reducible assumption | with_reducible apply State.raise_kept | with_reducible apply State.satReg_kept | with_reducible apply State.setRn_kept | with_reducible apply State.writeVia_kept | with_reducible exact Kept.upd (by with_reducible assumption) | with_reducible apply ite_kept)

theorem State.dropDaily_kept {s₀ : State} (x0 : State) (x1 : Nat) (h : Kept s₀ x0) : Kept s₀ (State.dropDaily x0 x1) := by
  unfold State.dropDaily
  repeat' (first | with_reducible assumption | with_reducible apply State.setHealth_kept | with_reducible apply State.setCore_kept | with_reducible exact Kept.upd (by with_reducible assumption) | with_reducible apply ite_kept)

theorem State.endDaily_kept {s₀ : State} (x0 : State) (x1 : Nat) (h : Kept s₀ x0) : Kept s₀ (State.endDaily x0 x1) := by
  unfold State.endDaily
  repeat' (first | with_reducible assumption | with_reducible apply State.dropDaily_kept | with_reducible apply State.setHealth_kept | with_reducible exact Kept.upd (by with_reducible assumption) | with_reducible apply ite_kept)

theorem dailyComplete_kept {s₀ : State} (x0 : Nat) (x1 : DailyResult) (x2 : Nat) (x3 : Nat) (x4 : State) (h : Kept s₀ x4) : Kept s₀ (dailyComplete x0 x1 x2 x3 x4) := by
  unfold dailyComplete
  repeat' (first | with_reducible assumption | with_reducible apply State.endDaily_kept | with_reducible apply State.setHealth_kept | with_reducible apply State.incReg_kept | with_reducible apply State.setHealthSt_kept | with_reducible apply State.raise_kept | with_reducible apply State.satReg_kept | with_reducible apply State.putReport_kept | with_reducible apply State.retired_kept | with_reducible exact Kept.upd (by with_reducible assumption) | with_reducible apply ite_kept)

theorem c2Stop_kept {s₀ : State} (x0 : State) (h : Kept s₀ x0) : Kept s₀ (c2Stop x0) := by
  unfold c2Stop
  repeat' (first | with_reducible assumption | (intro _) | with_reducible apply State.dropDaily_kept | with_reducible apply State.loseTake_kept | with_reducible apply State.modCore_kept | with_reducible apply State.recoveryFrom_kept | with_reducible apply State.incReg_kept | with_reducible apply ite_kept | with_reducible apply foldl_kept | with_reducible refine Kept.fst (by with_reducible assumption) ?_ | (extract_lets +onlyGivenNames x; refine Kept.cut (s₀ := s₀) x ?_ ?_; unfold x; clear x; rotate_left; intro hx; clear_value x; rotate_right) | (extract_lets +onlyGivenNames x; clear_value x) | split | with_reducible exact Kept.upd (by with_reducible assumption))

theorem packVerify_kept {s₀ : State} (x0 : State) (h : Kept s₀ x0) : Kept s₀ (packVerify x0) := by
  unfold packVerify
  repeat' (first | with_reducible assumption | (intro _) | with_reducible apply State.readVia_kept | with_reducible apply State.dramUe_kept | with_reducible apply State.setRn_kept | with_reducible apply ite_kept | with_reducible apply ite_fst_kept | with_reducible apply foldl_kept | with_reducible apply foldl_fst_kept | with_reducible apply iterate_kept | with_reducible refine Kept.fst (by with_reducible assumption) ?_ | with_reducible refine State.takeMsg_kept (by with_reducible assumption) ?_ | (extract_lets +onlyGivenNames x; refine Kept.cut (s₀ := s₀) x ?_ ?_; unfold x; clear x; rotate_left; intro hx; clear_value x; rotate_right) | (extract_lets +onlyGivenNames x; refine Kept.cutF (s₀ := s₀) x ?_ ?_; unfold x; clear x; rotate_left; intro hxf; clear_value x; rotate_right) | with_reducible apply hxf | (extract_lets +onlyGivenNames x; clear_value x) | split | with_reducible exact Kept.upd (by with_reducible assumption) | (with_reducible refine Kept.upd ?_; first | with_reducible apply State.readVia_kept | with_reducible apply State.dramUe_kept | with_reducible apply State.setRn_kept | with_reducible apply ite_kept | with_reducible apply foldl_kept | with_reducible apply iterate_kept) | dsimp only)

theorem tensorComplexReset_kept {s₀ : State} (x0 : State) (h : Kept s₀ x0) : Kept s₀ (tensorComplexReset x0) := by
  unfold tensorComplexReset
  repeat' (first | with_reducible assumption | (intro _) | with_reducible apply State.modCore_kept | with_reducible apply State.modCluster_kept | with_reducible apply State.recoveryEnds_kept | with_reducible apply ite_kept | with_reducible apply ite_fst_kept | with_reducible apply foldl_kept | with_reducible apply foldl_fst_kept | with_reducible apply iterate_kept | with_reducible refine Kept.fst (by with_reducible assumption) ?_ | with_reducible refine State.takeMsg_kept (by with_reducible assumption) ?_ | (extract_lets +onlyGivenNames x; refine Kept.cut (s₀ := s₀) x ?_ ?_; unfold x; clear x; rotate_left; intro hx; clear_value x; rotate_right) | (extract_lets +onlyGivenNames x; refine Kept.cutF (s₀ := s₀) x ?_ ?_; unfold x; clear x; rotate_left; intro hxf; clear_value x; rotate_right) | with_reducible apply hxf | (extract_lets +onlyGivenNames x; clear_value x) | split | with_reducible exact Kept.upd (by with_reducible assumption) | (with_reducible refine Kept.upd ?_; first | with_reducible apply State.modCore_kept | with_reducible apply State.modCluster_kept | with_reducible apply State.recoveryEnds_kept | with_reducible apply ite_kept | with_reducible apply foldl_kept | with_reducible apply iterate_kept) | dsimp only)

theorem State.vcCount_kept {s₀ : State} (x0 : State) (x1 : Nat) (x2 : Nat) (x3 : Nat) (x4 : Nat) (x5 : Nat) (h : Kept s₀ x0) : Kept s₀ (State.vcCount x0 x1 x2 x3 x4 x5) := by
  unfold State.vcCount
  repeat' (first | with_reducible assumption | with_reducible apply State.raise_kept | with_reducible apply State.satReg_kept | with_reducible apply State.setWin_kept)

theorem State.vcDrop_kept {s₀ : State} (x0 : State) (x1 : Nat) (x2 : Nat) (h : Kept s₀ x0) : Kept s₀ (State.vcDrop x0 x1 x2) := by
  unfold State.vcDrop
  repeat' (first | with_reducible assumption | with_reducible apply State.vcCount_kept)

theorem State.setVc_kept {s₀ : State} (x0 : State) (x1 : Nat) (x2 : VcCtx) (h : Kept s₀ x0) : Kept s₀ (State.setVc x0 x1 x2) := Kept.upd h

theorem State.vcPicture_kept {s₀ : State} (x0 : State) (x1 : Nat) (x2 : Nat) (x3 : Tk) (h : Kept s₀ x0) : Kept s₀ (State.vcPicture x0 x1 x2 x3) := by
  unfold State.vcPicture
  repeat' (first | with_reducible assumption | with_reducible apply State.drawBool_kept | with_reducible apply State.vcDrop_kept | with_reducible apply State.drawBytes_kept | with_reducible apply State.putFrame_kept | with_reducible apply State.setVc_kept | with_reducible apply State.raise_kept | with_reducible apply State.setWin_kept | with_reducible exact Kept.upd (by with_reducible assumption) | with_reducible apply ite_kept)

theorem State.vcEncode_kept {s₀ : State} (x0 : State) (x1 : Nat) (x2 : Nat) (x3 : Nat) (h : Kept s₀ x0) : Kept s₀ (State.vcEncode x0 x1 x2 x3) := by
  unfold State.vcEncode
  repeat' (first | with_reducible assumption | with_reducible apply State.drawNat_kept | with_reducible apply State.drawBytes_kept | with_reducible apply State.auCounts_kept | with_reducible apply State.putAu_kept | with_reducible apply State.setVc_kept | with_reducible apply State.raise_kept | with_reducible apply State.incReg_kept | with_reducible apply State.setWin_kept | with_reducible apply State.vcDrop_kept | with_reducible exact Kept.upd (by with_reducible assumption) | with_reducible apply ite_kept)

theorem State.vcErr_kept {s₀ : State} (x0 : State) (x1 : Nat) (x2 : Nat) (h : Kept s₀ x0) : Kept s₀ (State.vcErr x0 x1 x2) := by
  unfold State.vcErr
  repeat' (first | with_reducible assumption | with_reducible apply State.vcCount_kept)

theorem encodeFrame_kept {s₀ : State} (x0 : Nat) (x1 : Nat) (x2 : State) (h : Kept s₀ x2) : Kept s₀ (encodeFrame x0 x1 x2) := by
  unfold encodeFrame
  repeat' (first | with_reducible assumption | (intro _) | with_reducible apply State.readVia_kept | with_reducible apply State.drawBool_kept | with_reducible apply State.drawNat_kept | with_reducible apply State.vcEncode_kept | with_reducible apply State.vcErr_kept | with_reducible apply State.setVc_kept | with_reducible apply State.vcDrop_kept | with_reducible apply State.tagRead_kept | with_reducible apply State.tagFault_kept | with_reducible apply ite_kept | with_reducible apply foldl_kept | with_reducible refine Kept.fst (by with_reducible assumption) ?_ | (extract_lets +onlyGivenNames x; refine Kept.cut (s₀ := s₀) x ?_ ?_; unfold x; clear x; rotate_left; intro hx; clear_value x; rotate_right) | (extract_lets +onlyGivenNames x; clear_value x) | split | with_reducible exact Kept.upd (by with_reducible assumption))

theorem State.vcFlush_kept {s₀ : State} (x0 : State) (x1 : Nat) (x2 : Nat) (x3 : Nat) (h : Kept s₀ x0) : Kept s₀ (State.vcFlush x0 x1 x2 x3) := by
  induction x3 generalizing x0 with
  | zero => exact h
  | succ k ih =>
    unfold State.vcFlush
    dsimp only
    split
    · exact h
    · exact ih _ (State.vcPicture_kept _ _ _ _ (State.setVc_kept _ _ _ (State.drawNat_kept _ _ h)))

theorem State.vcDecoded_kept {s₀ : State} (x0 : State) (x1 : Nat) (x2 : Nat) (x3 : Tk) (h : Kept s₀ x0) : Kept s₀ (State.vcDecoded x0 x1 x2 x3) := by
  unfold State.vcDecoded
  repeat' (first | with_reducible assumption | with_reducible apply State.incReg_kept | with_reducible apply State.vcPicture_kept | with_reducible apply State.setVc_kept | with_reducible apply State.drawNat_kept | with_reducible apply State.vcFlush_kept | with_reducible exact Kept.upd (by with_reducible assumption) | with_reducible apply ite_kept)

theorem State.vcTake_kept {s₀ : State} (x0 : State) (x1 : Nat) (x2 : Nat) (x3 : Nat) (x4 : Nat) (x5 : Nat) (x6 : Nat) (h : Kept s₀ x0) : Kept s₀ (State.vcTake x0 x1 x2 x3 x4 x5 x6) := by
  unfold State.vcTake
  repeat' (first | with_reducible assumption | (intro _) | with_reducible apply State.readVia_kept | with_reducible apply State.getBlocks_kept | with_reducible apply State.tagFault_kept | with_reducible apply State.drawBool_kept | with_reducible apply State.vcErr_kept | with_reducible apply State.setVc_kept | with_reducible apply State.vcDrop_kept | with_reducible apply State.vcDecoded_kept | with_reducible apply State.writeVia_kept | with_reducible apply State.setWin_kept | with_reducible apply ite_kept | with_reducible apply foldl_kept | with_reducible refine Kept.fst (by with_reducible assumption) ?_ | (extract_lets +onlyGivenNames x; refine Kept.cut (s₀ := s₀) x ?_ ?_; unfold x; clear x; rotate_left; intro hx; clear_value x; rotate_right) | (extract_lets +onlyGivenNames x; clear_value x) | split | with_reducible exact Kept.upd (by with_reducible assumption))

theorem decodePicture_kept {s₀ : State} (x0 : Nat) (x1 : State) (h : Kept s₀ x1) : Kept s₀ (decodePicture x0 x1) := by
  unfold decodePicture
  repeat' (first | with_reducible assumption | (intro _) | with_reducible apply State.vcTake_kept | with_reducible apply ite_kept | with_reducible apply foldl_kept | with_reducible refine Kept.fst (by with_reducible assumption) ?_ | (extract_lets +onlyGivenNames x; refine Kept.cut (s₀ := s₀) x ?_ ?_; unfold x; clear x; rotate_left; intro hx; clear_value x; rotate_right) | (extract_lets +onlyGivenNames x; clear_value x) | split | with_reducible exact Kept.upd (by with_reducible assumption))

theorem State.dropVc_kept {s₀ : State} (x0 : State) (x1 : Nat) (x2 : Nat) (h : Kept s₀ x0) : Kept s₀ (State.dropVc x0 x1 x2) := Kept.upd h

theorem State.vcStored_kept {s₀ : State} (x0 : State) (x1 : Nat) (x2 : Nat) (h : Kept s₀ x0) : Kept s₀ (State.vcStored x0 x1 x2) := by
  unfold State.vcStored
  repeat' (first | with_reducible assumption | with_reducible apply State.dropVc_kept | with_reducible apply State.vcFlush_kept | with_reducible apply State.setVc_kept | with_reducible exact Kept.upd (by with_reducible assumption) | with_reducible apply ite_kept)

theorem State.flowStored_kept {s₀ : State} (x0 : State) (x1 : Nat) (h : Kept s₀ x0) : Kept s₀ (State.flowStored x0 x1) := by
  unfold State.flowStored
  repeat' (first | with_reducible assumption | with_reducible apply State.setFlow_kept | with_reducible exact Kept.upd (by with_reducible assumption) | with_reducible apply ite_kept)

theorem State.phaseSample_kept {s₀ : State} (x0 : State) (x1 : Nat) (x2 : List Byte) (h : Kept s₀ x0) : Kept s₀ (State.phaseSample x0 x1 x2) := by
  unfold State.phaseSample
  repeat' (first | with_reducible assumption | (intro _) | with_reducible apply State.axSample_kept | with_reducible apply ite_kept | with_reducible apply foldl_kept | with_reducible apply iterate_kept | with_reducible exact Kept.upd (by with_reducible assumption) | (extract_lets +onlyGivenNames x; refine Kept.cut (s₀ := s₀) x ?_ ?_; unfold x; clear x; rotate_left; intro hx; clear_value x; rotate_right) | (extract_lets +onlyGivenNames x; clear_value x))

theorem State.phaseDeliver_kept {s₀ : State} (x0 : State) (x1 : Nat) (x2 : Frame) (x3 : ReelHdr) (x4 : List Byte) (h : Kept s₀ x0) : Kept s₀ (State.phaseDeliver x0 x1 x2 x3 x4) := by
  unfold State.phaseDeliver
  repeat' (first | with_reducible assumption | (intro _) | with_reducible apply State.noFlow_kept | with_reducible apply State.flowCount_kept | with_reducible apply State.phaseSample_kept | with_reducible apply ite_kept | with_reducible apply foldl_kept | with_reducible refine Kept.fst (by with_reducible assumption) ?_ | (extract_lets +onlyGivenNames x; refine Kept.cut (s₀ := s₀) x ?_ ?_; unfold x; clear x; rotate_left; intro hx; clear_value x; rotate_right) | (extract_lets +onlyGivenNames x; clear_value x) | split | with_reducible exact Kept.upd (by with_reducible assumption))

theorem phaseFrame_kept {s₀ : State} (x0 : Nat) (x1 : State) (h : Kept s₀ x1) : Kept s₀ (phaseFrame x0 x1) := by
  unfold phaseFrame
  repeat' (first | with_reducible assumption | (intro _) | with_reducible apply State.reelFrame_kept | with_reducible apply State.phaseDeliver_kept | with_reducible apply State.popStaging_kept | with_reducible apply State.badFrame_kept | with_reducible apply ite_kept | with_reducible apply foldl_kept | with_reducible refine Kept.fst (by with_reducible assumption) ?_ | (extract_lets +onlyGivenNames x; refine Kept.cut (s₀ := s₀) x ?_ ?_; unfold x; clear x; rotate_left; intro hx; clear_value x; rotate_right) | (extract_lets +onlyGivenNames x; clear_value x) | split | with_reducible exact Kept.upd (by with_reducible assumption))

theorem State.setGated_kept {s₀ : State} (x0 : State) (x1 : Nat) (x2 : Bool) (h : Kept s₀ x0) : Kept s₀ (State.setGated x0 x1 x2) := Kept.upd h

theorem State.gateOpen_kept {s₀ : State} (x0 : State) (x1 : Nat) (h : Kept s₀ x0) : Kept s₀ (State.gateOpen x0 x1) := by
  unfold State.gateOpen
  repeat' (first | with_reducible assumption | with_reducible apply State.setFlow_kept | with_reducible apply State.setGated_kept | with_reducible exact Kept.upd (by with_reducible assumption) | with_reducible apply ite_kept)

theorem State.flowAbort_kept {s₀ : State} (x0 : State) (x1 : Nat) (h : Kept s₀ x0) : Kept s₀ (State.flowAbort x0 x1) := by
  unfold State.flowAbort
  repeat' (first | with_reducible assumption | with_reducible apply State.flowCount_kept | with_reducible apply State.setFlow_kept | with_reducible exact Kept.upd (by with_reducible assumption) | with_reducible apply ite_kept)

theorem State.flowBegin_kept {s₀ : State} (x0 : State) (x1 : Nat) (x2 : Nat) (x3 : Frame) (x4 : Pkt) (h : Kept s₀ x0) : Kept s₀ (State.flowBegin x0 x1 x2 x3 x4) := by
  unfold State.flowBegin
  repeat' (first | with_reducible assumption | with_reducible apply State.auCounts_kept | with_reducible apply State.setFlow_kept)

theorem State.flowWrite_kept {s₀ : State} (x0 : State) (x1 : Nat) (x2 : Nat) (h : Kept s₀ x0) : Kept s₀ (State.flowWrite x0 x1 x2) := by
  unfold State.flowWrite
  repeat' (first | with_reducible assumption | with_reducible apply State.putAu_kept | with_reducible apply State.setWin_kept | with_reducible apply State.setFlow_kept | with_reducible apply State.flowCount_kept | with_reducible exact Kept.upd (by with_reducible assumption) | with_reducible apply ite_kept)

theorem State.flowPacket_kept {s₀ : State} (x0 : State) (x1 : Nat) (x2 : Nat) (x3 : Frame) (x4 : Pkt) (h : Kept s₀ x0) : Kept s₀ (State.flowPacket x0 x1 x2 x3 x4) := by
  unfold State.flowPacket
  repeat' (first | with_reducible assumption | (intro _) | with_reducible apply State.setFlow_kept | with_reducible apply State.flowAbort_kept | with_reducible apply State.flowBegin_kept | with_reducible apply State.flowWrite_kept | with_reducible apply ite_kept | with_reducible apply foldl_kept | with_reducible refine Kept.fst (by with_reducible assumption) ?_ | (extract_lets +onlyGivenNames x; refine Kept.cut (s₀ := s₀) x ?_ ?_; unfold x; clear x; rotate_left; intro hx; clear_value x; rotate_right) | (extract_lets +onlyGivenNames x; clear_value x) | split | with_reducible exact Kept.upd (by with_reducible assumption))

theorem State.gateClose_kept {s₀ : State} (x0 : State) (x1 : Nat) (h : Kept s₀ x0) : Kept s₀ (State.gateClose x0 x1) := by
  unfold State.gateClose
  repeat' (first | with_reducible assumption | with_reducible apply State.setGated_kept | with_reducible apply State.flowAbort_kept | with_reducible exact Kept.upd (by with_reducible assumption) | with_reducible apply ite_kept)

theorem flowGate_kept {s₀ : State} (x0 : Nat) (x1 : Nat) (x2 : State → Nat → State) (x3 : State) (k2 : ∀ (y0 : State) (y1 : Nat), Kept s₀ y0 → Kept s₀ (x2 y0 y1)) (h : Kept s₀ x3) : Kept s₀ (flowGate x0 x1 x2 x3) := by
  unfold flowGate
  repeat' (first | with_reducible assumption | (intro _) | with_reducible apply k2 | with_reducible apply State.takeCmd_kept | with_reducible apply State.done_kept | with_reducible apply ite_kept | with_reducible apply foldl_kept | with_reducible apply iterate_kept | with_reducible exact Kept.upd (by with_reducible assumption) | (extract_lets +onlyGivenNames x; refine Kept.cut (s₀ := s₀) x ?_ ?_; unfold x; clear x; rotate_left; intro hx; clear_value x; rotate_right) | (extract_lets +onlyGivenNames x; clear_value x))

theorem flowFrame_kept {s₀ : State} (x0 : Nat) (x1 : State) (h : Kept s₀ x1) : Kept s₀ (flowFrame x0 x1) := by
  unfold flowFrame
  repeat' (first | with_reducible assumption | (intro _) | with_reducible apply State.popStaging_kept | with_reducible apply State.badFrame_kept | with_reducible apply State.flowCount_kept | with_reducible apply State.flowPacket_kept | with_reducible apply ite_kept | with_reducible apply foldl_kept | with_reducible refine Kept.fst (by with_reducible assumption) ?_ | (extract_lets +onlyGivenNames x; refine Kept.cut (s₀ := s₀) x ?_ ?_; unfold x; clear x; rotate_left; intro hx; clear_value x; rotate_right) | (extract_lets +onlyGivenNames x; clear_value x) | split | with_reducible exact Kept.upd (by with_reducible assumption))

theorem State.secRead_kept {s₀ : State} (x0 : State) (x1 : Nat) (x2 : Nat) (h : Kept s₀ x0) : Kept s₀ (State.secRead x0 x1 x2).1 := by
  unfold State.secRead
  repeat' (first | with_reducible assumption | (intro _) | with_reducible apply State.readVia_kept | with_reducible apply State.dramUe_kept | with_reducible apply ite_kept | with_reducible apply foldl_kept | with_reducible refine Kept.fst (by with_reducible assumption) ?_ | (extract_lets +onlyGivenNames x; refine Kept.cut (s₀ := s₀) x ?_ ?_; unfold x; clear x; rotate_left; intro hx; clear_value x; rotate_right) | (extract_lets +onlyGivenNames x; clear_value x) | split | with_reducible exact Kept.upd (by with_reducible assumption))

theorem State.attWrite_kept {s₀ : State} (x0 : State) (x1 : Nat) (h : Kept s₀ x0) : Kept s₀ (State.attWrite x0 x1) := by
  unfold State.attWrite
  repeat' (first | with_reducible assumption | (intro _) | with_reducible apply State.secRead_kept | with_reducible apply State.setRn_kept | with_reducible apply State.modSec_kept | with_reducible apply ite_kept | with_reducible apply foldl_kept | with_reducible refine Kept.fst (by with_reducible assumption) ?_ | (extract_lets +onlyGivenNames x; refine Kept.cut (s₀ := s₀) x ?_ ?_; unfold x; clear x; rotate_left; intro hx; clear_value x; rotate_right) | (extract_lets +onlyGivenNames x; clear_value x) | split | with_reducible exact Kept.upd (by with_reducible assumption))

theorem State.extend_kept {s₀ : State} (x0 : State) (x1 : Nat) (x2 : Digest) (h : Kept s₀ x0) : Kept s₀ (State.extend x0 x1 x2) := Kept.upd h

theorem State.freshNonce_kept {s₀ : State} (x0 : State) (h : Kept s₀ x0) : Kept s₀ (State.freshNonce x0) := Kept.upd h

theorem State.presentToken_kept {s₀ : State} (x0 : State) (x1 : Requester) (x2 : Option (List Byte)) (h : Kept s₀ x0) : Kept s₀ (State.presentToken x0 x1 x2) := by
  unfold State.presentToken
  repeat' (first | with_reducible assumption | (intro _) | with_reducible apply State.setRn_kept | with_reducible apply State.modSec_kept | with_reducible apply State.closeWhere_kept | with_reducible apply State.extend_kept | with_reducible apply State.audit_kept | with_reducible apply State.freshNonce_kept | with_reducible apply ite_kept | with_reducible apply foldl_kept | with_reducible refine Kept.fst (by with_reducible assumption) ?_ | (extract_lets +onlyGivenNames x; refine Kept.cut (s₀ := s₀) x ?_ ?_; unfold x; clear x; rotate_left; intro hx; clear_value x; rotate_right) | (extract_lets +onlyGivenNames x; clear_value x) | split | with_reducible exact Kept.upd (by with_reducible assumption))

theorem State.revokeKey_kept {s₀ : State} (x0 : State) (x1 : Digest) (x2 : Nat → Bool) (h : Kept s₀ x0) : Kept s₀ (State.revokeKey x0 x1 x2) := by
  unfold State.revokeKey
  repeat' (first | with_reducible assumption | with_reducible apply State.closeWhere_kept | with_reducible apply State.modSec_kept)

theorem State.fwWrite_kept {s₀ : State} (x0 : State) (x1 : Requester) (x2 : Nat) (h : Kept s₀ x0) : Kept s₀ (State.fwWrite x0 x1 x2) := by
  unfold State.fwWrite
  dsimp only
  have h1 := State.secRead_kept x0 (addr12 x2) 256 h
  have h2 : Kept s₀ (if fwLenOk (match (x0.secRead (addr12 x2) 256).2 with | some b => fld b 8 4 | none => 0) then
      (x0.secRead (addr12 x2) 256).1.secRead (addr12 x2)
        (match (x0.secRead (addr12 x2) 256).2 with | some b => fld b 8 4 | none => 0)
      else ((x0.secRead (addr12 x2) 256).1, (x0.secRead (addr12 x2) 256).2)).1 :=
    ite_fst_kept (State.secRead_kept _ _ _ h1) h1
  split
  · refine ite_kept ?_ (State.audit_kept _ _ _ _ _ _ _ _ _ (State.modSec_kept _ _ ?_))
    all_goals exact State.raise_kept _ _ _ (State.setRn_kept _ _ _ _ (ite_kept (Kept.upd h2) h2))
  · exact State.raise_kept _ _ _ (State.setRn_kept _ _ _ _ (ite_kept (Kept.upd h2) h2))

theorem attestReq_kept {s₀ : State} (x0 : HsOrigin) (x1 : State) (h : Kept s₀ x1) : Kept s₀ (attestReq x0 x1) := by
  unfold attestReq
  split
  · exact h
  · rename_i heq
    have ht := State.takeMsg_kept heq h
    split
    · exact ite_kept ht (State.modSec_kept _ _ ht)
    · exact ht

theorem State.measWrite_kept {s₀ : State} (x0 : State) (x1 : Nat) (h : Kept s₀ x0) : Kept s₀ (State.measWrite x0 x1) := by
  unfold State.measWrite
  repeat' (first | with_reducible assumption | (intro _) | with_reducible apply State.secRead_kept | with_reducible apply State.extend_kept | with_reducible apply ite_kept | with_reducible apply foldl_kept | with_reducible refine Kept.fst (by with_reducible assumption) ?_ | (extract_lets +onlyGivenNames x; refine Kept.cut (s₀ := s₀) x ?_ ?_; unfold x; clear x; rotate_left; intro hx; clear_value x; rotate_right) | (extract_lets +onlyGivenNames x; clear_value x) | split | with_reducible exact Kept.upd (by with_reducible assumption))

theorem State.enrolWrite_kept {s₀ : State} (x0 : State) (x1 : Requester) (x2 : Nat) (h : Kept s₀ x0) : Kept s₀ (State.enrolWrite x0 x1 x2) := by
  unfold State.enrolWrite
  repeat' (first | with_reducible assumption | (intro _) | with_reducible apply State.secRead_kept | with_reducible apply State.setRn_kept | with_reducible apply State.modSec_kept | with_reducible apply State.extend_kept | with_reducible apply State.audit_kept | with_reducible apply State.revokeKey_kept | with_reducible apply ite_kept | with_reducible apply foldl_kept | with_reducible refine Kept.fst (by with_reducible assumption) ?_ | (extract_lets +onlyGivenNames x; refine Kept.cut (s₀ := s₀) x ?_ ?_; unfold x; clear x; rotate_left; intro hx; clear_value x; rotate_right) | (extract_lets +onlyGivenNames x; clear_value x) | split | with_reducible exact Kept.upd (by with_reducible assumption))

theorem State.tokenWrite_kept {s₀ : State} (x0 : State) (x1 : Requester) (x2 : Nat) (h : Kept s₀ x0) : Kept s₀ (State.tokenWrite x0 x1 x2) := by
  unfold State.tokenWrite
  repeat' (first | with_reducible assumption | with_reducible apply State.secRead_kept | with_reducible apply State.presentToken_kept)

theorem State.fuseWrite_kept {s₀ : State} (x0 : State) (x1 : Requester) (x2 : Nat) (h : Kept s₀ x0) : Kept s₀ (State.fuseWrite x0 x1 x2) := by
  unfold State.fuseWrite
  dsimp only
  have hl : ∀ s : State, Kept s₀ s → Kept s₀ (s.audit 10 x1 0 0xFFFF 0 (w32 (x2 % 16)) (w32 (x2 / 16))).ok :=
    fun s hs => State.ok_kept _ (State.audit_kept _ _ _ _ _ _ _ _ _ hs)
  refine ite_kept ?_ (ite_kept (ite_kept (State.deny_kept _ _ _ _ _ h) ?_) (State.ok_kept _ h))
  · have h1 := State.secRead_kept x0 (addr12 (x2 / 16)) 64 h
    split
    · rename_i s b heq
      rw [heq] at h1
      have hf : Kept s₀ { s with fuse := { s.fuse with oemHash := BitVec.ofNat 512 (leNat b), oemValid := true } } := by
        obtain ⟨hp, ⟨f1, f2, f3, f4, f5, f6, f7, f8, f9, f10, f11, f12⟩, hd⟩ := h1
        exact ⟨hp, ⟨f1, f2, f3, f4, f5, f6, f7, fun _ => rfl, f9, f10, f11, f12⟩, hd⟩
      exact ite_kept (State.deny_kept _ _ _ _ _ h1) (hl _ (ite_kept hf (State.revokeKey_kept _ _ _ hf)))
    · rename_i heq
      rw [heq] at h1
      exact State.ok_kept _ h1
  · have hk : Kept s₀ { x0 with fuse :=
        if x2 % 16 = 2 then { x0.fuse with rootRevoked := true } else { x0.fuse with oemRevoked := true } } := by
      obtain ⟨hp, ⟨f1, f2, f3, f4, f5, f6, f7, f8, f9, f10, f11, f12⟩, hd⟩ := h
      refine ⟨hp, ?_, hd⟩
      dsimp only
      split
      · exact ⟨f1, f2, f3, f4, f5, f6, fun _ => rfl, f8, f9, f10, f11, f12⟩
      · exact ⟨f1, f2, f3, f4, f5, f6, f7, f8, fun _ => rfl, f10, f11, f12⟩
    exact hl _ (ite_kept (State.revokeKey_kept _ _ _ hk) (State.revokeKey_kept _ _ _ hk))

theorem State.deviceTrailer_kept {s₀ : State} (x0 : State) (x1 : String) (x2 : List Byte) (h : Kept s₀ x0) : Kept s₀ (State.deviceTrailer x0 x1 x2).1 := by
  unfold State.deviceTrailer
  repeat' (first | with_reducible assumption | (intro _) | with_reducible apply State.deviceSig_kept | with_reducible apply ite_kept | with_reducible apply foldl_kept | with_reducible refine Kept.fst (by with_reducible assumption) ?_ | (extract_lets +onlyGivenNames x; refine Kept.cut (s₀ := s₀) x ?_ ?_; unfold x; clear x; rotate_left; intro hx; clear_value x; rotate_right) | (extract_lets +onlyGivenNames x; clear_value x) | split | with_reducible exact Kept.upd (by with_reducible assumption))

theorem attestRsp_kept {s₀ : State} (x0 : State) (h : Kept s₀ x0) : Kept s₀ (attestRsp x0) := by
  unfold attestRsp
  repeat' (first | with_reducible assumption | (intro _) | with_reducible apply State.modSec_kept | with_reducible apply State.deviceTrailer_kept | with_reducible apply State.sendMsg_kept | with_reducible apply State.setRn_kept | with_reducible apply State.writeVia_kept | with_reducible apply ite_kept | with_reducible apply foldl_kept | with_reducible refine Kept.fst (by with_reducible assumption) ?_ | (extract_lets +onlyGivenNames x; refine Kept.cut (s₀ := s₀) x ?_ ?_; unfold x; clear x; rotate_left; intro hx; clear_value x; rotate_right) | (extract_lets +onlyGivenNames x; clear_value x) | split | with_reducible exact Kept.upd (by with_reducible assumption))

theorem auditFlashProgram_kept {s₀ : State} (x0 : Bool) (x1 : State) (h : Kept s₀ x1) : Kept s₀ (auditFlashProgram x0 x1) := by
  unfold auditFlashProgram
  repeat' (first | with_reducible assumption | (intro _) | with_reducible apply State.raise_kept | with_reducible apply State.setRn_kept | with_reducible apply State.modSec_kept | with_reducible apply State.deviceTrailer_kept | with_reducible apply ite_kept | with_reducible apply foldl_kept | with_reducible refine Kept.fst (by with_reducible assumption) ?_ | (extract_lets +onlyGivenNames x; refine Kept.cut (s₀ := s₀) x ?_ ?_; unfold x; clear x; rotate_left; intro hx; clear_value x; rotate_right) | (extract_lets +onlyGivenNames x; clear_value x) | split | with_reducible exact Kept.upd (by with_reducible assumption))

theorem jtagInstruction_kept {s₀ : State} (x0 : JtagInstr) (x1 : State) (h : Kept s₀ x1) : Kept s₀ (jtagInstruction x0 x1) := Kept.upd h

theorem State.reset1_kept {s₀ : State} (x0 : State) (x1 : Nat) (h : Kept s₀ x0) : Kept s₀ (State.reset1 x0 x1) := by
  unfold State.reset1
  refine State.setRn_kept _ _ _ _ (State.setRn_kept _ _ _ _ ?_)
  exact ⟨h.1, h.2.1, fun _ => rfl⟩

theorem coldReset_kept {s₀ : State} (x0 : State) (h : Kept s₀ x0) : Kept s₀ (coldReset x0) := by
  unfold coldReset
  repeat' (first | with_reducible assumption | with_reducible apply State.reset1_kept)

theorem State.stage1_kept {s₀ : State} (x0 : State) (h : Kept s₀ x0) : Kept s₀ (State.stage1 x0) := by
  unfold State.stage1
  repeat' (first | with_reducible assumption | (intro _) | with_reducible apply State.bandLoaded_kept | with_reducible apply State.setRn_kept | with_reducible apply ite_kept | with_reducible apply foldl_kept | with_reducible refine Kept.fst (by with_reducible assumption) ?_ | (extract_lets +onlyGivenNames x; refine Kept.cut (s₀ := s₀) x ?_ ?_; unfold x; clear x; rotate_left; intro hx; clear_value x; rotate_right) | (extract_lets +onlyGivenNames x; clear_value x) | split | with_reducible exact Kept.upd (by with_reducible assumption))

theorem State.resetRecord_kept {s₀ : State} (x0 : State) (h : Kept s₀ x0) : Kept s₀ (State.resetRecord x0) := by
  unfold State.resetRecord
  repeat' (first | with_reducible assumption | with_reducible apply State.putRecord_kept | with_reducible exact Kept.upd (by with_reducible assumption) | with_reducible apply ite_kept)

theorem State.restoreHealth_kept {s₀ : State} (x0 : State) (h : Kept s₀ x0) : Kept s₀ (State.restoreHealth x0) := by
  unfold State.restoreHealth
  repeat' (first | with_reducible assumption | (intro _) | with_reducible apply State.setHealth_kept | with_reducible apply ite_kept | with_reducible apply foldl_kept | with_reducible apply iterate_kept | with_reducible exact Kept.upd (by with_reducible assumption) | (extract_lets +onlyGivenNames x; refine Kept.cut (s₀ := s₀) x ?_ ?_; unfold x; clear x; rotate_left; intro hx; clear_value x; rotate_right) | (extract_lets +onlyGivenNames x; clear_value x))

theorem State.auditSec_kept {s₀ : State} (x0 : State) (x1 : Nat) (x2 : Word) (x3 : Word) (x4 : List Byte) (h : Kept s₀ x0) : Kept s₀ (State.auditSec x0 x1 x2 x3 x4) := Kept.upd h

theorem fld_one_lt (b : List Byte) (o : Nat) : fld b o 1 < 256 := by
  unfold fld
  generalize b.drop o = l
  cases l with
  | nil => decide
  | cons x l =>
    simp only [List.take_succ_cons, List.take_zero, leNat]
    omega

/-- A counter that is raised to a larger value does not fall, and nothing else of the fuses moves. -/
theorem FuseLe.raise {a f : Fuses} (h : FuseLe a f) (ty : Nat) (b : List Byte) (lt : f.svn ty < fld b 5 1) :
    FuseLe a (f.raise ty (fld b 5 1)) := by
  have hb := fld_one_lt b 5
  obtain ⟨h1, h2, h3, h4, h5, h6, h7, h8, h9, h10, h11, h12⟩ := h
  unfold Fuses.raise
  split
  · rename_i e
    rw [e, Fuses.svn] at lt
    refine ⟨h1, h2, h3, h4, h5, h6, h7, h8, h9, ?_, h11, h12⟩
    rw [BitVec.toNat_ofNat, Nat.mod_eq_of_lt hb]
    exact Nat.le_trans h10 (Nat.le_of_lt lt)
  · split
    · rename_i e
      rw [e, Fuses.svn] at lt
      refine ⟨h1, h2, h3, h4, h5, h6, h7, h8, h9, h10, ?_, h12⟩
      rw [BitVec.toNat_ofNat, Nat.mod_eq_of_lt hb]
      exact Nat.le_trans h11 (Nat.le_of_lt lt)
    · split
      · rename_i e
        rw [e, Fuses.svn] at lt
        refine ⟨h1, h2, h3, h4, h5, h6, h7, h8, h9, h10, h11, ?_⟩
        rw [BitVec.toNat_ofNat, Nat.mod_eq_of_lt hb]
        exact Nat.le_trans h12 (Nat.le_of_lt lt)
      · exact ⟨h1, h2, h3, h4, h5, h6, h7, h8, h9, h10, h11, h12⟩

theorem State.bootEnd_kept {s₀ : State} (x0 : State) (x1 : Bool) (h : Kept s₀ x0) : Kept s₀ (State.bootEnd x0 x1) := by
  unfold State.bootEnd
  repeat' (first | with_reducible assumption | with_reducible apply State.resetRecord_kept | with_reducible apply State.restoreHealth_kept | with_reducible apply State.auditSec_kept | with_reducible apply State.setRn_kept | with_reducible apply State.modSec_kept | with_reducible exact Kept.upd (by with_reducible assumption) | with_reducible apply ite_kept)

theorem State.wake_kept {s₀ : State} (x0 : State) (h : Kept s₀ x0) : Kept s₀ (State.wake x0) := by
  unfold State.wake
  refine ite_kept h ?_
  dsimp only
  refine State.bootEnd_kept _ _ ?_
  refine ite_kept ?_ (State.setRn_kept _ _ _ _ ?_)
  all_goals
    refine State.stage1_kept _ (State.setRn_kept _ _ _ _ (State.setRn_kept _ _ _ _ ?_))
    exact ⟨h.1, h.2.1, fun hw => filter_wf _ _ (h.2.2 hw)⟩

theorem State.fwDigest_kept {s₀ : State} (x0 : State) (x1 : Nat) (x2 : Nat) (h : Kept s₀ x0) : Kept s₀ (State.fwDigest x0 x1 x2).1 := by
  unfold State.fwDigest
  repeat' (first | with_reducible assumption | (intro _) | with_reducible apply ite_kept | with_reducible apply foldl_kept | with_reducible refine Kept.fst (by with_reducible assumption) ?_ | (extract_lets +onlyGivenNames x; refine Kept.cut (s₀ := s₀) x ?_ ?_; unfold x; clear x; rotate_left; intro hx; clear_value x; rotate_right) | (extract_lets +onlyGivenNames x; clear_value x) | split | with_reducible exact Kept.upd (by with_reducible assumption))

theorem State.bootPart_kept {s₀ : State} (x0 : State) (x1 : Nat) (x2 : Nat) (x3 : Nat) (h : Kept s₀ x0) : Kept s₀ (State.bootPart x0 x1 x2 x3) := by
  unfold State.bootPart
  have h1 := State.extend_kept _ x3 (x0.fwDigest x1 x2).2 (State.fwDigest_kept x0 x1 x2 h)
  dsimp only
  split
  · rename_i b _
    have hy : ∀ k, Kept s₀ (if x2 = 4 then ((x0.fwDigest x1 x2).1.extend x3 (x0.fwDigest x1 x2).2).modSec k
        else (x0.fwDigest x1 x2).1.extend x3 (x0.fwDigest x1 x2).2) := fun k => ite_kept (State.modSec_kept _ _ h1) h1
    refine ite_kept' (fun hc => ?_) (hy _)
    refine State.auditSec_kept _ _ _ _ _ ?_
    exact ⟨(hy _).1, (hy _).2.1.raise _ _ hc.2.2, (hy _).2.2⟩
  · exact h1

theorem State.boot_kept {s₀ : State} (x0 : State) (h : Kept s₀ x0) : Kept s₀ (State.boot x0) := by
  unfold State.boot
  refine ite_kept h ?_
  dsimp only
  have h1 : Kept s₀ (({ x0 with power := { x0.power with chipReset := false } } : State).modSec
      (fun c => { c with deviceId := digestHead 32 (Config.sha3 (fitBytes pubLen (Config.devicePublicKey x0.fuse.dus))) })).freshNonce :=
    State.freshNonce_kept _ (State.modSec_kept _ _ (Kept.upd h))
  refine ite_kept (State.setRn_kept _ _ _ _ h1) ?_
  split
  · exact State.setRn_kept _ _ _ _ (State.drawNat_kept _ _ h1)
  · rename_i b _
    have h2 : Kept s₀ _ := State.bootPart_kept _ b 1 0 h1
    refine State.bootEnd_kept _ _ (State.setRn_kept _ _ _ _ (State.extend_kept _ _ _ ?_))
    have hp : ∀ (s : State) (o : Option Nat) (ty k : Nat), Kept s₀ s →
        Kept s₀ (match o with | some x => s.bootPart x ty k | none => s) := by
      intro s o ty k hs
      cases o with
      | none => exact hs
      | some x => exact State.bootPart_kept _ _ _ _ hs
    exact hp _ _ _ _ (hp _ _ _ _ (hp _ _ _ _ (State.stage1_kept _ ⟨h2.1, h2.2.1, fun _ => rfl⟩)))

theorem State.sampleStraps_kept {s₀ : State} (x0 : State) (x1 : BitVec 4) (h : Kept s₀ x0) : Kept s₀ (State.sampleStraps x0 x1) := Kept.upd h

theorem sysreset_kept {s₀ : State} (x0 : BitVec 4) (x1 : State) (h : Kept s₀ x1) : Kept s₀ (sysreset x0 x1) := by
  unfold sysreset
  repeat' (first | with_reducible assumption | with_reducible apply State.boot_kept | with_reducible apply State.sampleStraps_kept | with_reducible apply State.reset1_kept | with_reducible exact Kept.upd (by with_reducible assumption) | with_reducible apply ite_kept)

theorem State.gateSessions_kept {s₀ : State} (x0 : State) (h : Kept s₀ x0) : Kept s₀ (State.gateSessions x0) := by
  unfold State.gateSessions
  repeat' (first | with_reducible assumption | with_reducible apply State.closeWhere_kept)

theorem State.enterStandby_kept {s₀ : State} (x0 : State) (h : Kept s₀ x0) : Kept s₀ (State.enterStandby x0) := by
  unfold State.enterStandby
  repeat' (first | with_reducible assumption | (intro _) | with_reducible apply State.dropDaily_kept | with_reducible apply State.setHealth_kept | with_reducible apply State.setRn_kept | with_reducible apply State.disableReel_kept | with_reducible apply State.gateSessions_kept | with_reducible apply ite_kept | with_reducible apply foldl_kept | with_reducible apply iterate_kept | with_reducible exact Kept.upd (by with_reducible assumption) | (extract_lets +onlyGivenNames x; refine Kept.cut (s₀ := s₀) x ?_ ?_; unfold x; clear x; rotate_left; intro hx; clear_value x; rotate_right) | (extract_lets +onlyGivenNames x; clear_value x))

theorem State.standbyWrite_kept {s₀ : State} (x0 : State) (x1 : Requester) (x2 : Nat) (h : Kept s₀ x0) : Kept s₀ (State.standbyWrite x0 x1 x2) := by
  unfold State.standbyWrite
  repeat' (first | with_reducible assumption | with_reducible apply State.discard_kept | with_reducible apply State.errAcc_kept | with_reducible apply State.enterStandby_kept | with_reducible exact Kept.upd (by with_reducible assumption) | with_reducible apply ite_kept)

theorem wakeTimer_kept {s₀ : State} (x0 : State) (h : Kept s₀ x0) : Kept s₀ (wakeTimer x0) := by
  unfold wakeTimer
  repeat' (first | with_reducible assumption | with_reducible apply State.wake_kept | with_reducible exact Kept.upd (by with_reducible assumption) | with_reducible apply ite_kept)

theorem wakeFrame_kept {s₀ : State} (x0 : Frame) (x1 : State) (h : Kept s₀ x1) : Kept s₀ (wakeFrame x0 x1) := by
  unfold wakeFrame
  repeat' (first | with_reducible assumption | (intro _) | with_reducible apply State.wake_kept | with_reducible apply ite_kept | with_reducible apply foldl_kept | with_reducible refine Kept.fst (by with_reducible assumption) ?_ | (extract_lets +onlyGivenNames x; refine Kept.cut (s₀ := s₀) x ?_ ?_; unfold x; clear x; rotate_left; intro hx; clear_value x; rotate_right) | (extract_lets +onlyGivenNames x; clear_value x) | split | with_reducible exact Kept.upd (by with_reducible assumption))

theorem poresetRelease_kept {s₀ : State} (x0 : BitVec 4) (x1 : State) (h : Kept s₀ x1) : Kept s₀ (poresetRelease x0 x1) := by
  unfold poresetRelease
  repeat' (first | with_reducible assumption | with_reducible apply State.boot_kept | with_reducible apply State.sampleStraps_kept | with_reducible exact Kept.upd (by with_reducible assumption) | with_reducible apply ite_kept)

theorem State.bootDoneWrite_kept {s₀ : State} (x0 : State) (x1 : Nat) (h : Kept s₀ x0) : Kept s₀ (State.bootDoneWrite x0 x1) := by
  unfold State.bootDoneWrite
  repeat' (first | with_reducible assumption | with_reducible apply State.modSec_kept | with_reducible exact Kept.upd (by with_reducible assumption) | with_reducible apply ite_kept)

theorem State.c3_kept {s₀ : State} (x0 : State) (x1 : Nat) (x2 : Nat) (h : Kept s₀ x0) : Kept s₀ (State.c3 x0 x1 x2) := by
  unfold State.c3
  repeat' (first | with_reducible assumption | (intro _) | with_reducible apply State.reset1_kept | with_reducible apply State.boot_kept | with_reducible apply ite_kept | with_reducible apply ite_fst_kept | with_reducible apply foldl_kept | with_reducible apply foldl_fst_kept | with_reducible apply iterate_kept | with_reducible refine Kept.fst (by with_reducible assumption) ?_ | with_reducible refine State.takeMsg_kept (by with_reducible assumption) ?_ | (extract_lets +onlyGivenNames x; refine Kept.cut (s₀ := s₀) x ?_ ?_; unfold x; clear x; rotate_left; intro hx; clear_value x; rotate_right) | (extract_lets +onlyGivenNames x; refine Kept.cutF (s₀ := s₀) x ?_ ?_; unfold x; clear x; rotate_left; intro hxf; clear_value x; rotate_right) | with_reducible apply hxf | (extract_lets +onlyGivenNames x; clear_value x) | split | with_reducible exact Kept.upd (by with_reducible assumption) | (with_reducible refine Kept.upd ?_; first | with_reducible apply State.reset1_kept | with_reducible apply State.boot_kept | with_reducible apply ite_kept | with_reducible apply foldl_kept | with_reducible apply iterate_kept) | dsimp only)

theorem internalReset_kept {s₀ : State} (x0 : Byte) (x1 : Byte) (x2 : State) (h : Kept s₀ x2) : Kept s₀ (internalReset x0 x1 x2) := by
  unfold internalReset
  repeat' (first | with_reducible assumption | with_reducible apply State.c3_kept | with_reducible exact Kept.upd (by with_reducible assumption) | with_reducible apply ite_kept)

theorem thermalTrip_kept {s₀ : State} (x0 : Fin 48) (x1 : State) (h : Kept s₀ x1) : Kept s₀ (thermalTrip x0 x1) := by
  unfold thermalTrip
  repeat' (first | with_reducible assumption | with_reducible apply State.c3_kept | with_reducible exact Kept.upd (by with_reducible assumption) | with_reducible apply ite_kept)

theorem State.deviceResetWrite_kept {s₀ : State} (x0 : State) (x1 : Requester) (x2 : Nat) (h : Kept s₀ x0) : Kept s₀ (State.deviceResetWrite x0 x1 x2) := by
  unfold State.deviceResetWrite
  repeat' (first | with_reducible assumption | with_reducible apply State.boot_kept | with_reducible apply State.reset1_kept | with_reducible apply State.discard_kept | with_reducible apply State.errAcc_kept | with_reducible exact Kept.upd (by with_reducible assumption) | with_reducible apply ite_kept)

theorem State.bootCtlWrite_kept {s₀ : State} (x0 : State) (x1 : Nat) (h : Kept s₀ x0) : Kept s₀ (State.bootCtlWrite x0 x1) := by
  unfold State.bootCtlWrite
  repeat' (first | with_reducible assumption | with_reducible apply State.setRn_kept | with_reducible exact Kept.upd (by with_reducible assumption) | with_reducible apply ite_kept)

theorem poresetAssert_kept {s₀ : State} (x0 : State) (h : Kept s₀ x0) : Kept s₀ (poresetAssert x0) := by
  unfold poresetAssert
  repeat' (first | with_reducible assumption | with_reducible apply State.reset1_kept)

theorem State.axisCommitted_kept {s₀ : State} (x0 : State) (x1 : State) (x2 : Nat) (h : Kept s₀ x0) : Kept s₀ (State.axisCommitted x0 x1 x2) := by
  unfold State.axisCommitted
  repeat' (first | with_reducible assumption | with_reducible apply State.setAxis_kept | with_reducible apply State.recueAll_kept)

theorem State.dropTable_kept {s₀ : State} (x0 : State) (x1 : Nat) (h : Kept s₀ x0) : Kept s₀ (State.dropTable x0 x1) := Kept.upd h

theorem State.dropFlows_kept {s₀ : State} (x0 : State) (h : Kept s₀ x0) : Kept s₀ (State.dropFlows x0) := Kept.upd h

theorem State.resetUnit_kept {s₀ : State} (x0 : State) (x1 : Nat) (x2 : Kind) (x3 : Nat) (h : Kept s₀ x0) : Kept s₀ (State.resetUnit x0 x1 x2 x3) := by
  unfold State.resetUnit
  repeat' (first | with_reducible assumption | (intro _) | with_reducible apply State.dropTable_kept | with_reducible apply State.setHealth_kept | with_reducible apply State.setHealthSt_kept | with_reducible apply State.endDaily_kept | with_reducible apply State.setAxis_kept | with_reducible apply State.modPort_kept | with_reducible apply State.dropFlows_kept | with_reducible apply State.setIsp_kept | with_reducible apply State.modReel_kept | with_reducible apply State.modCluster_kept | with_reducible apply State.modCore_kept | with_reducible apply State.dropDaily_kept | with_reducible apply ite_kept | with_reducible apply foldl_kept | with_reducible refine Kept.fst (by with_reducible assumption) ?_ | (extract_lets +onlyGivenNames x; refine Kept.cut (s₀ := s₀) x ?_ ?_; unfold x; clear x; rotate_left; intro hx; clear_value x; rotate_right) | (extract_lets +onlyGivenNames x; clear_value x) | split | with_reducible exact Kept.upd (by with_reducible assumption))

theorem State.softReset_kept {s₀ : State} (x0 : State) (x1 : Nat) (x2 : Kind) (x3 : Nat) (h : Kept s₀ x0) : Kept s₀ (State.softReset x0 x1 x2 x3) := by
  unfold State.softReset
  repeat' (first | with_reducible assumption | (intro _) | with_reducible apply State.resetUnit_kept | with_reducible apply State.setRn_kept | with_reducible apply State.recueAll_kept | with_reducible apply State.commitRes_kept | with_reducible apply State.plicSample_kept | with_reducible apply ite_kept | with_reducible apply ite_fst_kept | with_reducible apply foldl_kept | with_reducible apply foldl_fst_kept | with_reducible apply iterate_kept | with_reducible refine Kept.fst (by with_reducible assumption) ?_ | with_reducible refine State.takeMsg_kept (by with_reducible assumption) ?_ | (extract_lets +onlyGivenNames x; refine Kept.cut (s₀ := s₀) x ?_ ?_; unfold x; clear x; rotate_left; intro hx; clear_value x; rotate_right) | (extract_lets +onlyGivenNames x; refine Kept.cutF (s₀ := s₀) x ?_ ?_; unfold x; clear x; rotate_left; intro hxf; clear_value x; rotate_right) | with_reducible apply hxf | (extract_lets +onlyGivenNames x; clear_value x) | split | with_reducible exact Kept.upd (by with_reducible assumption) | (with_reducible refine Kept.upd ?_; first | with_reducible apply State.resetUnit_kept | with_reducible apply State.setRn_kept | with_reducible apply State.recueAll_kept | with_reducible apply State.commitRes_kept | with_reducible apply State.plicSample_kept | with_reducible apply ite_kept | with_reducible apply foldl_kept | with_reducible apply iterate_kept) | dsimp only)

theorem State.commitDenied_kept {s₀ : State} (x0 : State) (x1 : Nat) (x2 : Requester) (x3 : Word) (x4 : Bool) (h : Kept s₀ x0) : Kept s₀ (State.commitDenied x0 x1 x2 x3 x4) := by
  unfold State.commitDenied
  repeat' (first | with_reducible assumption | with_reducible apply State.deny_kept | with_reducible apply State.commitRes_kept)

theorem State.groupRes_kept {s₀ : State} (x0 : State) (x1 : Nat) (x2 : Nat) (h : Kept s₀ x0) : Kept s₀ (State.groupRes x0 x1 x2) := Kept.upd h

theorem State.auditCommit_kept {s₀ : State} (x0 : State) (x1 : State) (x2 : Nat) (x3 : Requester) (h : Kept s₀ x0) : Kept s₀ (State.auditCommit x0 x1 x2 x3) := by
  unfold State.auditCommit
  repeat' (first | with_reducible assumption | with_reducible apply State.audit_kept | with_reducible exact Kept.upd (by with_reducible assumption) | with_reducible apply ite_kept)

theorem State.applyCueSlot_kept {s₀ : State} (x0 : State) (x1 : Nat) (h : Kept s₀ x0) : Kept s₀ (State.applyCueSlot x0 x1) := by
  unfold State.applyCueSlot
  repeat' (first | with_reducible assumption | with_reducible apply State.setCue_kept | with_reducible apply State.armCue_kept | with_reducible apply State.putCue_kept | with_reducible exact Kept.upd (by with_reducible assumption) | with_reducible apply ite_kept)

theorem State.applyCues_kept {s₀ : State} (x0 : State) (h : Kept s₀ x0) : Kept s₀ (State.applyCues x0) := by
  unfold State.applyCues
  repeat' (first | with_reducible assumption | (intro _) | with_reducible apply State.setRn_kept | with_reducible apply State.applyCueSlot_kept | with_reducible apply ite_kept | with_reducible apply foldl_kept | with_reducible apply iterate_kept | with_reducible exact Kept.upd (by with_reducible assumption) | (extract_lets +onlyGivenNames x; refine Kept.cut (s₀ := s₀) x ?_ ?_; unfold x; clear x; rotate_left; intro hx; clear_value x; rotate_right) | (extract_lets +onlyGivenNames x; clear_value x))

theorem State.putStaged_kept {s₀ : State} (x0 : State) (x1 : Nat) (h : Kept s₀ x0) : Kept s₀ (State.putStaged x0 x1) := by
  unfold State.putStaged
  repeat' (first | with_reducible assumption | (intro _) | with_reducible apply State.setReg_kept | with_reducible apply ite_kept | with_reducible apply foldl_kept | with_reducible apply iterate_kept | with_reducible exact Kept.upd (by with_reducible assumption) | (extract_lets +onlyGivenNames x; refine Kept.cut (s₀ := s₀) x ?_ ?_; unfold x; clear x; rotate_left; intro hx; clear_value x; rotate_right) | (extract_lets +onlyGivenNames x; clear_value x))

theorem State.putDly_kept {s₀ : State} (x0 : State) (x1 : Nat) (h : Kept s₀ x0) : Kept s₀ (State.putDly x0 x1) := by
  unfold State.putDly
  repeat' (first | with_reducible assumption | (intro _) | with_reducible apply State.dlyJudge_kept | with_reducible apply ite_kept | with_reducible apply foldl_kept | with_reducible refine Kept.fst (by with_reducible assumption) ?_ | (extract_lets +onlyGivenNames x; refine Kept.cut (s₀ := s₀) x ?_ ?_; unfold x; clear x; rotate_left; intro hx; clear_value x; rotate_right) | (extract_lets +onlyGivenNames x; clear_value x) | split | with_reducible exact Kept.upd (by with_reducible assumption))

theorem State.reelCommitted_kept {s₀ : State} (x0 : State) (x1 : State) (x2 : Nat) (h : Kept s₀ x0) : Kept s₀ (State.reelCommitted x0 x1 x2) := by
  unfold State.reelCommitted
  repeat' (first | with_reducible assumption | with_reducible apply State.disableReel_kept | with_reducible apply State.enableReel_kept | with_reducible exact Kept.upd (by with_reducible assumption) | with_reducible apply ite_kept)

theorem State.committed_kept {s₀ : State} (x0 : State) (x1 : State) (x2 : Kind) (x3 : Nat) (h : Kept s₀ x0) : Kept s₀ (State.committed x0 x1 x2 x3) := by
  unfold State.committed
  repeat' (first | with_reducible assumption | (intro _) | with_reducible apply State.setRn_kept | with_reducible apply State.lifetimes_kept | with_reducible apply State.setNt_kept | with_reducible apply State.axisCommitted_kept | with_reducible apply State.txFill_kept | with_reducible apply State.setIsp_kept | with_reducible apply State.reelCommitted_kept | with_reducible apply State.drainRecords_kept | with_reducible apply ite_kept | with_reducible apply ite_fst_kept | with_reducible apply foldl_kept | with_reducible apply foldl_fst_kept | with_reducible apply iterate_kept | with_reducible refine Kept.fst (by with_reducible assumption) ?_ | (extract_lets +onlyGivenNames x; refine Kept.cut (s₀ := s₀) x ?_ ?_; unfold x; clear x; rotate_left; intro hx; clear_value x; rotate_right) | (extract_lets +onlyGivenNames x; clear_value x) | split | with_reducible exact Kept.upd (by with_reducible assumption) | dsimp only)

theorem State.applyStaged_kept {s₀ : State} (x0 : State) (x1 : Nat) (h : Kept s₀ x0) : Kept s₀ (State.applyStaged x0 x1) := by
  unfold State.applyStaged
  repeat' (first | with_reducible assumption | (intro _) | with_reducible apply State.applyCues_kept | with_reducible apply State.putStaged_kept | with_reducible apply State.putDly_kept | with_reducible apply State.committed_kept | with_reducible apply State.creditNow_kept | with_reducible apply State.setArmed_kept | with_reducible apply ite_kept | with_reducible apply foldl_kept | with_reducible refine Kept.fst (by with_reducible assumption) ?_ | (extract_lets +onlyGivenNames x; refine Kept.cut (s₀ := s₀) x ?_ ?_; unfold x; clear x; rotate_left; intro hx; clear_value x; rotate_right) | (extract_lets +onlyGivenNames x; clear_value x) | split | with_reducible exact Kept.upd (by with_reducible assumption))

theorem State.groupWrite_kept {s₀ : State} (x0 : State) (x1 : Requester) (x2 : Word) (h : Kept s₀ x0) : Kept s₀ (State.groupWrite x0 x1 x2) := by
  unfold State.groupWrite
  repeat' (first | with_reducible assumption | (intro _) | with_reducible apply State.groupRes_kept | with_reducible apply State.commitRes_kept | with_reducible apply State.deny_kept | with_reducible apply State.auditCommit_kept | with_reducible apply State.applyStaged_kept | with_reducible apply ite_kept | with_reducible apply foldl_kept | with_reducible refine Kept.fst (by with_reducible assumption) ?_ | (extract_lets +onlyGivenNames x; refine Kept.cut (s₀ := s₀) x ?_ ?_; unfold x; clear x; rotate_left; intro hx; clear_value x; rotate_right) | (extract_lets +onlyGivenNames x; clear_value x) | split | with_reducible exact Kept.upd (by with_reducible assumption))

theorem State.commitA5_kept {s₀ : State} (x0 : State) (x1 : Nat) (x2 : Requester) (h : Kept s₀ x0) : Kept s₀ (State.commitA5 x0 x1 x2) := by
  unfold State.commitA5
  repeat' (first | with_reducible assumption | with_reducible apply State.ok_kept | with_reducible apply State.commitRes_kept | with_reducible apply State.commitDenied_kept | with_reducible apply State.setArmed_kept | with_reducible exact Kept.upd (by with_reducible assumption) | with_reducible apply ite_kept)

theorem armedCommitApply_kept {s₀ : State} (x0 : Nat) (x1 : State) (h : Kept s₀ x1) : Kept s₀ (armedCommitApply x0 x1) := by
  unfold armedCommitApply
  repeat' (first | with_reducible assumption | with_reducible apply State.commitRes_kept | with_reducible apply State.applyStaged_kept | with_reducible exact Kept.upd (by with_reducible assumption) | with_reducible apply ite_kept)

theorem State.commit5A_kept {s₀ : State} (x0 : State) (x1 : Nat) (x2 : Requester) (h : Kept s₀ x0) : Kept s₀ (State.commit5A x0 x1 x2) := by
  unfold State.commit5A
  repeat' (first | with_reducible assumption | (intro _) | with_reducible apply State.discard_kept | with_reducible apply State.errAcc_kept | with_reducible apply State.ok_kept | with_reducible apply State.commitRes_kept | with_reducible apply State.commitDenied_kept | with_reducible apply State.putDly_kept | with_reducible apply State.setArmed_kept | with_reducible apply State.applyStaged_kept | with_reducible apply State.auditCommit_kept | with_reducible apply ite_kept | with_reducible apply foldl_kept | with_reducible refine Kept.fst (by with_reducible assumption) ?_ | (extract_lets +onlyGivenNames x; refine Kept.cut (s₀ := s₀) x ?_ ?_; unfold x; clear x; rotate_left; intro hx; clear_value x; rotate_right) | (extract_lets +onlyGivenNames x; clear_value x) | split | with_reducible exact Kept.upd (by with_reducible assumption))

theorem State.commitWrite_kept {s₀ : State} (x0 : State) (x1 : Nat) (x2 : Requester) (x3 : Word) (h : Kept s₀ x0) : Kept s₀ (State.commitWrite x0 x1 x2 x3) := by
  unfold State.commitWrite
  repeat' (first | with_reducible assumption | with_reducible apply State.commit5A_kept | with_reducible apply State.commitA5_kept | with_reducible apply State.discard_kept | with_reducible apply State.errAcc_kept | with_reducible exact Kept.upd (by with_reducible assumption) | with_reducible apply ite_kept)

theorem State.regValue_kept {s₀ : State} (x0 : State) (x1 : Requester) (x2 : Nat) (x3 : Nat) (x4 : Kind) (x5 : Nat) (h : Kept s₀ x0) : Kept s₀ (State.regValue x0 x1 x2 x3 x4 x5).1 := by
  unfold State.regValue
  repeat' (first | with_reducible assumption | (intro _) | with_reducible apply ite_kept | with_reducible apply foldl_kept | with_reducible refine Kept.fst (by with_reducible assumption) ?_ | (extract_lets +onlyGivenNames x; refine Kept.cut (s₀ := s₀) x ?_ ?_; unfold x; clear x; rotate_left; intro hx; clear_value x; rotate_right) | (extract_lets +onlyGivenNames x; clear_value x) | split | with_reducible exact Kept.upd (by with_reducible assumption))

theorem State.readReg_kept {s₀ : State} (x0 : State) (x1 : Requester) (x2 : Nat) (x3 : Nat) (x4 : Kind) (x5 : Nat) (h : Kept s₀ x0) : Kept s₀ (State.readReg x0 x1 x2 x3 x4 x5).1 := by
  unfold State.readReg
  repeat' (first | with_reducible assumption | (intro _) | with_reducible apply State.regValue_kept | with_reducible apply ite_kept | with_reducible apply foldl_kept | with_reducible refine Kept.fst (by with_reducible assumption) ?_ | (extract_lets +onlyGivenNames x; refine Kept.cut (s₀ := s₀) x ?_ ?_; unfold x; clear x; rotate_left; intro hx; clear_value x; rotate_right) | (extract_lets +onlyGivenNames x; clear_value x) | split | with_reducible exact Kept.upd (by with_reducible assumption))

theorem State.winBegin_kept {s₀ : State} (x0 : State) (x1 : Nat) (x2 : Bool) (h : Kept s₀ x0) : Kept s₀ (State.winBegin x0 x1 x2) := Kept.upd h

theorem State.resTouch_kept {s₀ : State} (x0 : State) (x1 : Nat) (x2 : Kind) (x3 : Nat) (h : Kept s₀ x0) : Kept s₀ (State.resTouch x0 x1 x2 x3) := by
  unfold State.resTouch
  dsimp only
  exact ite_kept (ite_kept h (Kept.upd (State.drawNat_kept x0 32 h))) h

theorem State.putEntry_kept {s₀ : State} (x0 : State) (x1 : Nat) (x2 : Nat) (x3 : Nat) (x4 : Nat) (x5 : List Byte) (h : Kept s₀ x0) : Kept s₀ (State.putEntry x0 x1 x2 x3 x4 x5) := Kept.upd h

theorem State.storeEntry_kept {s₀ : State} (x0 : State) (x1 : Nat) (x2 : Kind) (x3 : Nat) (x4 : Nat) (x5 : List Byte) (h : Kept s₀ x0) : Kept s₀ (State.storeEntry x0 x1 x2 x3 x4 x5) := by
  unfold State.storeEntry
  repeat' (first | with_reducible assumption | (intro _) | with_reducible apply State.bumpGen_kept | with_reducible apply State.putEntry_kept | with_reducible apply State.flowStored_kept | with_reducible apply State.vcStored_kept | with_reducible apply State.writeVia_kept | with_reducible apply ite_kept | with_reducible apply foldl_kept | with_reducible refine Kept.fst (by with_reducible assumption) ?_ | (extract_lets +onlyGivenNames x; refine Kept.cut (s₀ := s₀) x ?_ ?_; unfold x; clear x; rotate_left; intro hx; clear_value x; rotate_right) | (extract_lets +onlyGivenNames x; clear_value x) | split | with_reducible exact Kept.upd (by with_reducible assumption))

theorem State.winStore_kept {s₀ : State} (x0 : State) (x1 : Requester) (x2 : Nat) (x3 : Kind) (x4 : Nat) (x5 : Nat) (x6 : Bool) (h : Kept s₀ x0) : Kept s₀ (State.winStore x0 x1 x2 x3 x4 x5 x6) := by
  unfold State.winStore
  repeat' (first | with_reducible assumption | (intro _) | with_reducible apply State.resTouch_kept | with_reducible apply State.discard_kept | with_reducible apply State.winBegin_kept | with_reducible apply State.setRn_kept | with_reducible apply State.errAcc_kept | with_reducible apply State.ok_kept | with_reducible apply State.commitRes_kept | with_reducible apply State.storeEntry_kept | with_reducible apply State.auditIfLocked_kept | with_reducible apply ite_kept | with_reducible apply foldl_kept | with_reducible refine Kept.fst (by with_reducible assumption) ?_ | (extract_lets +onlyGivenNames x; refine Kept.cut (s₀ := s₀) x ?_ ?_; unfold x; clear x; rotate_left; intro hx; clear_value x; rotate_right) | (extract_lets +onlyGivenNames x; clear_value x) | split | with_reducible exact Kept.upd (by with_reducible assumption))

theorem State.winEntry_kept {s₀ : State} (x0 : State) (x1 : Nat) (x2 : Kind) (x3 : Nat) (h : Kept s₀ x0) : Kept s₀ (State.winEntry x0 x1 x2 x3).1 := by
  unfold State.winEntry
  repeat' (first | with_reducible assumption | (intro _) | with_reducible apply State.getTrk_kept | with_reducible apply ite_kept | with_reducible apply foldl_kept | with_reducible refine Kept.fst (by with_reducible assumption) ?_ | (extract_lets +onlyGivenNames x; refine Kept.cut (s₀ := s₀) x ?_ ?_; unfold x; clear x; rotate_left; intro hx; clear_value x; rotate_right) | (extract_lets +onlyGivenNames x; clear_value x) | split | with_reducible exact Kept.upd (by with_reducible assumption))

theorem State.winTake_kept {s₀ : State} (x0 : State) (x1 : Nat) (x2 : Kind) (x3 : Nat) (h : Kept s₀ x0) : Kept s₀ (State.winTake x0 x1 x2 x3) := by
  unfold State.winTake
  repeat' (first | with_reducible assumption | (intro _) | with_reducible apply State.resTouch_kept | with_reducible apply State.winEntry_kept | with_reducible apply State.setRn_kept | with_reducible apply State.setReg_kept | with_reducible apply ite_kept | with_reducible apply foldl_kept | with_reducible apply iterate_kept | with_reducible exact Kept.upd (by with_reducible assumption) | (extract_lets +onlyGivenNames x; refine Kept.cut (s₀ := s₀) x ?_ ?_; unfold x; clear x; rotate_left; intro hx; clear_value x; rotate_right) | (extract_lets +onlyGivenNames x; clear_value x))

theorem State.winCommand_kept {s₀ : State} (x0 : State) (x1 : Requester) (x2 : Nat) (x3 : Kind) (x4 : Nat) (x5 : Nat) (h : Kept s₀ x0) : Kept s₀ (State.winCommand x0 x1 x2 x3 x4 x5) := by
  unfold State.winCommand
  repeat' (first | with_reducible assumption | with_reducible apply State.discard_kept | with_reducible apply State.errAcc_kept | with_reducible apply State.ok_kept | with_reducible apply State.setRn_kept | with_reducible apply State.winBegin_kept | with_reducible apply State.winStore_kept | with_reducible apply State.winTake_kept | with_reducible exact Kept.upd (by with_reducible assumption) | with_reducible apply ite_kept)

theorem windowCmdDone_kept {s₀ : State} (x0 : Nat) (x1 : State) (h : Kept s₀ x1) : Kept s₀ (windowCmdDone x0 x1) := by
  unfold windowCmdDone
  repeat' (first | with_reducible assumption | (intro _) | with_reducible apply State.setRn_kept | with_reducible apply ite_kept | with_reducible apply foldl_kept | with_reducible refine Kept.fst (by with_reducible assumption) ?_ | (extract_lets +onlyGivenNames x; refine Kept.cut (s₀ := s₀) x ?_ ?_; unfold x; clear x; rotate_left; intro hx; clear_value x; rotate_right) | (extract_lets +onlyGivenNames x; clear_value x) | split | with_reducible exact Kept.upd (by with_reducible assumption))

theorem State.force2x_kept {s₀ : State} (x0 : State) (x1 : Nat) (x2 : Nat) (h : Kept s₀ x0) : Kept s₀ (State.force2x x0 x1 x2) := Kept.upd h

theorem State.logTail_kept {s₀ : State} (x0 : State) (x1 : Nat) (x2 : Nat) (h : Kept s₀ x0) : Kept s₀ (State.logTail x0 x1 x2) := by
  unfold State.logTail
  repeat' (first | with_reducible assumption | with_reducible apply State.setRn_kept | with_reducible exact Kept.upd (by with_reducible assumption) | with_reducible apply ite_kept)

theorem State.healthPut_kept {s₀ : State} (x0 : State) (x1 : Nat) (x2 : Nat) (h : Kept s₀ x0) : Kept s₀ (State.healthPut x0 x1 x2) := by
  unfold State.healthPut
  repeat' (first | with_reducible assumption | with_reducible apply State.setHealthSt_kept | with_reducible apply State.setHealth_kept | with_reducible apply State.retired_kept | with_reducible exact Kept.upd (by with_reducible assumption) | with_reducible apply ite_kept)

theorem State.evtPop_kept {s₀ : State} (x0 : State) (h : Kept s₀ x0) : Kept s₀ (State.evtPop x0) := Kept.upd h

theorem State.plicDone_kept {s₀ : State} (x0 : State) (x1 : Nat) (x2 : Nat) (h : Kept s₀ x0) : Kept s₀ (State.plicDone x0 x1 x2) := by
  unfold State.plicDone
  repeat' (first | with_reducible assumption | with_reducible apply State.plicSample_kept | with_reducible exact Kept.upd (by with_reducible assumption) | with_reducible apply ite_kept)

theorem State.cptrWrite_kept {s₀ : State} (x0 : State) (x1 : Requester) (x2 : Nat) (x3 : Nat) (h : Kept s₀ x0) : Kept s₀ (State.cptrWrite x0 x1 x2 x3) := by
  unfold State.cptrWrite
  repeat' (first | with_reducible assumption | with_reducible apply State.discard_kept | with_reducible apply State.errAcc_kept | with_reducible apply State.modReel_kept | with_reducible exact Kept.upd (by with_reducible assumption) | with_reducible apply ite_kept)

theorem State.pinCfg_kept {s₀ : State} (x0 : State) (x1 : Nat) (x2 : Word) (h : Kept s₀ x0) : Kept s₀ (State.pinCfg x0 x1 x2) := by
  unfold State.pinCfg
  repeat' (first | with_reducible assumption | with_reducible apply State.setReg_kept | with_reducible apply State.setPin_kept | with_reducible exact Kept.upd (by with_reducible assumption) | with_reducible apply ite_kept)

theorem State.rwWrite_kept {s₀ : State} (x0 : State) (x1 : Requester) (x2 : Nat) (x3 : Nat) (x4 : Kind) (x5 : Nat) (x6 : Row) (x7 : Word) (h : Kept s₀ x0) : Kept s₀ (State.rwWrite x0 x1 x2 x3 x4 x5 x6 x7) := by
  unfold State.rwWrite
  repeat' (first | with_reducible assumption | (intro _) | with_reducible apply State.setReg_kept | with_reducible apply State.plicSample_kept | with_reducible apply State.discard_kept | with_reducible apply State.errAcc_kept | with_reducible apply State.plicDone_kept | with_reducible apply State.cptrWrite_kept | with_reducible apply State.logTail_kept | with_reducible apply State.force2x_kept | with_reducible apply State.txQueue_kept | with_reducible apply State.modSec_kept | with_reducible apply State.healthPut_kept | with_reducible apply State.bootCtlWrite_kept | with_reducible apply State.pinCfg_kept | with_reducible apply ite_kept | with_reducible apply foldl_kept | with_reducible refine Kept.fst (by with_reducible assumption) ?_ | (extract_lets +onlyGivenNames x; refine Kept.cut (s₀ := s₀) x ?_ ?_; unfold x; clear x; rotate_left; intro hx; clear_value x; rotate_right) | (extract_lets +onlyGivenNames x; clear_value x) | split | with_reducible exact Kept.upd (by with_reducible assumption))

theorem State.restepArm_kept {s₀ : State} (x0 : State) (h : Kept s₀ x0) : Kept s₀ (State.restepArm x0) := by
  unfold State.restepArm
  repeat' (first | with_reducible assumption | with_reducible apply State.setNt_kept)

theorem State.measT_kept {s₀ : State} (x0 : State) (x1 : Nat) (h : Kept s₀ x0) : Kept s₀ (State.measT x0 x1) := by
  unfold State.measT
  repeat' (first | with_reducible assumption | with_reducible apply State.ntMeasure_kept | with_reducible exact Kept.upd (by with_reducible assumption) | with_reducible apply ite_kept)

theorem State.swSample_kept {s₀ : State} (x0 : State) (x1 : Nat) (x2 : Nat) (h : Kept s₀ x0) : Kept s₀ (State.swSample x0 x1 x2) := by
  unfold State.swSample
  repeat' (first | with_reducible assumption | with_reducible apply State.axSample_kept | with_reducible exact Kept.upd (by with_reducible assumption) | with_reducible apply ite_kept)

theorem State.fillWrite_kept {s₀ : State} (x0 : State) (x1 : Requester) (x2 : Nat) (h : Kept s₀ x0) : Kept s₀ (State.fillWrite x0 x1 x2) := by
  unfold State.fillWrite
  repeat' (first | with_reducible assumption | with_reducible apply State.discard_kept | with_reducible apply State.errAcc_kept | with_reducible apply State.startFill_kept | with_reducible exact Kept.upd (by with_reducible assumption) | with_reducible apply ite_kept)

theorem State.tcClear_kept {s₀ : State} (x0 : State) (x1 : Nat) (h : Kept s₀ x0) : Kept s₀ (State.tcClear x0 x1) := by
  unfold State.tcClear
  repeat' (first | with_reducible assumption | (intro _) | with_reducible apply State.setRn_kept | with_reducible apply ite_kept | with_reducible apply foldl_kept | with_reducible apply iterate_kept | with_reducible exact Kept.upd (by with_reducible assumption) | (extract_lets +onlyGivenNames x; refine Kept.cut (s₀ := s₀) x ?_ ?_; unfold x; clear x; rotate_left; intro hx; clear_value x; rotate_right) | (extract_lets +onlyGivenNames x; clear_value x))

theorem State.clClear_kept {s₀ : State} (x0 : State) (x1 : Nat) (h : Kept s₀ x0) : Kept s₀ (State.clClear x0 x1) := Kept.upd h

theorem State.woWrite_kept {s₀ : State} (x0 : State) (x1 : Requester) (x2 : Nat) (x3 : Nat) (x4 : Kind) (x5 : Nat) (x6 : Word) (h : Kept s₀ x0) : Kept s₀ (State.woWrite x0 x1 x2 x3 x4 x5 x6) := by
  unfold State.woWrite
  repeat' (first | with_reducible assumption | (intro _) | with_reducible apply State.winCommand_kept | with_reducible apply State.deviceResetWrite_kept | with_reducible apply State.groupWrite_kept | with_reducible apply State.standbyWrite_kept | with_reducible apply State.bootDoneWrite_kept | with_reducible apply State.fwWrite_kept | with_reducible apply State.tokenWrite_kept | with_reducible apply State.sessCloseWrite_kept | with_reducible apply State.mboxWrite_kept | with_reducible apply State.enrolWrite_kept | with_reducible apply State.fuseWrite_kept | with_reducible apply State.attWrite_kept | with_reducible apply State.measWrite_kept | with_reducible apply State.evtPop_kept | with_reducible apply State.restepArm_kept | with_reducible apply State.measT_kept | with_reducible apply State.swSample_kept | with_reducible apply State.setReg_kept | with_reducible apply State.submitWord_kept | with_reducible apply State.fillWrite_kept | with_reducible apply State.discard_kept | with_reducible apply State.errAcc_kept | with_reducible apply State.tcClear_kept | with_reducible apply State.clClear_kept | with_reducible apply ite_kept | with_reducible apply foldl_kept | with_reducible refine Kept.fst (by with_reducible assumption) ?_ | (extract_lets +onlyGivenNames x; refine Kept.cut (s₀ := s₀) x ?_ ?_; unfold x; clear x; rotate_left; intro hx; clear_value x; rotate_right) | (extract_lets +onlyGivenNames x; clear_value x) | split | with_reducible exact Kept.upd (by with_reducible assumption))

theorem State.rwsWrite_kept {s₀ : State} (x0 : State) (x1 : Requester) (x2 : Nat) (x3 : Nat) (x4 : Kind) (x5 : Nat) (x6 : Row) (x7 : Word) (h : Kept s₀ x0) : Kept s₀ (State.rwsWrite x0 x1 x2 x3 x4 x5 x6 x7) := by
  unfold State.rwsWrite
  repeat' (first | with_reducible assumption | with_reducible apply State.discard_kept | with_reducible apply State.errAcc_kept | with_reducible exact Kept.upd (by with_reducible assumption) | with_reducible apply ite_kept)

theorem State.latchTk_kept {s₀ : State} (x0 : State) (h : Kept s₀ x0) : Kept s₀ (State.latchTk x0) := Kept.upd h

theorem State.latchEvt_kept {s₀ : State} (x0 : State) (h : Kept s₀ x0) : Kept s₀ (State.latchEvt x0) := by
  unfold State.latchEvt
  repeat' (first | with_reducible assumption | (intro _) | with_reducible apply State.setReg_kept | with_reducible apply ite_kept | with_reducible apply foldl_kept | with_reducible refine Kept.fst (by with_reducible assumption) ?_ | (extract_lets +onlyGivenNames x; refine Kept.cut (s₀ := s₀) x ?_ ?_; unfold x; clear x; rotate_left; intro hx; clear_value x; rotate_right) | (extract_lets +onlyGivenNames x; clear_value x) | split | with_reducible exact Kept.upd (by with_reducible assumption))

theorem State.latchAxis_kept {s₀ : State} (x0 : State) (x1 : Nat) (h : Kept s₀ x0) : Kept s₀ (State.latchAxis x0 x1) := by
  unfold State.latchAxis
  repeat' (first | with_reducible assumption | with_reducible apply State.setRn_kept)

theorem State.latchPtp_kept {s₀ : State} (x0 : State) (h : Kept s₀ x0) : Kept s₀ (State.latchPtp x0) := Kept.upd h

theorem State.plicTake_kept {s₀ : State} (x0 : State) (x1 : Nat) (h : Kept s₀ x0) : Kept s₀ (State.plicTake x0 x1).1 := by
  unfold State.plicTake
  repeat' (first | with_reducible assumption | (intro _) | with_reducible apply ite_kept | with_reducible apply foldl_kept | with_reducible refine Kept.fst (by with_reducible assumption) ?_ | (extract_lets +onlyGivenNames x; refine Kept.cut (s₀ := s₀) x ?_ ?_; unfold x; clear x; rotate_left; intro hx; clear_value x; rotate_right) | (extract_lets +onlyGivenNames x; clear_value x) | split | with_reducible exact Kept.upd (by with_reducible assumption))

theorem State.readPage_kept {s₀ : State} (x0 : State) (x1 : Requester) (x2 : Nat) (x3 : Nat) (x4 : Kind) (x5 : Nat) (h : Kept s₀ x0) : Kept s₀ (State.readPage x0 x1 x2 x3 x4 x5).1 := by
  unfold State.readPage
  repeat' (first | with_reducible assumption | (intro _) | with_reducible apply State.latchTk_kept | with_reducible apply State.latchEvt_kept | with_reducible apply State.readReg_kept | with_reducible apply State.latchAxis_kept | with_reducible apply State.latchPtp_kept | with_reducible apply State.plicTake_kept | with_reducible apply ite_kept | with_reducible apply foldl_kept | with_reducible refine Kept.fst (by with_reducible assumption) ?_ | (extract_lets +onlyGivenNames x; refine Kept.cut (s₀ := s₀) x ?_ ?_; unfold x; clear x; rotate_left; intro hx; clear_value x; rotate_right) | (extract_lets +onlyGivenNames x; clear_value x) | split | with_reducible exact Kept.upd (by with_reducible assumption))

theorem State.sizeErr_kept {s₀ : State} (x0 : State) (x1 : Requester) (x2 : Nat) (x3 : Bool) (h : Kept s₀ x0) : Kept s₀ (State.sizeErr x0 x1 x2 x3) := by
  unfold State.sizeErr
  repeat' (first | with_reducible assumption | with_reducible apply State.errorRsp_kept | with_reducible apply State.errAcc_kept | with_reducible apply State.errSys_kept | with_reducible exact Kept.upd (by with_reducible assumption) | with_reducible apply ite_kept)

theorem State.pageRead_kept {s₀ : State} (x0 : State) (x1 : Requester) (x2 : Nat) (x3 : Nat) (h : Kept s₀ x0) : Kept s₀ (State.pageRead x0 x1 x2 x3) := by
  unfold State.pageRead
  repeat' (first | with_reducible assumption | (intro _) | with_reducible apply State.errorRsp_kept | with_reducible apply State.errSys_kept | with_reducible apply State.sizeErr_kept | with_reducible apply State.discard_kept | with_reducible apply State.readPage_kept | with_reducible apply State.okData_kept | with_reducible apply ite_kept | with_reducible apply foldl_kept | with_reducible refine Kept.fst (by with_reducible assumption) ?_ | (extract_lets +onlyGivenNames x; refine Kept.cut (s₀ := s₀) x ?_ ?_; unfold x; clear x; rotate_left; intro hx; clear_value x; rotate_right) | (extract_lets +onlyGivenNames x; clear_value x) | split | with_reducible exact Kept.upd (by with_reducible assumption))

theorem State.memErr_kept {s₀ : State} (x0 : State) (x1 : MemRefusal) (x2 : Requester) (x3 : Nat) (x4 : Bool) (h : Kept s₀ x0) : Kept s₀ (State.memErr x0 x1 x2 x3 x4) := by
  unfold State.memErr
  repeat' (first | with_reducible assumption | with_reducible apply State.errorRsp_kept | with_reducible apply State.memRefuse_kept)

theorem State.viaL2_kept {s₀ : State} (x0 : State) (x1 : Requester) (x2 : Nat) (x3 : Bool) (x4 : State → L2Line → State) (h : Kept s₀ x0) (k4 : ∀ (y0 : State) (y1 : L2Line), Kept s₀ y0 → Kept s₀ (x4 y0 y1)) : Kept s₀ (State.viaL2 x0 x1 x2 x3 x4) := by
  unfold State.viaL2
  repeat' (first | with_reducible assumption | (intro _) | with_reducible apply k4 | with_reducible apply State.memErr_kept | with_reducible apply State.readNote_kept | with_reducible apply State.errorRsp_kept | with_reducible apply State.apuPoison_kept | with_reducible apply ite_kept | with_reducible apply foldl_kept | with_reducible refine Kept.fst (by with_reducible assumption) ?_ | (extract_lets +onlyGivenNames x; refine Kept.cut (s₀ := s₀) x ?_ ?_; unfold x; clear x; rotate_left; intro hx; clear_value x; rotate_right) | (extract_lets +onlyGivenNames x; clear_value x) | split | with_reducible exact Kept.upd (by with_reducible assumption))

theorem State.l2Load_kept {s₀ : State} (x0 : State) (x1 : Requester) (x2 : Nat) (x3 : Nat) (h : Kept s₀ x0) : Kept s₀ (State.l2Load x0 x1 x2 x3) := by
  unfold State.l2Load
  repeat' (first | with_reducible assumption | (intro _) | with_reducible apply State.viaL2_kept | with_reducible apply State.okData_kept | with_reducible apply ite_kept | with_reducible apply foldl_kept | with_reducible apply iterate_kept | with_reducible exact Kept.upd (by with_reducible assumption) | (extract_lets +onlyGivenNames x; refine Kept.cut (s₀ := s₀) x ?_ ?_; unfold x; clear x; rotate_left; intro hx; clear_value x; rotate_right) | (extract_lets +onlyGivenNames x; clear_value x))

theorem State.busRead_kept {s₀ : State} (x0 : State) (x1 : Requester) (x2 : Nat) (x3 : Nat) (h : Kept s₀ x0) : Kept s₀ (State.busRead x0 x1 x2 x3) := by
  unfold State.busRead
  repeat' (first | with_reducible assumption | (intro _) | with_reducible apply State.pageRead_kept | with_reducible apply State.okData_kept | with_reducible apply State.memErr_kept | with_reducible apply State.l2Load_kept | with_reducible apply State.readNote_kept | with_reducible apply State.errorRsp_kept | with_reducible apply ite_kept | with_reducible apply foldl_kept | with_reducible refine Kept.fst (by with_reducible assumption) ?_ | (extract_lets +onlyGivenNames x; refine Kept.cut (s₀ := s₀) x ?_ ?_; unfold x; clear x; rotate_left; intro hx; clear_value x; rotate_right) | (extract_lets +onlyGivenNames x; clear_value x) | split | with_reducible exact Kept.upd (by with_reducible assumption))

theorem State.lockWrite_kept {s₀ : State} (x0 : State) (x1 : Requester) (x2 : Nat) (x3 : Word) (h : Kept s₀ x0) : Kept s₀ (State.lockWrite x0 x1 x2 x3) := by
  unfold State.lockWrite
  repeat' (first | with_reducible assumption | with_reducible apply State.setRn_kept | with_reducible apply State.audit_kept | with_reducible apply State.deny_kept | with_reducible apply State.ok_kept | with_reducible exact Kept.upd (by with_reducible assumption) | with_reducible apply ite_kept)

theorem State.enableChanged_kept {s₀ : State} (x0 : State) (x1 : Nat) (x2 : Kind) (x3 : Nat) (x4 : Bool) (h : Kept s₀ x0) : Kept s₀ (State.enableChanged x0 x1 x2 x3 x4) := by
  unfold State.enableChanged
  repeat' (first | with_reducible assumption | (intro _) | with_reducible apply State.disarm_kept | with_reducible apply linkDown_kept | with_reducible apply State.setRn_kept | with_reducible apply State.setIsp_kept | with_reducible apply State.ispOff_kept | with_reducible apply ite_kept | with_reducible apply foldl_kept | with_reducible refine Kept.fst (by with_reducible assumption) ?_ | (extract_lets +onlyGivenNames x; refine Kept.cut (s₀ := s₀) x ?_ ?_; unfold x; clear x; rotate_left; intro hx; clear_value x; rotate_right) | (extract_lets +onlyGivenNames x; clear_value x) | split | with_reducible exact Kept.upd (by with_reducible assumption))

theorem State.w1cWrite_kept {s₀ : State} (x0 : State) (x1 : Nat) (x2 : Nat) (x3 : Word) (h : Kept s₀ x0) : Kept s₀ (State.w1cWrite x0 x1 x2 x3) := by
  unfold State.w1cWrite
  repeat' (first | with_reducible assumption | with_reducible apply State.setRn_kept | with_reducible apply State.setReg_kept | with_reducible exact Kept.upd (by with_reducible assumption) | with_reducible apply ite_kept)

theorem State.audited_kept {s₀ : State} (x0 : State) (x1 : Requester) (x2 : Nat) (x3 : Nat) (x4 : Word) (x5 : State → State) (h : Kept s₀ x0) (k5 : ∀ (y0 : State), Kept s₀ y0 → Kept s₀ (x5 y0)) : Kept s₀ (State.audited x0 x1 x2 x3 x4 x5) := by
  unfold State.audited
  repeat' (first | with_reducible assumption | (intro _) | with_reducible apply k5 | with_reducible apply State.ok_kept | with_reducible apply State.auditIfLocked_kept | with_reducible apply ite_kept | with_reducible apply foldl_kept | with_reducible apply iterate_kept | with_reducible exact Kept.upd (by with_reducible assumption) | (extract_lets +onlyGivenNames x; refine Kept.cut (s₀ := s₀) x ?_ ?_; unfold x; clear x; rotate_left; intro hx; clear_value x; rotate_right) | (extract_lets +onlyGivenNames x; clear_value x))

theorem State.ctrlWrite_kept {s₀ : State} (x0 : State) (x1 : Requester) (x2 : Nat) (x3 : Kind) (x4 : Nat) (x5 : Word) (h : Kept s₀ x0) : Kept s₀ (State.ctrlWrite x0 x1 x2 x3 x4 x5) := by
  unfold State.ctrlWrite
  repeat' (first | with_reducible assumption | (intro _) | with_reducible apply State.deny_kept | with_reducible apply State.discard_kept | with_reducible apply State.errAcc_kept | with_reducible apply State.audited_kept | with_reducible apply State.softReset_kept | with_reducible apply State.audit_kept | with_reducible apply State.setRn_kept | with_reducible apply State.enableChanged_kept | with_reducible apply State.ok_kept | with_reducible apply ite_kept | with_reducible apply foldl_kept | with_reducible apply iterate_kept | with_reducible exact Kept.upd (by with_reducible assumption) | (extract_lets +onlyGivenNames x; refine Kept.cut (s₀ := s₀) x ?_ ?_; unfold x; clear x; rotate_left; intro hx; clear_value x; rotate_right) | (extract_lets +onlyGivenNames x; clear_value x))

theorem State.writePage_kept {s₀ : State} (x0 : State) (x1 : Requester) (x2 : Nat) (x3 : Nat) (x4 : Kind) (x5 : Nat) (x6 : Word) (h : Kept s₀ x0) : Kept s₀ (State.writePage x0 x1 x2 x3 x4 x5 x6) := by
  unfold State.writePage
  repeat' (first | with_reducible assumption | (intro _) | with_reducible apply State.lockWrite_kept | with_reducible apply State.commitWrite_kept | with_reducible apply State.ctrlWrite_kept | with_reducible apply State.discard_kept | with_reducible apply State.errAcc_kept | with_reducible apply State.deny_kept | with_reducible apply State.audited_kept | with_reducible apply State.w1cWrite_kept | with_reducible apply State.rwsWrite_kept | with_reducible apply State.winCommand_kept | with_reducible apply State.woWrite_kept | with_reducible apply State.rwWrite_kept | with_reducible apply State.ok_kept | with_reducible apply ite_kept | with_reducible apply foldl_kept | with_reducible refine Kept.fst (by with_reducible assumption) ?_ | (extract_lets +onlyGivenNames x; refine Kept.cut (s₀ := s₀) x ?_ ?_; unfold x; clear x; rotate_left; intro hx; clear_value x; rotate_right) | (extract_lets +onlyGivenNames x; clear_value x) | split | with_reducible exact Kept.upd (by with_reducible assumption))

theorem State.absentWrite_kept {s₀ : State} (x0 : State) (x1 : Requester) (x2 : Nat) (h : Kept s₀ x0) : Kept s₀ (State.absentWrite x0 x1 x2) := by
  unfold State.absentWrite
  repeat' (first | with_reducible assumption | with_reducible apply State.errSys_kept | with_reducible apply State.discard_kept | with_reducible apply State.raise_kept | with_reducible apply State.setRn_kept | with_reducible apply State.satReg_kept)

theorem State.pageWrite_kept {s₀ : State} (x0 : State) (x1 : Requester) (x2 : Nat) (x3 : Nat) (x4 : Word) (h : Kept s₀ x0) : Kept s₀ (State.pageWrite x0 x1 x2 x3 x4) := by
  unfold State.pageWrite
  repeat' (first | with_reducible assumption | (intro _) | with_reducible apply State.errorRsp_kept | with_reducible apply State.errSys_kept | with_reducible apply State.sizeErr_kept | with_reducible apply State.discard_kept | with_reducible apply State.writePage_kept | with_reducible apply State.absentWrite_kept | with_reducible apply ite_kept | with_reducible apply foldl_kept | with_reducible refine Kept.fst (by with_reducible assumption) ?_ | (extract_lets +onlyGivenNames x; refine Kept.cut (s₀ := s₀) x ?_ ?_; unfold x; clear x; rotate_left; intro hx; clear_value x; rotate_right) | (extract_lets +onlyGivenNames x; clear_value x) | split | with_reducible exact Kept.upd (by with_reducible assumption))

theorem State.l2Store_kept {s₀ : State} (x0 : State) (x1 : Requester) (x2 : Nat) (x3 : List Byte) (h : Kept s₀ x0) : Kept s₀ (State.l2Store x0 x1 x2 x3) := by
  unfold State.l2Store
  repeat' (first | with_reducible assumption | (intro _) | with_reducible apply State.viaL2_kept | with_reducible apply State.ok_kept | with_reducible apply ite_kept | with_reducible apply foldl_kept | with_reducible apply iterate_kept | with_reducible exact Kept.upd (by with_reducible assumption) | (extract_lets +onlyGivenNames x; refine Kept.cut (s₀ := s₀) x ?_ ?_; unfold x; clear x; rotate_left; intro hx; clear_value x; rotate_right) | (extract_lets +onlyGivenNames x; clear_value x))

theorem State.busWrite_kept {s₀ : State} (x0 : State) (x1 : Requester) (x2 : Nat) (x3 : Nat) (x4 : Word) (h : Kept s₀ x0) : Kept s₀ (State.busWrite x0 x1 x2 x3 x4) := by
  unfold State.busWrite
  repeat' (first | with_reducible assumption | (intro _) | with_reducible apply State.pageWrite_kept | with_reducible apply State.ok_kept | with_reducible apply State.secOwnWrite_kept | with_reducible apply State.memErr_kept | with_reducible apply State.l2Store_kept | with_reducible apply State.writeData_kept | with_reducible apply ite_kept | with_reducible apply foldl_kept | with_reducible refine Kept.fst (by with_reducible assumption) ?_ | (extract_lets +onlyGivenNames x; refine Kept.cut (s₀ := s₀) x ?_ ?_; unfold x; clear x; rotate_left; intro hx; clear_value x; rotate_right) | (extract_lets +onlyGivenNames x; clear_value x) | split | with_reducible exact Kept.upd (by with_reducible assumption))

theorem State.get_kept {s₀ : State} (x0 : State) (x1 : Requester) (x2 : Nat) (x3 : Nat) (h : Kept s₀ x0) : Kept s₀ (State.get x0 x1 x2 x3) := by
  unfold State.get
  repeat' (first | with_reducible assumption | with_reducible apply State.busRead_kept)

theorem State.put_kept {s₀ : State} (x0 : State) (x1 : Requester) (x2 : Nat) (x3 : Nat) (x4 : Word) (h : Kept s₀ x0) : Kept s₀ (State.put x0 x1 x2 x3 x4) := by
  unfold State.put
  repeat' (first | with_reducible assumption | with_reducible apply State.busWrite_kept)

theorem State.regReads_kept {s₀ : State} (x0 : State) (x1 : Requester) (x2 : Nat) (x3 : Nat) (h : Kept s₀ x0) : Kept s₀ (State.regReads x0 x1 x2 x3).1 := by
  induction x3 generalizing x0 x2 with
  | zero => exact h
  | succ n ih =>
    unfold State.regReads
    exact ih _ _ (State.busRead_kept _ _ _ _ h)

theorem State.regDone_kept {s₀ : State} (x0 : State) (x1 : Cmd) (x2 : List Word) (x3 : List Nat) (h : Kept s₀ x0) : Kept s₀ (State.regDone x0 x1 x2 x3) := by
  unfold State.regDone
  repeat' (first | with_reducible assumption | with_reducible apply State.ok_kept | with_reducible apply State.done_kept)

theorem regReadCmd_kept {s₀ : State} (x0 : Cmd) (x1 : State) (h : Kept s₀ x1) : Kept s₀ (regReadCmd x0 x1) := by
  unfold regReadCmd
  repeat' (first | with_reducible assumption | with_reducible apply State.regReads_kept | with_reducible apply State.regDone_kept)

theorem State.regWrites_kept {s₀ : State} (x0 : State) (x1 : Requester) (x2 : Nat) (x3 : List Word) (h : Kept s₀ x0) : Kept s₀ (State.regWrites x0 x1 x2 x3).1 := by
  induction x3 generalizing x0 x2 with
  | nil => exact h
  | cons w ws ih =>
    unfold State.regWrites
    exact ih _ _ (State.busWrite_kept _ _ _ _ _ h)

theorem regWriteCmd_kept {s₀ : State} (x0 : Cmd) (x1 : State) (h : Kept s₀ x1) : Kept s₀ (regWriteCmd x0 x1) := by
  unfold regWriteCmd
  repeat' (first | with_reducible assumption | with_reducible apply State.regWrites_kept | with_reducible apply State.regDone_kept)

theorem timeSetCmd_kept {s₀ : State} (x0 : Cmd) (x1 : State) (h : Kept s₀ x1) : Kept s₀ (timeSetCmd x0 x1) := by
  unfold timeSetCmd
  repeat' (first | with_reducible assumption | with_reducible apply State.refuse_kept | with_reducible apply State.stepTime_kept | with_reducible apply State.done_kept | with_reducible exact Kept.upd (by with_reducible assumption) | with_reducible apply ite_kept)

theorem State.cueCommit_kept {s₀ : State} (x0 : State) (x1 : Requester) (x2 : Nat) (x3 : List (Nat × Word)) (h : Kept s₀ x0) : Kept s₀ (State.cueCommit x0 x1 x2 x3).1 := by
  unfold State.cueCommit
  repeat' (first | with_reducible assumption | (intro _) | with_reducible apply State.commitRes_kept | with_reducible apply State.auditCommit_kept | with_reducible apply State.applyStaged_kept | with_reducible apply ite_kept | with_reducible apply foldl_kept | with_reducible refine Kept.fst (by with_reducible assumption) ?_ | (extract_lets +onlyGivenNames x; refine Kept.cut (s₀ := s₀) x ?_ ?_; unfold x; clear x; rotate_left; intro hx; clear_value x; rotate_right) | (extract_lets +onlyGivenNames x; clear_value x) | split | with_reducible exact Kept.upd (by with_reducible assumption))

theorem cueDisarmCmd_kept {s₀ : State} (x0 : Cmd) (x1 : State) (h : Kept s₀ x1) : Kept s₀ (cueDisarmCmd x0 x1) := by
  unfold cueDisarmCmd
  repeat' (first | with_reducible assumption | (intro _) | with_reducible apply State.refuse_kept | with_reducible apply State.cueCommit_kept | with_reducible apply State.done_kept | with_reducible apply ite_kept | with_reducible apply ite_fst_kept | with_reducible apply foldl_kept | with_reducible apply foldl_fst_kept | with_reducible apply iterate_kept | with_reducible refine Kept.fst (by with_reducible assumption) ?_ | with_reducible refine State.takeMsg_kept (by with_reducible assumption) ?_ | (extract_lets +onlyGivenNames x; refine Kept.cut (s₀ := s₀) x ?_ ?_; unfold x; clear x; rotate_left; intro hx; clear_value x; rotate_right) | (extract_lets +onlyGivenNames x; refine Kept.cutF (s₀ := s₀) x ?_ ?_; unfold x; clear x; rotate_left; intro hxf; clear_value x; rotate_right) | with_reducible apply hxf | (extract_lets +onlyGivenNames x; clear_value x) | split | with_reducible exact Kept.upd (by with_reducible assumption) | (with_reducible refine Kept.upd ?_; first | with_reducible apply State.refuse_kept | with_reducible apply State.cueCommit_kept | with_reducible apply State.done_kept | with_reducible apply ite_kept | with_reducible apply foldl_kept | with_reducible apply iterate_kept) | dsimp only)

theorem cueSetCmd_kept {s₀ : State} (x0 : Cmd) (x1 : State) (h : Kept s₀ x1) : Kept s₀ (cueSetCmd x0 x1) := by
  unfold cueSetCmd
  repeat' (first | with_reducible assumption | with_reducible apply State.refuse_kept | with_reducible apply State.cueCommit_kept | with_reducible apply State.done_kept | with_reducible exact Kept.upd (by with_reducible assumption) | with_reducible apply ite_kept)

theorem evtReadCmd_kept {s₀ : State} (x0 : Cmd) (x1 : State) (h : Kept s₀ x1) : Kept s₀ (evtReadCmd x0 x1) := by
  unfold evtReadCmd
  repeat' (first | with_reducible assumption | with_reducible apply State.done_kept | with_reducible exact Kept.upd (by with_reducible assumption) | with_reducible apply ite_kept)

theorem restepAuthCmd_kept {s₀ : State} (x0 : Cmd) (x1 : State) (h : Kept s₀ x1) : Kept s₀ (restepAuthCmd x0 x1) := by
  unfold restepAuthCmd
  repeat' (first | with_reducible assumption | with_reducible apply State.refuse_kept | with_reducible apply State.restepArm_kept | with_reducible apply State.done_kept | with_reducible exact Kept.upd (by with_reducible assumption) | with_reducible apply ite_kept)

theorem axisSampleCmd_kept {s₀ : State} (x0 : Cmd) (x1 : State) (h : Kept s₀ x1) : Kept s₀ (axisSampleCmd x0 x1) := by
  unfold axisSampleCmd
  repeat' (first | with_reducible assumption | with_reducible apply State.refuse_kept | with_reducible apply State.done_kept | with_reducible apply State.axSample_kept | with_reducible exact Kept.upd (by with_reducible assumption) | with_reducible apply ite_kept)

theorem axisGetCmd_kept {s₀ : State} (x0 : Cmd) (x1 : State) (h : Kept s₀ x1) : Kept s₀ (axisGetCmd x0 x1) := by
  unfold axisGetCmd
  repeat' (first | with_reducible assumption | with_reducible apply State.refuse_kept | with_reducible apply State.done_kept | with_reducible exact Kept.upd (by with_reducible assumption) | with_reducible apply ite_kept)

theorem timeGetCmd_kept {s₀ : State} (x0 : Cmd) (x1 : State) (h : Kept s₀ x1) : Kept s₀ (timeGetCmd x0 x1) := by
  unfold timeGetCmd
  repeat' (first | with_reducible assumption | with_reducible apply State.done_kept)

theorem State.freeLine_kept {s₀ : State} (x0 : State) (h : Kept s₀ x0) : Kept s₀ (State.freeLine x0).1 := Kept.upd h

theorem State.dmaFinds_kept {s₀ : State} (x0 : State) (x1 : Resp) (h : Kept s₀ x0) : Kept s₀ (State.dmaFinds x0 x1).1 := by
  unfold State.dmaFinds
  repeat' (first | with_reducible assumption | with_reducible apply State.freeLine_kept | with_reducible apply State.lineNote_kept | with_reducible apply State.lineFinds_kept)

theorem dmaTransferDone_kept {s₀ : State} (x0 : Resp) (x1 : State) (h : Kept s₀ x1) : Kept s₀ (dmaTransferDone x0 x1) := by
  unfold dmaTransferDone
  repeat' (first | with_reducible assumption | (intro _) | with_reducible apply State.dmaFinds_kept | with_reducible apply State.dramUe_kept | with_reducible apply ite_kept | with_reducible apply ite_fst_kept | with_reducible apply foldl_kept | with_reducible apply foldl_fst_kept | with_reducible apply iterate_kept | with_reducible refine Kept.fst (by with_reducible assumption) ?_ | with_reducible refine State.takeMsg_kept (by with_reducible assumption) ?_ | (extract_lets +onlyGivenNames x; refine Kept.cut (s₀ := s₀) x ?_ ?_; unfold x; clear x; rotate_left; intro hx; clear_value x; rotate_right) | (extract_lets +onlyGivenNames x; refine Kept.cutF (s₀ := s₀) x ?_ ?_; unfold x; clear x; rotate_left; intro hxf; clear_value x; rotate_right) | with_reducible apply hxf | (extract_lets +onlyGivenNames x; clear_value x) | split | with_reducible exact Kept.upd (by with_reducible assumption) | (with_reducible refine Kept.upd ?_; first | with_reducible apply State.dmaFinds_kept | with_reducible apply State.dramUe_kept | with_reducible apply ite_kept | with_reducible apply foldl_kept | with_reducible apply iterate_kept) | dsimp only)

theorem State.stageDly_kept {s₀ : State} (x0 : State) (x1 : Nat) (x2 : Nat) (h : Kept s₀ x0) : Kept s₀ (State.stageDly x0 x1 x2) := by
  unfold State.stageDly
  repeat' (first | with_reducible assumption | (intro _) | with_reducible apply ite_kept | with_reducible apply foldl_kept | with_reducible apply iterate_kept | with_reducible exact Kept.upd (by with_reducible assumption) | (extract_lets +onlyGivenNames x; refine Kept.cut (s₀ := s₀) x ?_ ?_; unfold x; clear x; rotate_left; intro hx; clear_value x; rotate_right) | (extract_lets +onlyGivenNames x; clear_value x))

theorem bandChangeService_kept {s₀ : State} (x0 : Nat) (x1 : State) (h : Kept s₀ x1) : Kept s₀ (bandChangeService x0 x1) := by
  unfold bandChangeService
  repeat' (first | with_reducible assumption | with_reducible apply State.setReg_kept | with_reducible apply State.errAcc_kept | with_reducible apply State.ok_kept | with_reducible apply State.commit5A_kept | with_reducible apply State.stageDly_kept | with_reducible exact Kept.upd (by with_reducible assumption) | with_reducible apply ite_kept)

theorem tld_kept {s₀ : State} (x0 : Nat) (x1 : State) (h : Kept s₀ x1) : Kept s₀ (tld x0 x1) := by
  unfold tld
  repeat' (first | with_reducible assumption | (intro _) | with_reducible apply State.issue_kept | with_reducible apply State.useToken_kept | with_reducible apply State.readSpad_kept | with_reducible apply State.adv_kept | with_reducible apply State.modCore_kept | with_reducible apply ite_kept | with_reducible apply foldl_kept | with_reducible refine Kept.fst (by with_reducible assumption) ?_ | (extract_lets +onlyGivenNames x; refine Kept.cut (s₀ := s₀) x ?_ ?_; unfold x; clear x; rotate_left; intro hx; clear_value x; rotate_right) | (extract_lets +onlyGivenNames x; clear_value x) | split | with_reducible exact Kept.upd (by with_reducible assumption))

theorem vld_kept {s₀ : State} (x0 : Nat) (x1 : State) (h : Kept s₀ x1) : Kept s₀ (vld x0 x1) := by
  unfold vld
  repeat' (first | with_reducible assumption | (intro _) | with_reducible apply State.issue_kept | with_reducible apply State.useToken_kept | with_reducible apply State.xlateFault_kept | with_reducible apply State.readSpad_kept | with_reducible apply State.adv_kept | with_reducible apply State.modCore_kept | with_reducible apply ite_kept | with_reducible apply foldl_kept | with_reducible refine Kept.fst (by with_reducible assumption) ?_ | (extract_lets +onlyGivenNames x; refine Kept.cut (s₀ := s₀) x ?_ ?_; unfold x; clear x; rotate_left; intro hx; clear_value x; rotate_right) | (extract_lets +onlyGivenNames x; clear_value x) | split | with_reducible exact Kept.upd (by with_reducible assumption))

theorem State.useShared_kept {s₀ : State} (x0 : State) (x1 : Nat) (x2 : Nat) (x3 : List Word → State) (h : Kept s₀ x0) (k3 : ∀ (y0 : List Word), Kept s₀ (x3 y0)) : Kept s₀ (State.useShared x0 x1 x2 x3) := by
  unfold State.useShared
  repeat' (first | with_reducible assumption | (intro _) | with_reducible apply k3 | with_reducible apply State.overrun_kept | with_reducible apply State.poisonFault_kept | with_reducible apply ite_kept | with_reducible apply foldl_kept | with_reducible refine Kept.fst (by with_reducible assumption) ?_ | (extract_lets +onlyGivenNames x; refine Kept.cut (s₀ := s₀) x ?_ ?_; unfold x; clear x; rotate_left; intro hx; clear_value x; rotate_right) | (extract_lets +onlyGivenNames x; clear_value x) | split | with_reducible exact Kept.upd (by with_reducible assumption))

theorem State.vop_kept {s₀ : State} (x0 : State) (x1 : Nat) (x2 : Nat) (x3 : VArg → VRes) (h : Kept s₀ x0) : Kept s₀ (State.vop x0 x1 x2 x3) := by
  unfold State.vop
  repeat' (first | with_reducible assumption | (intro _) | with_reducible apply State.issue_kept | with_reducible apply State.useShared_kept | with_reducible apply State.adv_kept | with_reducible apply State.modCore_kept | with_reducible apply ite_kept | with_reducible apply foldl_kept | with_reducible apply iterate_kept | with_reducible exact Kept.upd (by with_reducible assumption) | (extract_lets +onlyGivenNames x; refine Kept.cut (s₀ := s₀) x ?_ ?_; unfold x; clear x; rotate_left; intro hx; clear_value x; rotate_right) | (extract_lets +onlyGivenNames x; clear_value x))

theorem vqnt_kept {s₀ : State} (x0 : Nat) (x1 : State) (h : Kept s₀ x1) : Kept s₀ (vqnt x0 x1) := by
  unfold vqnt
  repeat' (first | with_reducible assumption | with_reducible apply State.vop_kept | with_reducible apply ite_kept | with_reducible exact Kept.upd (by with_reducible assumption) | (extract_lets +onlyGivenNames x; refine Kept.cut (s₀ := s₀) x ?_ ?_; unfold x; clear x; rotate_left; intro hx; clear_value x; rotate_right) | (extract_lets +onlyGivenNames x; clear_value x))

theorem vst_kept {s₀ : State} (x0 : Nat) (x1 : State) (h : Kept s₀ x1) : Kept s₀ (vst x0 x1) := by
  unfold vst
  repeat' (first | with_reducible assumption | (intro _) | with_reducible apply State.issue_kept | with_reducible apply State.overrun_kept | with_reducible apply State.xlateFault_kept | with_reducible apply State.adv_kept | with_reducible apply State.setCore_kept | with_reducible apply ite_kept | with_reducible apply foldl_kept | with_reducible refine Kept.fst (by with_reducible assumption) ?_ | (extract_lets +onlyGivenNames x; refine Kept.cut (s₀ := s₀) x ?_ ?_; unfold x; clear x; rotate_left; intro hx; clear_value x; rotate_right) | (extract_lets +onlyGivenNames x; clear_value x) | split | with_reducible exact Kept.upd (by with_reducible assumption))

theorem supd_kept {s₀ : State} (x0 : Nat) (x1 : State) (h : Kept s₀ x1) : Kept s₀ (supd x0 x1) := by
  unfold supd
  refine State.issue_kept _ _ _ _ _ h fun w b hb => ?_
  dsimp only
  split
  · exact hb
  · refine State.useToken_kept _ _ _ _ _ _ hb fun t s hs => State.readSpad_kept _ _ _ _ _ hs fun recs => ?_
    split
    · exact hb
    · rename_i u e
      have h1 : Kept s₀ u := by
        split at e
        · cases e
        · exact State.passKeys_kept e hs
      have h2 := fun a => State.lineResp_kept _ x0 a .ok (State.perf_kept u x0 12 1 h1)
      refine ite_kept (State.poisonFault_kept _ _ _ (h2 _)) (State.adv_kept _ _ _ (ite_kept ?_ (State.modJob_kept _ _ _ ?_)))
      all_goals exact State.keyWrite_kept _ _ _ _ _ (State.modCore_kept _ _ _ (h2 _))

theorem State.fitRow_kept {s₀ : State} (x0 : State) (x1 : List Int) (h : Kept s₀ x0) : Kept s₀ (State.fitRow x0 x1).1 := by
  induction x1 generalizing x0 with
  | nil => exact h
  | cons x l ih =>
    unfold State.fitRow
    exact ih _ (State.fitS_kept _ _ _ h)

theorem vlut_kept {s₀ : State} (x0 : Nat) (x1 : State) (h : Kept s₀ x1) : Kept s₀ (vlut x0 x1) := by
  unfold vlut
  repeat' (first | with_reducible assumption | with_reducible apply State.vop_kept)

theorem vaccRead_kept {s₀ : State} (x0 : Nat) (x1 : State) (h : Kept s₀ x1) : Kept s₀ (vaccRead x0 x1) := by
  unfold vaccRead
  refine State.issue_kept _ _ _ _ _ h fun w s hs => ?_
  dsimp only
  refine ite_kept (State.accRange_kept _ _ hs) (ite_kept hs ?_)
  refine ite_kept (State.readTile_kept _ _ _ _ ?_ fun s hs => hs) ?_
  · exact State.adv_kept _ _ _ (State.setCore_kept _ _ _ hs)
  · exact State.adv_kept _ _ _ (State.setCore_kept _ _ _ hs)

theorem vaccWrite_kept {s₀ : State} (x0 : Nat) (x1 : State) (h : Kept s₀ x1) : Kept s₀ (vaccWrite x0 x1) := by
  unfold vaccWrite
  repeat' (first | with_reducible assumption | (intro _) | with_reducible apply State.issue_kept | with_reducible apply State.accRange_kept | with_reducible apply State.fitRow_kept | with_reducible apply State.adv_kept | with_reducible apply State.setCore_kept | with_reducible apply ite_kept | with_reducible apply foldl_kept | with_reducible apply iterate_kept | with_reducible exact Kept.upd (by with_reducible assumption) | (extract_lets +onlyGivenNames x; refine Kept.cut (s₀ := s₀) x ?_ ?_; unfold x; clear x; rotate_left; intro hx; clear_value x; rotate_right) | (extract_lets +onlyGivenNames x; clear_value x))

end Sys2Proof.Machine
end

