-- ==== Sys2Proof/Laws/Reel.lean ====
section
/-! SUPPORT. How JSC takes a reel command, and what a completion entry leaves. -/

namespace Sys2Proof.Machine

/-- A clean range holds no poison, and the controllers record nothing as they read it. -/
theorem State.linesClean_spec {s : State} {a n : Nat} (h : s.linesClean a n = true) (port : Nat) (m sl : Bool) :
    s.isPoison a n = false ∧ s.readNote port a n m sl = s := by
  unfold State.linesClean at h
  rw [List.all_eq_true] at h
  have hl : ∀ l ∈ unitsTouched 64 a n, s.poison.contains (64 * l) = false ∧ mapGet? s.cellErr (64 * l) = none := by
    intro l hm
    have := h l hm
    simp only [Bool.and_eq_true, Bool.not_eq_true', Option.isNone_iff_eq_none] at this
    exact this
  constructor
  · unfold State.isPoison
    rw [List.any_eq_false]
    intro l hm
    obtain ⟨h1, h2⟩ := hl l hm
    unfold State.lineBad
    rw [Nat.mul_comm l 64, h1, h2]
    simp
  · unfold State.readNote
    generalize unitsTouched 64 a n = ls at hl
    induction ls with
    | nil => rfl
    | cons l ls ih =>
      obtain ⟨h1, h2⟩ := hl l (List.mem_cons_self ..)
      rw [List.foldl_cons]
      have : s.lineNote port (logFlags false m sl) (64 * l) = s := by
        unfold State.lineNote
        simp only [h1, h2, Bool.false_eq_true, if_false]
      rw [this]
      exact ih (fun l hm => hl l (List.mem_cons_of_mem _ hm))

/-- A read of clean lines that the controllers accept changes nothing. -/
theorem State.readVia_ok {s : State} {port a n : Nat} (h : s.memCheck port a n false = none) (hp : s.linesClean a n = true)
    (h22 : port ≠ 22) : s.readVia port a n = (s, s.rawBytes a n, .ok) := by
  obtain ⟨h1, h2⟩ := State.linesClean_spec hp port (decide (port < 8)) false
  unfold State.readVia
  simp only [h22, false_and, if_false, h, h1, h2, Bool.false_eq_true]

theorem State.popCmd_lock (s : State) (n p f : Nat) : (s.popCmd n).lock p f = s.lock p f := rfl

/-- A command that JSC takes and whose opcode a row names runs that row's effect on the state with HEAD moved on. -/
theorem State.takeCmd_takes {s : State} {n : Nat} {c : Cmd} {sel : List Byte → Bool} {k : Cmd → State → State}
    (h : Takes s n c) (hs : sel c.bytes = true) :
    s.takeCmd n sel k = k c (if c.op = 3 ∨ c.op = 4 then (s.popCmd n).acct c.session c.gen 4 else s.popCmd n) := by
  have hb : c.bytes = s.rawBytes (s.headAddr n) 64 := by
    rw [h.cmd]
    unfold State.headCmd
    dsimp only
    split <;> rfl
  have hl : ∀ t : State, (∀ p f, t.lock p f = s.lock p f) → t.lockOk c = true := by
    intro t ht
    have := h.lock
    unfold State.lockOk at this ⊢
    simp only [ht]
    exact this
  unfold State.takeCmd
  rw [if_pos h.may, State.readVia_ok h.read h.clean (by decide)]
  dsimp only
  rw [← hb]
  have hc : s.headCmd n c.bytes = c := by rw [hb]; exact h.cmd.symm
  rw [hc]
  simp only [ne_eq, not_true_eq_false, if_false, hs, h.known, h.role, Bool.true_or, Bool.not_true, Bool.false_eq_true]
  have hlk : State.lockOk (if c.op = 3 ∨ c.op = 4 then (s.popCmd n).acct c.session c.gen 4 else s.popCmd n) c = true := by
    apply hl
    intro p f
    split
    · unfold State.acct
      split <;> rfl
    · rfl
  rw [hlk, h.zeros]
  simp only [Bool.not_true, Bool.false_eq_true, if_false]

/-! ### Memory a port writes -/

theorem State.byte_writeData (s : State) (a x : Nat) (bs : List Byte) :
    (s.writeData a bs).byte x = if a ≤ x ∧ x < a + bs.length then bs.getD (x - a) 0 else s.byte x :=
  mapGet_putBytes bs s.dram a x

/-- What reads after a write: the bytes at the place written. -/
theorem State.rawBytes_writeData (s : State) (a o n : Nat) (bs : List Byte) (h : o + n ≤ bs.length) :
    (s.writeData a bs).rawBytes (a + o) n = (bs.drop o).take n := by
  apply List.ext_getElem
  · simp [State.rawBytes]; omega
  · intro i h1 h2
    simp only [State.rawBytes, List.length_map, List.length_range] at h1
    simp only [State.rawBytes, List.getElem_map, List.getElem_range, List.getElem_take, List.getElem_drop]
    have := s.byte_writeData a (a + o + i) bs
    rw [if_pos (by omega)] at this
    rw [show a + o + i - a = o + i by omega] at this
    unfold State.byte at this
    rw [this, List.getD_eq_getElem?_getD, List.getElem?_eq_getElem (by omega)]
    rfl

/-- Registers and pending interrupt sources may have changed, and nothing else. -/
def RegsOnly (s t : State) : Prop := t = { s with regs := t.regs, plicPending := t.plicPending }

theorem RegsOnly.refl (s : State) : RegsOnly s s := rfl

theorem RegsOnly.trans {s t u : State} (h : RegsOnly s t) (g : RegsOnly t u) : RegsOnly s u := by
  unfold RegsOnly at *
  rw [g, h]

theorem RegsOnly.setReg (s : State) (p o : Nat) (v : Word) : RegsOnly s (s.setReg p o v) := rfl

theorem RegsOnly.raise (s : State) (p b : Nat) : RegsOnly s (s.raise p b) := (s.raise_spec p b).2.1

theorem RegsOnly.foldl {α : Type} (f : State → α → State) (hf : ∀ s a, RegsOnly s (f s a)) (l : List α) (s : State) :
    RegsOnly s (l.foldl f s) := by
  induction l generalizing s with
  | nil => exact RegsOnly.refl s
  | cons a l ih => exact (hf s a).trans (ih (f s a))

theorem RegsOnly.setErr (s : State) (page code role port : Nat) (w ph : Bool) (addr : Nat) :
    RegsOnly s (s.setErr page code role port w ph addr) := by
  unfold RegsOnly
  rw [State.setErr_frame]

theorem RegsOnly.mcLog (s : State) (ty ch po fl a sy : Nat) : RegsOnly s (s.mcLog ty ch po fl a sy) := by
  unfold State.mcLog
  dsimp only
  refine RegsOnly.trans ?_ (RegsOnly.setReg _ _ _ _)
  refine RegsOnly.trans ?_ (RegsOnly.foldl _ (fun s w => RegsOnly.setReg s _ _ _) _ _)
  split
  · refine RegsOnly.trans ?_ (RegsOnly.raise _ _ _)
    rfl
  · rfl

/-- A refused access changes registers alone: logs, causes, ERR_INFO. -/
theorem RegsOnly.memRefuse (s : State) (r : MemRefusal) (port a : Nat) (write metered slate : Bool) (role : Nat) :
    RegsOnly s (s.memRefuse r port a write metered slate role) := by
  unfold State.memRefuse
  cases r <;> dsimp only
  case reserved =>
    split
    · unfold State.pagesErr State.errAcc State.errSys
      split
      · split <;> exact RegsOnly.setErr _ _ _ _ _ _ _ _
      · exact RegsOnly.setErr _ _ _ _ _ _ _ _
    · exact RegsOnly.setErr _ _ _ _ _ _ _ _
  case locked => exact ((RegsOnly.mcLog _ _ _ _ _ _ _).trans (RegsOnly.raise _ _ _)).trans (RegsOnly.setErr _ _ _ _ _ _ _ _)
  all_goals exact (RegsOnly.mcLog _ _ _ _ _ _ _).trans (RegsOnly.raise _ _ _)

/-- Memory as bytes, tags, poison and cell errors, the registers and the pending sources may have changed, and nothing else. -/
def MemRegsOnly (s t : State) : Prop :=
  t = { s with regs := t.regs, plicPending := t.plicPending, dram := t.dram, tags := t.tags, poison := t.poison,
               cellErr := t.cellErr }

theorem MemRegsOnly.trans {s t u : State} (h : MemRegsOnly s t) (g : MemRegsOnly t u) : MemRegsOnly s u := by
  unfold MemRegsOnly at *
  rw [g, h]

theorem RegsOnly.mem {s t : State} (h : RegsOnly s t) : MemRegsOnly s t := by
  unfold RegsOnly at h
  unfold MemRegsOnly
  rw [h]

theorem MemRegsOnly.writeData (s : State) (a : Nat) (bs : List Byte) : MemRegsOnly s (s.writeData a bs) := rfl

/-- Bytes outside a range stay as they are. -/
def KeepsOutside (s t : State) (a n : Nat) : Prop := ∀ x, x < a ∨ a + n ≤ x → t.byte x = s.byte x

theorem State.writePieces_spec (port : Nat) (ps : List (Nat × Nat)) :
    ∀ (s : State) (bs : List Byte), MemRegsOnly s (s.writePieces port ps bs) ∧
      ∀ x, (∀ p ∈ ps, x < p.1 ∨ p.1 + p.2 ≤ x) → (s.writePieces port ps bs).byte x = s.byte x := by
  induction ps with
  | nil => intro s bs; exact ⟨rfl, fun _ _ => rfl⟩
  | cons p ps ih =>
    obtain ⟨a, n⟩ := p
    intro s bs
    unfold State.writePieces
    have hone : MemRegsOnly s (match s.memCheck port a n true with
        | some r => s.memRefuse r port a true (decide (port < 8)) false (portRole port)
        | none => s.writeData a (bs.take n)) ∧
      ∀ x, x < a ∨ a + n ≤ x → (match s.memCheck port a n true with
        | some r => s.memRefuse r port a true (decide (port < 8)) false (portRole port)
        | none => s.writeData a (bs.take n)).byte x = s.byte x := by
      split
      · have h := RegsOnly.memRefuse s ‹_› port a true (decide (port < 8)) false (portRole port)
        refine ⟨h.mem, fun x _ => ?_⟩
        rw [h]
        rfl
      · refine ⟨rfl, fun x hx => ?_⟩
        have hl := List.length_take_le n bs
        rw [State.byte_writeData, if_neg (by omega)]
    obtain ⟨h1, h2⟩ := hone
    obtain ⟨g1, g2⟩ := ih _ (bs.drop n)
    refine ⟨h1.trans g1, fun x hx => ?_⟩
    exact (g2 x (fun p hp => hx p (List.mem_cons_of_mem _ hp))).trans (h2 x (hx (a, n) (List.mem_cons_self ..)))

/-- Every piece of a range lies in it. -/
theorem pieces_within (a n : Nat) : ∀ p ∈ pieces a n, a ≤ p.1 ∧ p.1 + p.2 ≤ a + n ∨ p.2 = 0 := by
  intro p hp
  unfold pieces at hp
  rw [List.mem_map] at hp
  obtain ⟨l, _, rfl⟩ := hp
  dsimp only
  omega

/-- A write by a unit of the device: the bytes land where every line is accepted. -/
theorem State.writeVia_spec {s : State} {port a : Nat} {bs : List Byte} (hp : port ≠ 22)
    (h : s.memCheck port a bs.length true = none) : s.writeVia port a bs = s.writeData a bs := by
  unfold State.writeVia
  simp only [hp, false_and, if_false, h]

theorem leBytes_length (n x : Nat) : (leBytes n x).length = n := by
  induction n generalizing x with
  | zero => rfl
  | succ n ih => simp [leBytes, ih]

theorem fitBytes_length (n : Nat) (bs : List Byte) : (fitBytes n bs).length = n := by
  unfold fitBytes
  simp
  omega

/-- Everything a unit's write can change: registers where a line is refused, and no byte outside the range. -/
theorem State.writeVia_frame (s : State) (port a : Nat) (bs : List Byte) (hp : port ≠ 22) :
    MemRegsOnly s (s.writeVia port a bs) ∧ KeepsOutside s (s.writeVia port a bs) a bs.length := by
  rcases Decidable.em (s.memCheck port a bs.length true = none) with h | h
  · rw [State.writeVia_spec hp h]
    exact ⟨rfl, fun x hx => by rw [State.byte_writeData, if_neg (by omega)]⟩
  · unfold State.writeVia
    rw [if_neg (by simp [hp])]
    split
    · obtain ⟨h1, h2⟩ := State.writePieces_spec port (pieces a bs.length) s bs
      refine ⟨h1, fun x hx => h2 x (fun p hm => ?_)⟩
      have := pieces_within a bs.length p hm
      omega
    · contradiction

theorem State.reel_modReel_same {s : State} {n : Nat} (h : n < 32) (f : Reel → Reel) : (s.modReel n f).reel n = f (s.reel n) := by
  unfold State.modReel State.setReel State.reel
  simp [h]

theorem State.reel_modReel_other {s : State} {n m : Nat} (h : m ≠ n) (f : Reel → Reel) : (s.modReel n f).reel m = s.reel m := by
  unfold State.modReel State.setReel State.reel
  dsimp only
  rw [Vector.getElem?_setIfInBounds_ne (by omega)]

/-- A bit that a cause sets reads 1. -/
theorem bit_or_pow (w : Word) (n : Nat) (hn : n < 32) : bit (w ||| w32 (2 ^ n)).toNat n = true := by
  have h : ((w ||| w32 (2 ^ n)).toNat).testBit n = true := by
    rw [BitVec.toNat_or, Nat.testBit_or]
    have : (w32 (2 ^ n)).toNat = 2 ^ n := by
      show (BitVec.ofNat 32 _).toNat = _
      rw [BitVec.toNat_ofNat, Nat.mod_eq_of_lt (Nat.pow_lt_pow_right (by decide) hn)]
    rw [this, Nat.testBit_two_pow_self, Bool.or_true]
  rw [Nat.testBit_eq_decide_div_mod_eq] at h
  unfold bit
  simpa using h

/-- What a completion leaves (R290), where the entry's write is accepted whenever it would be after it. -/
theorem State.complete_spec (s : State) (n type status seq : Nat) (job : BitVec 16) (opcode detail : Nat) (result : List Byte)
    (hn : n < 32)
    (hacc : (s.complete n type status seq job opcode detail result).memCheck 19 (s.entryAddr n) 64 true = none →
      s.memCheck 19 (s.entryAddr n) 64 true = none) :
    let t := s.complete n type status seq job opcode detail result
    EntryWritten s t n type status seq job opcode detail result ∧ ReelFrame s t ∧ (∀ m, m ≠ n → t.reel m = s.reel m) ∧
      t.reel n = { s.reel n with chead := ringNext (s.reelLog n) (s.reel n).chead } := by
  intro t
  have ht : t = s.complete n type status seq job opcode detail result := rfl
  rw [← ht] at hacc
  unfold State.complete at ht
  dsimp only at ht
  generalize he : leBytes 1 type ++ leBytes 1 status ++ leBytes 2 seq ++ leBytes 2 job.toNat ++ leBytes 1 opcode ++
    leBytes 1 n ++ leBytes 5 s.tk ++ leBytes 3 detail ++ fitBytes 48 result = e at ht
  have hlen : e.length = 64 := by rw [← he]; simp [leBytes_length, fitBytes_length]
  generalize ha : s.reelBase n + 64 * 2 ^ s.reelLog n + 64 * ((s.reel n).chead % 2 ^ s.reelLog n) = a at ht
  obtain ⟨hw, hb⟩ := s.writeVia_frame 19 a e (by decide)
  have hd := fun h => State.writeVia_spec (s := s) (port := 19) (a := a) (bs := e) (by decide) h
  have hr : (s.writeVia 19 a e).reel = s.reel := by rw [show s.writeVia 19 a e = _ from hw]; rfl
  generalize s.writeVia 19 a e = w at *
  have h1 := State.raise_spec (w.modReel n (fun r => { r with chead := ringNext (s.reelLog n) r.chead })) pgReels n
  rw [← ht] at h1
  have hre : ∀ m, t.reel m = (w.modReel n (fun r => { r with chead := ringNext (s.reelLog n) r.chead })).reel m := by
    intro m; rw [h1.2.1]; rfl
  have hdr : t.dram = w.dram := by rw [h1.2.1]; rfl
  have hself : t.reel n = { s.reel n with chead := ringNext (s.reelLog n) (s.reel n).chead } := by
    rw [hre, State.reel_modReel_same hn, hr]
  have hea : s.entryAddr n = a := ha
  refine ⟨⟨⟨?_, ?_, ?_⟩, ?_⟩, ?_, ?_, hself⟩
  · rw [hself]
  · unfold State.rn
    rw [h1.1]
    exact bit_or_pow _ n hn
  · intro hc
    have hc := hacc hc
    rw [hea] at hc ⊢
    rw [hlen] at hd
    have hd' := hd hc
    have q : ∀ x k, t.rawBytes x k = (s.writeData a e).rawBytes x k := by
      intro x k; unfold State.rawBytes; rw [hdr, hd']
    rw [q, q]
    constructor
    · have := s.rawBytes_writeData a 0 16 e (by omega)
      simp only [Nat.add_zero, List.drop_zero] at this
      rw [this, ← he]
      exact List.take_left' (by simp [leBytes_length])
    · rw [s.rawBytes_writeData a 16 48 e (by omega), ← he, List.drop_left' (by simp [leBytes_length])]
      exact List.take_of_length_le (by simp [fitBytes_length])
  · intro x hx
    rw [hea] at hx
    show mapGet t.dram x 0 = _
    rw [hdr]
    exact hb x (by omega)
  · unfold ReelFrame
    rw [h1.2.1, show w = _ from hw]
    rfl
  · intro m hm
    rw [hre, State.reel_modReel_other hm, hr]

/-- CMD_DONE with STATUS 0 (R290). -/
theorem State.done_spec (s : State) (c : Cmd) (detail : Nat) (result : List Byte) (hn : c.reel < 32)
    (hacc : (s.done c 0 detail result).memCheck 19 (s.entryAddr c.reel) 64 true = none →
      s.memCheck 19 (s.entryAddr c.reel) 64 true = none) :
    let t := s.done c 0 detail result
    EntryWritten s t c.reel 1 0 c.seq c.job c.op detail result ∧ ReelFrame s t ∧ (∀ m, m ≠ c.reel → t.reel m = s.reel m) ∧
      t.reel c.reel = { s.reel c.reel with chead := ringNext (s.reelLog c.reel) (s.reel c.reel).chead } := by
  intro t
  have ht : t = s.complete c.reel 1 0 c.seq c.job c.op detail result := by
    show s.done c 0 detail result = _
    unfold State.done
    dsimp only
    rw [if_neg (by simp)]
  rw [ht]
  exact s.complete_spec c.reel 1 0 c.seq c.job c.op detail result hn (by rw [← ht]; exact hacc)

theorem State.headCmd_reel (s : State) (n : Nat) (bs : List Byte) : (s.headCmd n bs).reel = n := by
  unfold State.headCmd
  dsimp only
  split <;> rfl

/-- A command taken and answered at once with STATUS 0 from a state that differs from the first outside the reel, its memory
and its registers: what the answer leaves of the first state. -/
theorem commandDone_of {s : State} {n : Nat} {c : Cmd} (h : Takes s n c) (hn : n < 32) (detail : Nat) (result : List Byte)
    (u : State) (hreels : u.reels = (s.popCmd n).reels) (hcfg : ∀ o, u.reg pgReels o = s.reg pgReels o)
    (hdram : u.dram = s.dram) (htime : u.time = s.time)
    (hacc : (u.done c 0 detail result).memCheck 19 (s.entryAddr n) 64 true = none →
      u.memCheck 19 (s.entryAddr n) 64 true = none) :
    CommandDone s (u.done c 0 detail result) c 0 detail result := by
  have hcr : c.reel = n := by rw [h.cmd]; exact s.headCmd_reel n _
  have hu : ∀ m, u.reel m = (s.popCmd n).reel m := by intro m; unfold State.reel; rw [hreels]
  have hl : u.reelLog n = s.reelLog n := by unfold State.reelLog State.rn; rw [hcfg]
  have hb : u.reelBase n = s.reelBase n := by unfold State.reelBase State.rn; rw [hcfg]
  have hp : (s.popCmd n).reel n = { s.reel n with head := ringNext (s.reelLog n) (s.reel n).head, tags := (s.reel n).tags.filter (fun t => t.index ≠ (s.reel n).head % 2 ^ s.reelLog n) } :=
    State.reel_modReel_same hn _
  have hea : u.entryAddr n = s.entryAddr n := by unfold State.entryAddr; rw [hb, hl, hu, hp]
  obtain ⟨h1, _, h3, h4⟩ := u.done_spec c detail result (by omega) (by rw [hcr, hea]; exact hacc)
  refine ⟨?_, ?_, ?_⟩
  · rw [hcr] at h4 ⊢
    rw [h4, hu, hp]
  · unfold EntryWritten EntryAt State.entryAddr at h1 ⊢
    rw [hcr] at h1 ⊢
    have hch : (u.reel n).chead = (s.reel n).chead := by rw [hu, hp]
    have htk : u.tk = s.tk := by unfold State.tk; rw [htime]
    have hby : ∀ x, u.byte x = s.byte x := by intro x; unfold State.byte; rw [hdram]
    rw [hl, hb, hch, htk] at h1
    exact ⟨h1.1, fun x hx => (h1.2 x hx).trans (hby x)⟩
  · intro m hm
    rw [h3 m hm, hu]
    rw [hcr] at hm
    exact State.reel_modReel_other hm _

end Sys2Proof.Machine
end

