-- ==== Sys2Proof/WellFormed.lean ====
section
/-! DEFINITION. Which operands a command may carry: the bounds the manual sets and the types do not. Commands outside
them are still given a meaning; claims name this predicate where they need it. -/

namespace Sys2Proof

/-- The frame lengths of R393: 64 to 9,216 bytes with the four check bytes, so 60 to 9,212 from destination MAC to payload end. -/
def Frame.wf (f : Frame) : Bool := 60 ≤ f.raw.length && f.raw.length ≤ 9212

/-- A memory request is at most one line of 64 bytes and does not cross its line (R365, R374). -/
def MemReq.wf (r : MemReq) : Bool := r.data.length ≤ 64 && r.addr.toNat % 64 + r.data.length ≤ 64

/-- A command is well formed. -/
def Instr.wf : Instr → Bool
  | .memRequestIssue r => r.wf
  | .frameReceive _ f => f.wf
  | .wakeFrame f => f.wf
  | .calibrationUpdate meas => meas.length == 11
  | .barWaitWindow waits => waits.length == 8
  | .thermalSample readings => readings.length == 48
  | .registerWrite _ a n _ => (n == 1 || n == 2 || n == 4 || n == 8) && a.toNat % n == 0
  | _ => true

end Sys2Proof
end

