-- ==== Sys2Proof/Tests/Slice0.lean ====
section
/-! SUPPORT. Tests: an ill-formed command for each check of `Instr.wf`, small tests of single commands whose expected
results come from the manual, and for each statement a state and operands that meet its hypotheses. -/

namespace Sys2Proof.Machine

set_option Elab.async false

/-! ### Well-formedness refuses -/

/-- A frame with no payload type of its own and a given number of bytes. -/
def tFrame (n : Nat) : Frame := ⟨List.replicate n 0, 0, false, 0, 0, none, none, false, 0, 0, 0, .other []⟩

theorem test_wf_frame_short : Instr.wf (.frameReceive 0 (tFrame 59)) = false := by decide
theorem test_wf_frame_shortest : Instr.wf (.frameReceive 0 (tFrame 60)) = true := by decide
theorem test_wf_wake_frame_short : Instr.wf (.wakeFrame (tFrame 0)) = false := by decide
theorem test_wf_request_crosses_its_line :
    Instr.wf (.memRequestIssue ⟨19, 60, true, false, false, false, false, [1, 2, 3, 4, 5], 0⟩) = false := by decide
theorem test_wf_calibration_groups : Instr.wf (.calibrationUpdate [none]) = false := by decide
theorem test_wf_bar_wait_clusters : Instr.wf (.barWaitWindow []) = false := by decide
theorem test_wf_thermal_sensors : Instr.wf (.thermalSample [0x100]) = false := by decide
theorem test_wf_write_size : Instr.wf (.registerWrite .sec 0 3 0) = false := by decide
theorem test_wf_write_alignment : Instr.wf (.registerWrite .sec 2 4 0) = false := by decide

/-! ### Small tests -/

/-- Address of a register (R32). -/
def tAddr (page off : Nat) : Addr := BitVec.ofNat 40 (regAddr page off)

/-- The state after a command; the same state where it would stop. -/
def after (i : Instr) (s : State) : State :=
  match exec i s with
  | .next t => t
  | _ => s

/-- R75, R57: a staged write stays staged until its commit. -/
theorem test_stage : (after (.registerWrite .sec (tAddr 0x022 0x100) 4 1) State.reset).staged = [(0x22100, 1)] := by decide
theorem test_commit_nothing_staged :
    bits ((after (.commit .sec 0x022 0x5A) State.reset).rn 0x022 0x24) 3 0 = 7 := by decide
/-- R61: another value is COMMIT_KEY. -/
theorem test_commit_key : bits ((after (.commit .sec 0x022 0x5B) State.reset).rn 0x022 0x18) 7 0 = 0x84 := by decide
/-- R34: an unassigned page. -/
theorem test_bad_page : bits ((after (.registerWrite .sec (tAddr 0x007 0x100) 4 1) State.reset).rn 0 0x18) 7 0 = 0x8B := by decide
/-- R54, R53: an installer's write leaves a field at maker. -/
theorem test_lock_kept : (after (.roleLockWrite (.hart 0) 0 0) State.reset).rn 0 0x28 = 0x28 := by decide

/-! ### States and operands that meet the statements' hypotheses -/

/-- The state after reset with a list of register words and a list of staged words. -/
def tRegs (regs staged : SMap Word) : State := { State.reset with regs := regs, staged := staged }

/-- Whether a register of a page admits a write of a requester. -/
def tOpen (s : State) (who : Requester) (page off : Nat) (k : Kind) (i : Nat) (r : Row) : Bool :=
  mayReachPages who && decide (off < 4096) && decide (off % 4 = 0) && decide (pageKind page = some (k, i)) &&
    unitPresent s.fuse.grade k i && decide (off ≠ 0x28 ∧ off ≠ 0x20 ∧ off ≠ 8) && decide (rowAt k off = some r) &&
    s.mayWrite who page off k && (decide (off < 0x400) || decide (0x800 ≤ off) || s.expertEn page)

theorem opens_of {s : State} {who : Requester} {page off : Nat} {k : Kind} {i : Nat} {r : Row}
    (h : tOpen s who page off k i r = true) : Opens s who page off k i r := by
  simp only [tOpen, Bool.and_eq_true, Bool.or_eq_true, decide_eq_true_eq] at h
  obtain ⟨⟨⟨⟨⟨⟨⟨⟨h1, h2⟩, h3⟩, h4⟩, h5⟩, h6⟩, h7⟩, h8⟩, h9⟩ := h
  exact ⟨⟨h1, h2, h3, h4, h5⟩, h6, h7, h8, fun a b => by rcases h9 with (h9 | h9) | h9 <;> omega⟩

theorem reaches_of {s : State} {who : Requester} {page off : Nat} {k : Kind} {i : Nat}
    (h : (mayReachPages who && decide (off < 4096) && decide (off % 4 = 0) && decide (pageKind page = some (k, i)) &&
      unitPresent s.fuse.grade k i) = true) : Reaches s who page off k i := by
  simp only [Bool.and_eq_true, decide_eq_true_eq] at h
  exact ⟨h.1.1.1.1, h.1.1.1.2, h.1.1.2, h.1.2, h.2⟩

theorem witness_StepRunsTheFrontCommand :
    State.reset.pending = [] ∧
      ({ State.reset with pending := [.coldReset] } : State).pending = .coldReset :: [] := ⟨rfl, rfl⟩

theorem witness_EveryStepKeepsTheInvariant : MemCanonical State.reset := by unfold MemCanonical; decide

/-- A state whose axis page 0 has a staged value and an armed commit. -/
def tArmed : State := tRegs [(0x104, 0x20), (0x2200C, 0xA)] [(0x22100, 1)]

/-- A state whose axis page 0 has a staged value only. -/
def tStaged : State := tRegs [(0x104, 0x20), (0x2200C, 0x2)] [(0x22100, 2)]

theorem witness_StagedRegistersStageAndLock :
    Opens State.reset .sec 0x022 0x100 .axis 0 ⟨0x100, 1, 4, .rws, 0, 0x3FFFFF⟩ ∧
      (tAddr 0x022 0x100).toNat = regAddr 0x022 0x100 ∧ State.reset.armed 0x022 = false ∧
      State.reset.readActive 0x022 = false ∧ (tRegs [(0x104, 0x20), (0x22008, 0x10)] []).readActive 0x022 = true ∧
      Opens tArmed .sec 0x022 0x100 .axis 0 ⟨0x100, 1, 4, .rws, 0, 0x3FFFFF⟩ ∧ tArmed.armed 0x022 = true := by
  and_intros <;> first | decide +kernel | exact opens_of (by decide +kernel)

theorem witness_WriteOfPlainRegister :
    Opens State.reset .sec 1 0x134 .gaffer 0 ⟨0x134, 1, 4, .rw, 1, 3⟩ ∧ plainReg .gaffer 0x134 = true ∧
      State.reset.winBusy = [] ∧ (tAddr 1 0x134).toNat = regAddr 1 0x134 ∧ rwBad .gaffer 0x134 2 = false ∧
      Opens (tRegs [(0x104, 0x20), (0x200008, 2)] []) .sec 0x200 0x400 .tc 0 ⟨0x400, 4, 4, .rw, 0, 31⟩ ∧
      plainReg .tc 0x400 = true ∧ rwBad .tc 0x400 14 = true ∧ rwBad .tc 0x400 13 = false := by
  and_intros <;> first | decide +kernel | exact opens_of (by decide +kernel) | rfl

/-- A WQ-7064, whose cores 4 to 15 of a cluster are absent. -/
def tSmall : State := { State.reset with fuse := { Fuses.reset with grade := .wq7064 } }

theorem witness_RefusedAccesses :
    Reaches State.reset .sec 0x022 0xFF0 .axis 0 ∧ rowAt .axis 0xFF0 = none ∧
      State.reset.mayWrite (.hart 0) 0x013 0x100 .fuses = false ∧ Reaches State.reset .sec 0x200 0x400 .tc 0 ∧
      State.reset.expertEn 0x200 = false ∧ (rowAt .axis 0x140).map (·.acc) = some .ro ∧
      mayReachPages (.port 3) = false ∧ pageKind 7 = none ∧ pageKind 0x27F = some (.tc, 127) ∧
      unitPresent tSmall.fuse.grade .tc 127 = false := by
  and_intros <;> first | decide +kernel | exact reaches_of (by decide +kernel)

theorem witness_RoleLockRule :
    Reaches State.reset .sec (0x022#16).toNat 0x28 .axis 0 ∧ State.reset.roleOf .sec ≠ .operator ∧
      ({ State.reset with sec := { Sec.reset with bootDone := true } } : State).roleOf (.hart 0) = .operator := by
  and_intros <;> first | decide +kernel | exact reaches_of (by decide +kernel)

theorem witness_SoftResetReturnsThePage :
    Reaches State.reset .sec (0x022#16).toNat 8 .axis 0 ∧ roleMeets (State.reset.roleOf .sec) (State.reset.lock 0x022 0) = true ∧
      State.reset.unitHeld .axis 0 = false ∧
      ({ State.reset with reels := State.reset.reels.set 0 { Reel.reset with reserved := 1 } } : State).unitHeld .reels 0 = true := by
  and_intros <;> first | decide +kernel | exact reaches_of (by decide +kernel)

theorem witness_CommitAppliesOrIsRefused :
    Reaches tStaged .sec (0x022#16).toNat 0x20 .axis 0 ∧ tStaged.armed 0x022 = false ∧ tStaged.stagedOf 0x022 ≠ [] ∧
      tStaged.commitRole 0x022 (tStaged.roleOf .sec) = true ∧ tStaged.commitRole 0x022 .operator = false ∧
      firstFail (tStaged.commitFails 0x022) = none ∧ tStaged.atBoundary 0x022 = false ∧ tArmed.armed 0x022 = true ∧
      firstFail ((tRegs [] [(0x22100, 8)]).commitFails 0x022) = some (0x100, 0) := by
  and_intros <;> first | decide +kernel | exact reaches_of (by decide +kernel)

/-- GROUP_SEL names the axis pages and GROUP_MASK0 the first of them, which has a staged value. -/
def tGroup : State := tRegs [(0x104, 0x20), (0x140, 0x0403), (0x144, 1)] [(0x22100, 2)]

theorem witness_ArmedAndGroupCommits :
    pageKind (0x022#16).toNat = some (.axis, 0) ∧ unitPresent tArmed.fuse.grade .axis 0 = true ∧ tArmed.armed 0x022 = true ∧
      Opens tGroup .sec pgSys 0x154 .sys 0 ⟨0x154, 1, 4, .wo, 0, 0xFFFFFFFF⟩ ∧ tGroup.groupPages = [0x022] ∧
      tGroup.stagedOf 0x022 ≠ [] ∧ tGroup.groupFailures .maker [0x022] = [] ∧
      tGroup.groupFailures .operator [0x022] = [(0x022, 4, 0, 0)] := by
  and_intros <;> first | decide +kernel | exact opens_of (by decide +kernel)

theorem witness_AbortRule :
    Reaches State.reset .sec (0x022#16).toNat 0x20 .axis 0 ∧ State.reset.stagedOf 0x022 = [] ∧ tStaged.stagedOf 0x022 ≠ [] ∧
      tStaged.commitRole 0x022 (tStaged.roleOf .sec) = true ∧ tStaged.commitRole 0x022 .operator = false := by
  and_intros <;> first | decide +kernel | exact reaches_of (by decide +kernel)

/-- The staging window of the flow table holds an entry of TYPE 0 whose ring is in order. -/
def tFlowWin : State :=
  tRegs [(0x104, 0x20), (rkey pgFlows 0x938, w32 dramBase), (rkey pgFlows 0x93C, w32 (dramBase / 2 ^ 32)),
    (rkey pgFlows 0x940, 6)] []

theorem witness_WindowCommands :
    Opens State.reset .sec (1#16).toNat 0x804 .gaffer 0 ⟨0x804, 1, 4, .wo, 0, 0xFFFFFFFF⟩ ∧ isWindow .gaffer = true ∧
      State.reset.winBusy = [] ∧ State.reset.rn 1 0x800 < (winShape .gaffer).1 ∧
      (State.reset.rn 1 0x800 + 1) % 2 ^ 24 < (winShape .gaffer).1 ∧
      (winShape .gaffer).1 ≤ (tRegs [(0x104, 0x20), (0x1800, 256)] []).rn 1 0x800 ∧
      firstBad (State.reset.storeBad .gaffer 0 0 (State.reset.winData 1 32)) = some 0 ∧
      Opens tFlowWin .sec (0x037#16).toNat 0x804 .flows 0 ⟨0x804, 1, 4, .wo, 0, 0xFFFFFFFF⟩ ∧
      firstBad (tFlowWin.storeBad .flows 0 2047 (tFlowWin.winData 0x037 128)) = none ∧
      ({ State.reset with winBusy := [(1, true)] } : State).winBusy.find? (fun p => p.1 = (1#16).toNat) = some ((1#16).toNat, true) := by
  and_intros <;> first | decide +kernel | exact opens_of (by decide +kernel) | rfl

theorem witness_StoreIfGenRule :
    Opens tFlowWin .sec (0x037#16).toNat 0x804 .flows 0 ⟨0x804, 1, 4, .wo, 0, 0xFFFFFFFF⟩ ∧
      tFlowWin.winGenOf 0x037 0 = tFlowWin.reg 0x037 0x80C ∧
      firstBad (tFlowWin.storeBad .flows 0 0 (tFlowWin.winData 0x037 128)) = none ∧
      (tRegs [(0x104, 0x20), (0x3780C, 1)] []).winGenOf 0x037 0 ≠ (tRegs [(0x104, 0x20), (0x3780C, 1)] []).reg 0x037 0x80C := by
  and_intros <;> first | decide +kernel | exact opens_of (by decide +kernel)

/-- Source 1 of the PLIC (the SYS page) is pending, enabled for context 0 with priority 1. -/
def tPlic : State := { tRegs [(0x104, 0x20), (0xA1800, 1), (0xA1A80, 1)] [] with plicPending := [1] }

theorem witness_PlicClaimsAndCompletes :
    mayReachPages .sec = true ∧ 1 ∈ tPlic.plicPending ∧ tPlic.plicOn 0 1 = true ∧
      tPlic.rn pgPlic 0x100 % 8 < tPlic.plicPrio 1 ∧ tPlic.mayWrite .sec pgPlic 0x104 .plic = true ∧
      tPlic.irqLevel 0 = false ∧ tPlic.pagePresent 0 = true ∧
      (tRegs [(0x10, 1), (0x14, 1)] []).irqLevel 0 = true := by
  and_intros <;> decide +kernel

/-- One edge waits in the event FIFO. -/
def tEvt : State := { State.reset with evts := [⟨1, 2, 3, 4⟩] }

theorem witness_ClearsAndLatches :
    Opens State.reset .sec (pgTc 127) 0x140 .tc 127 ⟨0x140, 1, 4, .wo, 0, 0xFFFFFFFF⟩ ∧
      Opens State.reset .sec (pgCl 7) 0x140 .cl 7 ⟨0x140, 1, 4, .wo, 0, 0xFFFFFFFF⟩ ∧
      Opens State.reset .sec pgThermal 0x10C .thermal 0 ⟨0x10C, 1, 4, .ro, 0, 0xFF⟩ ∧
      Opens State.reset .sec (pgMc 7) 0x164 .mc 7 ⟨0x164, 1, 4, .rw, 0, 63⟩ ∧ State.reset.rn (pgMc 7) 0x164 < 64 ∧
      mayReachPages .sec = true ∧ (∃ e es, tEvt.evts = e :: es) := by
  have h6 : (∃ e es, tEvt.evts = e :: es) := ⟨_, _, rfl⟩
  and_intros <;> first | assumption | decide +kernel | exact opens_of (by decide +kernel)

/-- A 64-byte command: the bytes given, then zeros. -/
def tBytes (l : List Byte) : List Byte := l ++ List.replicate (64 - l.length) 0

/-- Reel 0 with a 16-entry ring at the start of DRAM, enabled for the local session, and one command waiting in it. -/
def tReel (cmd : List Byte) : State :=
  { tRegs [(0x104, 0x20), (0x400, 1), (0x71100, w32 (dramBase / 4096)), (0x71104, 0x94)] [] with
    segInit := (List.range 8).map (segKey · 0)
    dram := (((tBytes cmd).zipIdx).map (fun p => (dramBase + p.2, p.1))).filter (fun p => p.2 ≠ 0)
    reels := State.reset.reels.set 0 { Reel.reset with tail := 1, tags := [⟨0, 0, 0⟩] } }

/-- The command JSC finds at the head of reel 0. -/
def tCmd (s : State) : Cmd := s.headCmd 0 (s.rawBytes (s.headAddr 0) 64)

/-- Whether JSC takes the command at the head of reel 0. -/
def tTakes (s : State) : Bool :=
  let c := tCmd s
  s.mayTake 0 && decide (s.memCheck 19 (s.headAddr 0) 64 false = none) && s.linesClean (s.headAddr 0) 64 && knownOp c.op &&
    c.atLeast (cmdRole c.bytes) && s.lockOk c && decide (reservedAt c.bytes = none)

theorem takes_of {s : State} (h : tTakes s = true) : Takes s 0 (tCmd s) := by
  simp only [tTakes, Bool.and_eq_true, decide_eq_true_eq] at h
  obtain ⟨⟨⟨⟨⟨⟨h1, h2⟩, h3⟩, h5⟩, h6⟩, h7⟩, h8⟩ := h
  exact ⟨h1, h2, h3, rfl, h5, h6, h7, h8⟩

/-- Fifteen words stand in the submit window of reel 0. -/
def tSubmit : State :=
  { tRegs [(0x104, 0x20), (0x400, 1), (0x71100, w32 (dramBase / 4096)), (0x71104, 0x94)] [] with
    reels := State.reset.reels.set 0 { Reel.reset with win := (List.range 15).map (fun i => (i, 7)) } }

theorem witness_ReelsTakeCommandsWithTheirRole :
    Opens tSubmit (.hart 0) pgReels 0x83C .reels 0 ⟨0x800, 512, 4, .wo, 0, 0xFFFFFFFF⟩ ∧ tSubmit.sessionOf (.hart 0) = some 0 ∧
      (∀ p ∈ (tSubmit.reel 0).win, p.1 < 15) ∧ (tSubmit.reel 0).win.map (·.1) = List.range 15 ∧ tSubmit.reelOn 0 = true ∧
      tSubmit.reelSource 0 = 1 ∧ tSubmit.reelFull 0 = false ∧ State.reset.reelOn 0 = false ∧
      tSubmit.memCheck 19 (tSubmit.reelBase 0) 64 true = none ∧
      Takes (tReel [7, 0, 1, 0, 0, 0, 0, 0, 1]) 0 (tCmd (tReel [7, 0, 1, 0, 0, 0, 0, 0, 1])) ∧
      opIs 0x07 (tCmd (tReel [7, 0, 1, 0, 0, 0, 0, 0, 1])).bytes = true ∧
      Takes (tReel [8, 0, 1, 0, 0, 0, 0, 0, 1]) 0 (tCmd (tReel [8, 0, 1, 0, 0, 0, 0, 0, 1])) ∧
      fld (tCmd (tReel [8, 0, 1, 0, 0, 0, 0, 0, 1])).bytes 8 1 = 1 := by
  and_intros <;> first | decide +kernel | exact opens_of (by decide +kernel) | exact takes_of (by decide +kernel)

/-- Bytes at places, as memory lists them. -/
def tPut (base : Nat) (l : List (Nat × List Byte)) : SMap Byte :=
  (l.flatMap (fun p => (p.2.zipIdx).map (fun q => (base + p.1 + q.2, q.1)))).filter (fun p => p.2 ≠ 0)

/-- A Zhevi image written out from R185 to R188: a call sheet for one core, streams of NOP and END, the empty descriptor and a
16-element INT32 tensor, and room for its signature. -/
def tImage : List (Nat × List Byte) :=
  [(0, leBytes 4 0x3156485A ++ [1, 0, 0, 0, 7, 5] ++ leBytes 2 2 ++ leBytes 4 2 ++ leBytes 4 2 ++ leBytes 4 8115 ++ [0x77]),
   (256, leBytes 4 1 ++ leBytes 4 384 ++ leBytes 4 256), (272, leBytes 4 2 ++ leBytes 4 640 ++ leBytes 4 16),
   (288, leBytes 4 3 ++ leBytes 4 704 ++ leBytes 4 16), (304, leBytes 4 4 ++ leBytes 4 768 ++ leBytes 4 128),
   (320, leBytes 4 15 ++ leBytes 4 896 ++ leBytes 4 7219),
   (384, [1, 0, 1, 0] ++ leBytes 4 786432 ++ [1, 0, 2]), (408, [1]), (424, leBytes 4 8192),
   (448, leBytes 4 0 ++ [16, 0, 4]), (456, leBytes 4 4096 ++ [16, 0, 4]), (464, leBytes 4 8192 ++ [16, 0, 4]),
   (472, leBytes 4 12288 ++ [16, 0, 4]), (496, leBytes 4 10), (648, leBytes 8 (8 * 2 ^ 58)),
   (712, leBytes 8 (8 * 2 ^ 58)), (832, [1, 0, 0, 0] ++ leBytes 4 (9 * 4 + 512) ++ leBytes 8 0 ++ [0, 0, 0, 0] ++ leBytes 4 16)]

/-- Registers and memory with that image in program slot 0, a segment table and reel 0. -/
def tLoaded (cmd : List Byte) : State :=
  let s := tReel cmd
  let m := tPut (dramBase + 0x2000) [(0, leBytes 5 0 ++ leBytes 5 (dramBase + 0x1000000) ++ leBytes 4 1 ++ [1])] ++
    tPut (dramBase + 0x100000) tImage
  { s with
    regs := [(0x104, 0x20), (0x400, 1), (0x70100, w32 (dramBase / 4096 + 0x100)), (0x70104, 65536),
      (0x71100, w32 (dramBase / 4096)), (0x71104, 0x94)]
    dram := s.dram ++ m
    slots := s.slots.set 0 { loaded := true, verifying := none, trailer := [], length := 8115, imageId := 0x77, digest := 0 }
    sec := { s.sec with bootDone := true } }

/-- A run submitted through reel 0 as command 1. -/
def tRun : Run where
  reel := 0
  seq := 1
  opcode := 3
  session := 0
  gen := 0
  acc := 0
  lcnt := [0, 0, 0, 0]
  tag := 9
  armed := false
  cue := 0
  autoRearm := false
  start := none
  lastSlate := 0
  restarts := 0
  preempts := 0
  maxTake := 0
  risk := false

/-- An idle job 5 on cluster 0, bound by the local session to slot 0. -/
def tJob : Job where
  id := 5
  owner := 0
  ownerGen := 0
  slot := 0
  cls := 2
  retry := false
  dUnits := 0
  placed := [(0, 0)]
  cueFirst := 0
  cueCount := 1
  area := dramBase + 0x2000000
  areaBytes := 0x200000
  recEntries := 16
  parts := [4096, 20480, 20480, 8192, 0, 0, 0, 0, 0, 4096]
  segs := [⟨0, dramBase + 0x1000000, 0x200000, true⟩]
  deadlineUs := 0
  st := .idle
  runs := []
  cur := none
  cores := []
  claimed := []
  ready := false
  released := false
  resuming := false
  takeNo := 1
  failures := 0
  lost := false
  committed := false
  slateId := 0
  slateSeq := 0
  slateB := false
  half := 0
  saves := []
  saveCnt := []
  spillSaves := []
  sums := List.replicate 7 0
  records := []
  fired := []
  yieldTarget := none
  jobBars := []
  rebind := none
  nextD := 0
  nextDeadline := 0
  nextRetry := false
  cancel := none
  rearm := none
  phases := []

/-- That job running on core 0. -/
def tRunning : Job := { tJob with st := .running, cur := some { tRun with start := some 0 }, cores := [0], ready := true, released := true }

/-- Core 0 running the job's take, both engines free. -/
def tCore : Core :=
  { Core.reset with
    mode := .running
    job := 5
    fe := { Eng.reset with wait := .none }
    xe := { Eng.reset with wait := .none } }

/-- The loaded image, a job and its core. -/
def tState (cmd : List Byte) (j : Job) (c : Core) : State :=
  let s := tLoaded cmd
  { s with jobs := [j], cores := s.cores.set 0 c }

theorem witness_TimeCommandsAnswerAndAct :
    Takes (tReel [0x20]) 0 (tCmd (tReel [0x20])) ∧ Takes (tReel [0x21]) 0 (tCmd (tReel [0x21])) ∧
      Takes (tReel [0x27, 0, 0, 0, 0, 0, 0, 0, 2]) 0 (tCmd (tReel [0x27, 0, 0, 0, 0, 0, 0, 0, 2])) ∧
      Takes (tReel [0x24, 0, 0, 0, 0, 0, 0, 0, 7]) 0 (tCmd (tReel [0x24, 0, 0, 0, 0, 0, 0, 0, 7])) ∧
      fld (tCmd (tReel [0x24, 0, 0, 0, 0, 0, 0, 0, 7])).bytes 8 1 = 7 ∧ (tReel [0x24]).axSource 0 ≠ 7 ∧
      (tRegs [(0x104, 0x20), (0x22100, 7)] []).axSource 0 = 7 ∧ ((tReel [0x24]).axis 0).lastT = none ∧
      Takes (tReel [0x25]) 0 (tCmd (tReel [0x25])) ∧ (tRegs [(0x104, 0x20), (0x2110C, 0x100)] []).ntBit 8 = true ∧
      Takes (tReel [0x26]) 0 (tCmd (tReel [0x26])) ∧ (tReel [0x26]).ntState = 0 := by
  and_intros <;> first | decide +kernel | exact takes_of (by decide +kernel)

/-- FLOW_GATE for flow 3, which is an RTP flow. -/
def tFlow (action gated : Byte) : State :=
  { tReel [9, 0, 0, 0, 0, 0, 0, 0, 3, 0, action] with winTab := [(winKey pgFlows 128 3 0, 1), (winKey pgFlows 128 3 1, gated)] }

/-- CUE_SET of slot 0 with a time cue, and CUE_DISARM of an armed one. -/
def tCueSet : State := tReel [0x22, 0, 0, 0, 0, 0, 0, 0, 0, 0, 0, 0, 2]
def tDisarm : State :=
  let s := tReel [0x23]
  { s with regs := [(0x104, 0x20), (0x400, 1), (rkey pgCue (cueOff 0 0), 3), (0x71100, w32 (dramBase / 4096)), (0x71104, 0x94)] }

theorem witness_CueGateAndCapCommands :
    Takes tCueSet 0 (tCmd tCueSet) ∧ fld (tCmd tCueSet).bytes 8 1 < 64 ∧ (tCueSet.cue 0).handed = false ∧
      ((tCueSet.popCmd 0).cueCommit (.jsc 0) 0
        [(0, w32 (fld (tCmd tCueSet).bytes 12 4) &&& 0xF3FFF), (4, 0), (8, 0), (0xC, 0), (0x10, 0), (0x14, 0)]).2 ≠ 3 ∧
      Takes tDisarm 0 (tCmd tDisarm) ∧ tDisarm.staged = [] ∧ (tDisarm.cue 0).later = [] ∧
      ((tDisarm.popCmd 0).cueCommit (.jsc 0) 0 [(0, w32 (tDisarm.cueReg 0 0 / 2 * 2) &&& 0xF3FFF)]).2 ≠ 3 ∧
      Takes (tFlow 1 0) 0 (tCmd (tFlow 1 0)) ∧ (tFlow 1 0).flowType 3 ≠ 0 ∧
      Takes (tFlow 0 0x80) 0 (tCmd (tFlow 0 0x80)) ∧ bit ((tFlow 0 0x80).flowNat 3 1 1) 7 = true ∧
      Takes (tReel ([0xA, 0, 0, 0, 0, 0, 0, 0] ++ leBytes 4 20000)) 0 (tCmd (tReel ([0xA, 0, 0, 0, 0, 0, 0, 0] ++ leBytes 4 20000))) ∧
      20000 ≤ (tReel [0xA]).rn pgGaffer 0x400 ∧ fld (tCmd (tReel [0xA])).bytes 8 4 < 20000 := by
  and_intros <;> first | decide +kernel | exact takes_of (by decide +kernel)

/-- QUERY of job 5 with the job bound. -/
def tQuery : State := tState [6, 0, 1, 0, 5] tJob Core.reset

theorem witness_QueriesAndRefusedCommands :
    Takes tQuery 0 (tCmd tQuery) ∧ opIs 0x06 (tCmd tQuery).bytes = true ∧ tQuery.job? (tCmd tQuery).job = some tJob ∧
      (tCmd tQuery).owns tJob = true ∧ (tReel [6, 0, 1, 0, 5]).job? 5 = none ∧
      ({ tQuery with poison := [dramBase] } : State).isPoison (tQuery.headAddr 0) 64 = true ∧
      knownOp (tCmd (tReel [0x7F])).op = false ∧ (tCmd (tReel [0x7F])).op ≠ 3 ∧
      (tCmd { tReel [6] with reels := State.reset.reels.set 0 { Reel.reset with tail := 1 } }).atLeast .operator = false ∧
      reservedAt (tCmd (tReel [6, 0, 0, 0, 0, 0, 0, 0, 1])).bytes = some 8 := by
  and_intros <;> first | decide +kernel | exact takes_of (by decide +kernel)

/-- LOAD_IMAGE of 7,283 bytes from DRAM into slot 1. -/
def tLoad : State :=
  let s := tLoaded ([1, 0, 1, 0, 0, 0, 0, 0, 1, 0, 0, 0, 0, 0, 0, 0] ++ leBytes 5 (dramBase + 0x4000) ++ [0, 0, 0] ++ leBytes 4 7283)
  { s with sec := { s.sec with bootDone := false } }

/-- SEC verifies the image of slot 0. -/
def tVerify : State :=
  let s := tLoaded [1]
  { s with slots := s.slots.set 0 { PSlot.reset with verifying := some ⟨0, 1, 0, 0, 0, 8115⟩ } }

/-- Whether a signature verifies is a constant without a body, so each case is shown. -/
theorem witness_ImagesAreCopiedAndVerified :
    Takes tLoad 0 (tCmd tLoad) ∧ opIs 0x01 (tCmd tLoad).bytes = true ∧ (tLoad.slot 1).verifying = none ∧
      tLoad.slotLocked 1 = false ∧ trailerLen < fld (tCmd tLoad).bytes 24 4 ∧ fld (tCmd tLoad).bytes 24 4 ≤ tLoad.slotBytes ∧
      tLoad.inDram (fld (tCmd tLoad).bytes 16 5) 7283 = true ∧ fld (tCmd tLoad).bytes 16 5 % 64 = 0 ∧ tLoad.poison = [] ∧
      tLoad.memCheck 19 (fld (tCmd tLoad).bytes 16 5) 7283 false = none ∧
      tLoad.memCheck 19 (tLoad.slotAddr 1) 64 true = none ∧
      (tVerify.slot 0).verifying = some ⟨0, 1, 0, 0, 0, 8115⟩ ∧
      (tVerify.imageSigOk 0 8115 (tVerify.slot 0).trailer = true → tVerify.imageRef 0 8115 (tVerify.slot 0).trailer = none) ∧
      (tVerify.imageSigOk 0 8115 (tVerify.slot 0).trailer = false →
        tVerify.imageRef 0 8115 (tVerify.slot 0).trailer = some (0x10, 0)) := by
  have h12 : (tVerify.imageSigOk 0 8115 (tVerify.slot 0).trailer = true → tVerify.imageRef 0 8115 (tVerify.slot 0).trailer = none) := fun h => by
      have h1 : tVerify.chkHeader 0 8115 = none := by decide +kernel
      unfold State.imageRef
      rw [h, h1]
      decide +kernel
  have h13 : (tVerify.imageSigOk 0 8115 (tVerify.slot 0).trailer = false →
        tVerify.imageRef 0 8115 (tVerify.slot 0).trailer = some (0x10, 0)) := fun h => by unfold State.imageRef; rw [h]; decide +kernel
  and_intros <;> first | with_reducible assumption | decide +kernel | exact takes_of (by decide +kernel)

/-- A BIND of job 5 to slot 0; the slot's digest is the one of its bytes. -/
def tBindCmd (flags : Byte) : List Byte :=
  [2, 0, 1, 0, 5, 0, 0, 0, 0, 2, flags, 0, 0, 0, 0, 0] ++ leBytes 5 (dramBase + 0x2000000) ++ [0, 0, 0] ++ leBytes 4 0x200000 ++
    leBytes 4 16 ++ leBytes 5 (dramBase + 0x2000) ++ [0, 0, 0] ++ [1]
def tBind (flags : Byte) (jobs : List Job) : State :=
  let s := tLoaded (tBindCmd flags)
  { s with
    jobs := jobs
    slots := (s.slots.set 0 { s.slot 0 with digest := Config.sha3 (s.rawBytes (s.slotAddr 0) 896) }) }

theorem imageChanged_of {s : State} (h : (s.slot 0).digest = Config.sha3 (s.rawBytes (s.slotAddr 0) ((s.slot 0).length - trailerLen))) :
    s.imageChanged 0 = false := by simp [State.imageChanged, h]

theorem tBind_unchanged (f : Byte) (js : List Job) : ((tBind f js).popCmd 0).imageChanged 0 = false := by
  have h : ((tBind f js).popCmd 0).slot 0 = { (tLoaded (tBindCmd f)).slot 0 with
      digest := Config.sha3 ((tLoaded (tBindCmd f)).rawBytes ((tLoaded (tBindCmd f)).slotAddr 0) 896) } := by
    simp [State.slot, State.popCmd, State.modReel, State.setReel, tBind]
  have l : ((tLoaded (tBindCmd f)).slot 0).length = 896 + trailerLen := rfl
  unfold State.imageChanged
  rw [h]
  simp only [l, Nat.add_sub_cancel]
  exact bne_self_eq_false _

theorem witness_BindsAndRebinds :
    Takes (tBind 0 []) 0 (tCmd (tBind 0 [])) ∧ opIs 0x02 (tCmd (tBind 0 [])).bytes = true ∧
      (tBind 0 []).sec.bootDone = true ∧ (bindArgs (tCmd (tBind 0 [])).bytes).vaN = 1 ∧
      (tBind 0 []).memCheck 19 (dramBase + 0x2000) 16 false = none ∧
      (tBind 0 []).isPoison (dramBase + 0x2000) 16 = false ∧
      ((tBind 0 []).popCmd 0).bindRef 5 (bindArgs (tCmd (tBind 0 [])).bytes)
        (some (segsOf ((tBind 0 []).rawBytes (dramBase + 0x2000) 16) 1)) = none ∧
      ((tBind 0 []).popCmd 0).placement (bindArgs (tCmd (tBind 0 [])).bytes) true = some [0] ∧
      ((tBind 0 [tJob]).popCmd 0).bindRef 5 (bindArgs (tCmd (tBind 0 [tJob])).bytes) (some []) = some (5, 4) ∧
      Takes (tBind 2 [tJob]) 0 (tCmd (tBind 2 [tJob])) ∧ bit (fld (tCmd (tBind 2 [tJob])).bytes 10 1) 1 = true ∧
      (tBind 2 [tJob]).job? 5 = some tJob ∧
      ((tBind 2 [tJob]).popCmd 0).rebindRef (tCmd (tBind 2 [tJob])) tJob (bindArgs (tCmd (tBind 2 [tJob])).bytes) = none := by
  have h6 : ((tBind 0 []).popCmd 0).bindRef 5 (bindArgs (tCmd (tBind 0 [])).bytes)
        (some (segsOf ((tBind 0 []).rawBytes (dramBase + 0x2000) 16) 1)) = none := by
      have h : (bindArgs (tCmd (tBind 0 [])).bytes).slot = 0 := by decide +kernel
      unfold State.bindRef
      rw [h, tBind_unchanged]
      decide +kernel
  have h12 : ((tBind 2 [tJob]).popCmd 0).rebindRef (tCmd (tBind 2 [tJob])) tJob (bindArgs (tCmd (tBind 2 [tJob])).bytes) = none := by
      have h : (bindArgs (tCmd (tBind 2 [tJob])).bytes).slot = 0 := by decide +kernel
      unfold State.rebindRef
      rw [h, tBind_unchanged]
      decide +kernel
  and_intros <;> first | with_reducible assumption | decide +kernel | exact takes_of (by decide +kernel)

/-- RUN and ARM of job 5; the second RUN asks for a loop count above LCNT_MAX. -/
def tRunS : State := tState [3, 0, 1, 0, 5] tJob Core.reset
def tArmS : State := tState [4, 0, 1, 0, 5] { tJob with cls := 0 } Core.reset
def tRunOver : State := tState [3, 0, 1, 0, 5, 0, 0, 0, 1, 0, 0, 0, 0, 0, 0, 0, 11] tJob Core.reset
/-- CANCEL of the running job with a scope. -/
def tCancel (scope : Byte) : State := tState [5, 0, 1, 0, 5, 0, 0, 0, scope] tRunning tCore

theorem witness_RunsArmsAndCancels :
    Takes tRunS 0 (tCmd tRunS) ∧ opIs 0x03 (tCmd tRunS).bytes = true ∧ tRunS.job? (tCmd tRunS).job = some tJob ∧
      (tCmd tRunS).owns tJob = true ∧ tRunS.runRef tJob false (tCmd tRunS).bytes = none ∧
      Takes tArmS 0 (tCmd tArmS) ∧ tArmS.runRef { tJob with cls := 0 } true (tCmd tArmS).bytes = none ∧
      Takes tRunOver 0 (tCmd tRunOver) ∧
      tRunOver.sheet 0 112 4 < (tRunOver.runCounts 0 (tCmd tRunOver).bytes).getD 0 0 ∧
      Takes (tCancel 2) 0 (tCmd (tCancel 2)) ∧ (tCancel 2).job? (tCmd (tCancel 2)).job = some tRunning ∧
      (tCmd (tCancel 2)).owns tRunning = true ∧ tRunning.cancel = none ∧ tRunning.cores = [0] ∧ tRunning.released = true ∧
      (tState [] { tRunning with cancel := some (0, 1, 2) } tCore).job? 5 = some { tRunning with cancel := some (0, 1, 2) } := by
  and_intros <;> first | decide +kernel | exact takes_of (by decide +kernel) | rfl

/-- Job 5 queued with one pending run, and core 0 enabled. -/
def tQueued : Job := { tJob with st := .queued, runs := [tRun] }
def tStart : State :=
  let s := tState [] tQueued Core.reset
  { s with regs := s.regs ++ [(0x200008, 1)] }

/-- The same core, for a lost take and for a spilled one; and held by a job of class 3, which the queued one may claim. -/
def tStartOf (j : Job) : State := { tStart with jobs := [j] }
def tHolder : Job := { tRunning with id := 6, cls := 3 }
def tClaims : State :=
  { tStart with jobs := [tQueued, tHolder], cores := tStart.cores.set 0 { tCore with job := 6 } }

theorem tStart_only {k : Job} (h : k ∈ tStart.jobs) (n : k.id ≠ 5) : False := by
  have e : k = tQueued := by simpa [tStart, tState] using h
  exact n (by rw [e]; rfl)

theorem witness_TakesStartOnFreeCores :
    tStart.job? 5 = some tQueued ∧ tStart.c2Active = false ∧ tQueued.cancelling = false ∧ tQueued.cur = none ∧
      tQueued.runs = tRun :: [] ∧
      (∀ k ∈ tStart.jobs, k.id ≠ 5 → ∀ q, k.candidate = some q → before q (2, 2, 0) = false) ∧
      tStart.canStart tQueued = some [0] ∧ [0].Nodup ∧
      (tStartOf { tQueued with st := .restarting, cur := some tRun, committed := true }).canStart
        { tQueued with st := .restarting, cur := some tRun, committed := true } = some [0] ∧
      (tStartOf { tQueued with st := .spilled, cur := some tRun }).canStart { tQueued with st := .spilled, cur := some tRun } =
        some [0] ∧
      tClaims.job? 5 = some tQueued ∧ (tClaims.jobs.map (·.id)).Nodup ∧ tHolder.candidate = none ∧
      tClaims.canStart tQueued = none ∧ tClaims.claimCores tQueued = some [0] := by
  have h6 : (∀ k ∈ tStart.jobs, k.id ≠ 5 → ∀ q, k.candidate = some q → before q (2, 2, 0) = false) :=
    fun _ h n => (tStart_only h n).elim
  and_intros <;> first | assumption | decide +kernel | rfl

/-- Core 0 with one instruction word at its program counter. -/
def tWord (e : Engine) (w : Nat) (c : Core) : Core :=
  { c with icacheValid := true, icache := [⟨e == .fe, 0, BitVec.ofNat 64 w :: List.replicate 7 0⟩] }

/-- Job 5 with its cores ready and not yet released, and one whose run is to be armed again. -/
def tReady : Job := { tRunning with released := false }
def tRearm : Job := { tJob with rearm := some { tRun with armed := true, autoRearm := true } }

theorem witness_TakesAreReleasedAndRearmed :
    (tState [] tReady { tCore with fe := Eng.reset }).job? 5 = some tReady ∧ tReady.isArmed = false ∧
      ({ tReady with cur := some { tRun with armed := true } } : Job).isArmed = true ∧
      ((tState [] tReady { tCore with fe := Eng.reset }).core 0).mode ≠ .stopped ∧
      (tState [] tReady { tCore with fe := Eng.reset }).opAllows 0 ((tState [] tReady tCore).imgMaxOp 0) = true ∧
      ((tState [] tReady { tCore with xe := Eng.reset }).core 0).xe.wait = .start ∧
      ((tState [] tReady { tCore with xe := Eng.reset }).core 0).fe.wait ≠ .start ∧
      ((tState [] tReady { tCore with xe := { Eng.reset with wait := .hold } }).core 0).xe.wait = .hold ∧
      (tState [] tReady { tCore with xe := Eng.reset }).gatedAt 0 = false ∧ tReady.cancelling = false ∧
      (tState [] { tRunning with cur := some tRun } (tWord .fe 0 tCore)).engReady 0 .fe = true ∧
      (((tState [] { tRunning with cur := some tRun } (tWord .fe 0 tCore)).core 0).word? .fe).map BitVec.toNat = some 0 ∧
      (tState [] { tRunning with cur := some tRun } (tWord .fe 0 tCore)).coreJob 0 = some { tRunning with cur := some tRun } ∧
      tRun.start = none := by
  and_intros <;> first | decide +kernel | rfl

theorem witness_TakesAreReleasedAndRearmed_autoRearm :
    (tState [] tRearm Core.reset).job? 5 = some tRearm ∧ 1 ≤ (tState [] tRearm Core.reset).cmplFree 0 ∧ tRearm.runs.length < 16 ∧
      tRearm.st ≠ .failed ∧ tRearm.cancelling = false := by
  and_intros <;> first | decide +kernel | rfl

/-- A core whose engines both stand at YIELD 1, and one with a token left. -/
def tYield : Core := { tCore with fe := { Eng.reset with wait := .yield 1 0 }, xe := { Eng.reset with wait := .yield 1 0 } }
/-- Job 5 restoring its spilled take to core 0. -/
def tRestoring : Job := { tRunning with st := .spilled, ready := false, spillSaves := [] }

theorem witness_TakesSpillAndAreRestored :
    (tState [] tRunning tYield).job? 5 = some tRunning ∧ ((tState [] tRunning tYield).core 0).fe.wait.isYield = true ∧
      ((tState [] tRunning tYield).core 0).queuesBusy = false ∧ ({ tYield with tq3 := [0] } : Core).queuesBusy = true ∧
      ((tState [] tRunning { tYield with mode := .spilling }).core 0).mode = .spilling ∧
      ((tState [] tRunning { tYield with mode := .spilling }).core 0).spadBad = [] ∧
      ((tState [] tRunning tYield).quiet 0 .fe && (tState [] tRunning tYield).quiet 0 .xe) = true ∧
      (tState [] tRunning tYield).slateCap ≠ 0 ∧
      (tState [] tRestoring { tCore with mode := .restoring }).job? 5 = some tRestoring ∧
      (tState [] tRestoring tCore).memCheck 19 (tRestoring.areaPart 3) 8192 false = none ∧
      (tState [] tRestoring tCore).shLiveMax 0 = 8192 ∧
      (tState [] tRestoring tCore).linesClean (tRestoring.areaPart 3) 8192 = true ∧ tRestoring.restoreFrom.1 = 3 ∧
      (tState [] tRestoring tCore).tagsOk (tRestoring.areaPart 3) 8192 = true := by
  and_intros <;> decide +kernel

/-- Both engines of core 0 stand at SLATE 3. -/
def tSlate : Core := { tCore with fe := { Eng.reset with wait := .slate 3 0 }, xe := { Eng.reset with wait := .slate 3 0 } }
def tSlating : Job := { tRunning with st := .slating }

theorem witness_SlateCommits :
    ImageInSlot (tState [] { tSlating with rebind := some 0 } tSlate) 0 ∧
      (tState [] tSlating tSlate).job? 5 = some tSlating ∧ ((tState [] tSlating tSlate).core 0).fe.wait.slateId? = some 3 ∧
      ((tState [] tSlating tSlate).core 0).xe.wait.slateId? = some 3 ∧ ((tState [] tSlating tSlate).core 0).spadBad = [] ∧
      tSlating.rebind = none ∧ (tState [] tSlating tSlate).trkDue = [] ∧
      (tState [] tSlating tSlate).memCheck 19 tSlating.area 64 true = none ∧ (tState [] tSlating tSlate).slateCap ≠ 0 ∧
      (tState [] tSlating tSlate).opAllows 0 ((tState [] tSlating tSlate).core 0).maxOp = true ∧
      ((tState [] tSlating tSlate).cluster 0).target ≤ ((tState [] tSlating tSlate).core 0).maxOp ∧
      (tState [] { tSlating with rebind := some 0 } tSlate).opAllows 0
        ((tState [] { tSlating with rebind := some 0 } tSlate).imgMaxOp 0) = true ∧
      ((tState [] { tSlating with rebind := some 0 } tSlate).cluster 0).target ≤
        (tState [] { tSlating with rebind := some 0 } tSlate).imgMaxOp 0 := by
  have h11 : ImageInSlot (tState [] { tSlating with rebind := some 0 } tSlate) 0 := by
    constructor
    · decide +kernel
    · intro e; cases e <;> decide +kernel
  refine ⟨h11, ?_⟩
  and_intros <;> first | decide +kernel | rfl

/-- The job and core with a C1 fault, or a C2 fault, to be served; and a lost take whose core has stopped. -/
def tFault (cls : Nat) : State := { tState [] tRunning tCore with faults := [⟨cls, some 0, 5, 0⟩] }
def tLost (armed : Bool) (failures : Nat) : Job :=
  { tRunning with st := .restarting, lost := true, failures := failures, cur := some { tRun with armed := armed } }

theorem witness_StopsResetAndRestart :
    (tFault 1).faults = [⟨1, some 0, 5, 0⟩] ∧ (tFault 1).job? 5 = some tRunning ∧
      ⟨2, some 0, 5, 0⟩ ∈ (tFault 2).faults ∧ ((tFault 2).jobs.map (·.id)).Nodup ∧
      ({ tFault 2 with c2Active := true } : State).c2Active = true ∧
      (tState [] (tLost false 1) { tCore with mode := .stopped }).job? 5 = some (tLost false 1) ∧
      (tLost true 3).cur = some { tRun with armed := true } ∧
      ((tState [] (tLost false 1) { tCore with mode := .stopped }).core 0).mode = .stopped ∧
      ((tState [] (tLost false 1) { tCore with mode := .stopped }).core 0).job = 5 ∧
      (tState [] (tLost false 1) { tCore with mode := .stopped }).c2Active = false := by
  and_intros <;> first | decide +kernel | rfl

/-- Whether the word is issued. -/
def tIssues (s : State) (e : Engine) (w : Nat) : Bool :=
  s.engReady 0 e && decide (((s.core 0).word? e).map BitVec.toNat = some w) && condHolds ((s.core 0).eng e) w &&
    (match s.coreJob 0 with | some j => !j.resuming && j.cur.all (fun r => r.start.isSome) | none => true)

theorem issues_of {s : State} {e : Engine} {w : Nat} (h : tIssues s e w = true) : Issues s 0 e w := by
  simp only [tIssues, Bool.and_eq_true, decide_eq_true_eq] at h
  refine ⟨by decide, h.1.1.1, h.1.1.2, h.1.2, fun _ j hj => ?_⟩
  have hs := h.2
  simp only [hj, Bool.and_eq_true, Bool.not_eq_true'] at hs
  refine ⟨hs.1, fun r hr => ?_⟩
  rw [hr] at hs
  intro hn
  simp [hn] at hs

/-- An instruction word: opcode, and the bits below it. -/
def tIns (op : Nat) (low : Nat) : Nat := op * 2 ^ 58 + low

/-- The running job with an instruction of core 0. -/
def tAt (e : Engine) (w : Nat) : State := tState [] tRunning (tWord e w tCore)

theorem witness_ControlInstructions :
    Issues (tAt .fe (tIns 0 0)) 0 .fe (tIns 0 0) ∧ Issues (tAt .xe (tIns 1 (5 * 2 ^ 16))) 0 .xe (tIns 1 (5 * 2 ^ 16)) ∧
      Issues (tAt .fe (tIns 2 0)) 0 .fe (tIns 2 0) ∧
      Issues (tAt .xe (tIns 9 (3 * 2 ^ 49 + 7))) 0 .xe (tIns 9 (3 * 2 ^ 49 + 7)) ∧
      condHolds ((tAt .fe (tIns 1 (2 ^ 55 * 6))).core 0).fe (tIns 1 (2 ^ 55 * 6)) = false ∧
      Issues (tAt .fe (tIns 4 0)) 0 .fe (tIns 4 0) ∧ (tAt .fe (tIns 4 0)).coreJob 0 = some tRunning ∧
      Issues (tAt .xe (tIns 6 0)) 0 .xe (tIns 6 0) ∧ Issues (tAt .xe (tIns 7 0)) 0 .xe (tIns 7 0) ∧
      ((tAt .xe (tIns 7 0)).core 0).lcore % (tAt .xe (tIns 7 0)).shCores 0 = 0 := by
  and_intros <;> first | decide +kernel | exact issues_of (by decide +kernel)

/-- A program for two cores of a cluster: a call sheet, seven descriptors (1 an INT32 tensor in DRAM, 2 scales, 3 parameters, 4 a
table, 5 an INT16 index tensor, 6 the counter window), two maps, a job barrier's and a cluster barrier's entry, a convolution and
a multicast group from core 0 to core 1. -/
def tProgram : List (Nat × List Byte) :=
  [(8, [7, 7]), (10, leBytes 2 8), (12, leBytes 4 8 ++ leBytes 4 8),
   (256, leBytes 4 1 ++ leBytes 4 384 ++ leBytes 4 256), (272, leBytes 4 2 ++ leBytes 4 640 ++ leBytes 4 64),
   (288, leBytes 4 3 ++ leBytes 4 704 ++ leBytes 4 64), (304, leBytes 4 4 ++ leBytes 4 1280 ++ leBytes 4 512),
   (320, leBytes 4 5 ++ leBytes 4 1024 ++ leBytes 4 128), (336, leBytes 4 7 ++ leBytes 4 1152 ++ leBytes 4 96),
   (352, leBytes 4 10 ++ leBytes 4 1264 ++ leBytes 4 16),
   (384, [1, 0, 2, 0] ++ leBytes 4 786432 ++ [16, 0, 8]), (396, leBytes 4 65536), (408, [1]), (424, leBytes 4 8192),
   (448, leBytes 4 0 ++ [32, 0, 4]), (456, leBytes 4 8192 ++ [32, 0, 4]), (464, leBytes 4 16384 ++ [32, 0, 4]),
   (472, leBytes 4 24576 ++ [32, 0, 4]),
   (1036, leBytes 2 16 ++ [7]), (1046, [0, 7]), (1058, [7]), (1070, [7]), (1082, [7]),
   (1098, [0, 7]), (1110, [0, 7]), (1122, [7]), (1134, [7]), (1146, [7]),
   (1160, [15]), (1200, [1]), (1208, [3]), (1264, [0, 0, 2, 0]),
   (1344, [1, 0, 0, 0] ++ leBytes 4 (9 * 4 + 512) ++ leBytes 8 0 ++ [0, 0, 0, 0] ++ leBytes 4 16),
   (1408, [2, 0, 0, 0]), (1472, [3, 0, 0, 0, 2, 0, 2, 0, 2]), (1536, [4]),
   (1600, [1, 0, 0, 0] ++ leBytes 4 (8 * 4 + 512) ++ leBytes 8 4096 ++ [0, 0, 0, 0] ++ leBytes 4 16),
   (1664, [1, 0, 0, 0] ++ leBytes 4 (1 + 9 * 4 + 512) ++ leBytes 8 counterWindow ++ [0, 0, 0, 0] ++ leBytes 4 16)]

/-- Two cores run job 5 with that program in slot 0. -/
def tPair : Job := { tRunning with cores := [0, 1] }
def tProg (j : Job) (c d : Core) : State :=
  let s := tLoaded []
  { s with
    dram := tPut (dramBase + 0x100000) tProgram
    jobs := [j]
    cores := (s.cores.set 0 c).set 1 d
    clusters := s.clusters.set 0 { Cluster.reset with
      counters := { WorkCnt.reset with job := 5, limit := 2 } :: List.replicate 15 WorkCnt.reset
      barriers := [⟨0, 5, 1, []⟩]
      groups := [⟨0, 5, 0, []⟩] } }

/-- Core 0 with a word to issue, every descriptor cached. -/
def tCached (e : Engine) (w : Nat) (c : Core) : Core := { tWord e w c with dcache := [1, 2, 3, 4, 5, 6] }
def tDo (e : Engine) (w : Nat) (c : Core) : State := tProg tPair (tCached e w c) { tCore with lcore := 1 }

/-- The word's tensor and map are read from the cache, and no entry drives the map. -/
theorem boxReady_of {s : State} {j : Job} {td m : Nat}
    (h : (td != 0 && (s.core 0).dcache.contains td && (mapRecs (s.mapBytes j.slot.val m)).all (fun r => r.drv != 6)) = true) :
    BoxReady s 0 j td m (tensorOf (s.lcnt 0) (s.descImg j.slot.val td)) (mapRecs (s.mapBytes j.slot.val m)) s := by
  simp only [Bool.and_eq_true, bne_iff_ne, List.all_eq_true] at h
  exact ⟨rfl, fun r hr hd => absurd hd (h.2 r hr), _, by rw [DescReads, if_neg h.1.1, if_pos h.1.2]; exact ⟨rfl, rfl⟩, rfl⟩

/-- A descriptor as a cached tag, or tag 0, gives it. -/
def tDesc (s : State) (j : Job) (td : Nat) : List Byte := if td = 0 then List.replicate 64 0 else s.descImg j.slot.val td

theorem descReads_of {s : State} {j : Job} {td : Nat} (h : (td == 0 || (s.core 0).dcache.contains td) = true) :
    DescReads s 0 j td (tDesc s j td) s := by
  simp only [Bool.or_eq_true, beq_iff_eq] at h
  unfold DescReads tDesc
  by_cases z : td = 0
  · simp [z]
  · rw [if_neg z, if_neg z, if_pos (h.resolve_left z)]
    exact ⟨rfl, rfl⟩

/-- A load, and a store, of a box whose descriptors are cached. -/
theorem loadReads_of {s : State} {w : Nat} {j : Job}
    (h : (bits w 45 34 != 0 && (s.core 0).dcache.contains (bits w 45 34) &&
      (mapRecs (s.mapBytes j.slot.val (bits w 33 26))).all (fun r => r.drv != 6)) = true)
    (k : ((tensorOf (s.lcnt 0) (s.descImg j.slot.val (bits w 45 34))).scale == 0 ||
      (s.core 0).dcache.contains (tensorOf (s.lcnt 0) (s.descImg j.slot.val (bits w 45 34))).scale) = true) :
    LoadReads s 0 w j (tensorOf (s.lcnt 0) (s.descImg j.slot.val (bits w 45 34))) (mapRecs (s.mapBytes j.slot.val (bits w 33 26)))
      (tDesc s j (tensorOf (s.lcnt 0) (s.descImg j.slot.val (bits w 45 34))).scale) none s :=
  ⟨_, _, boxReady_of h, descReads_of k, rfl⟩

theorem storeReads_of {s : State} {w : Nat} {j : Job}
    (h : (bits w 45 34 != 0 && (s.core 0).dcache.contains (bits w 45 34) &&
      (mapRecs (s.mapBytes j.slot.val (bits w 33 26))).all (fun r => r.drv != 6)) = true) :
    StoreReads s 0 w j (tensorOf (s.lcnt 0) (s.descImg j.slot.val (bits w 45 34))) (mapRecs (s.mapBytes j.slot.val (bits w 33 26)))
      none s := ⟨_, boxReady_of h, rfl⟩

/-- The index tensor of a GATHER or SCATTER is cached, and its values lie in the scratchpad. -/
theorem idxReads_of {s : State} {w : Nat} {j : Job} {t : Tensor} {origin : List Int} {ext : List Nat} (cells : List Cell)
    (ls : List Nat) (e : cells = (idxPos (bits w 50 49) origin ext).map (fun p =>
      s.cell 0 j (tensorOf (s.lcnt 0) (s.descImg j.slot.val (bits w 25 14))) false [p, 0, 0, 0, 0]))
    (l : ls = ((cells.filterMap Cell.bit?).map (fun b => b / 8 / 64 * 64)).eraseDups)
    (h : (bits w 25 14 != 0 && (s.core 0).dcache.contains (bits w 25 14) && !cells.contains Cell.bad &&
      (s.core 0).linesChk ((ls.filter isSpadKey).map (· - 2 ^ 41)) == .ok && ls.all isSpadKey) = true) :
    ∃ ix, IdxReads s 0 j (bits w 50 49) (bits w 25 14) t origin ext ix s := by
  simp only [Bool.and_eq_true, bne_iff_ne, beq_iff_eq, Bool.not_eq_true', List.contains_eq_mem, decide_eq_false_iff_not,
    decide_eq_true_eq] at h
  obtain ⟨⟨⟨⟨h1, h2⟩, h3⟩, h4⟩, h5⟩ := h
  have f : ls.filter (fun l => !isSpadKey l) = [] := by
    rw [List.filter_eq_nil_iff]
    intro a ha
    simp [List.all_eq_true.mp h5 a ha]
  subst e l
  refine ⟨_, _, s, by rw [DescReads, if_neg h1, if_pos (by simpa using h2)]; exact ⟨rfl, rfl⟩, h3, h4, ?_, rfl⟩
  rw [f]
  rfl

/-- The parameter descriptor of a LDP and the five it names. -/
def tParams (s : State) (j : Job) (w : Nat) : ParamDescs :=
  let pd := tDesc s j (bits w 45 34)
  ⟨pd, tDesc s j (fld pd 4 2 % 4096), tDesc s j (fld pd 6 2 % 4096), tDesc s j (fld pd 8 2 % 4096), tDesc s j (fld pd 10 2 % 4096),
    tDesc s j (fld pd 20 2 % 4096)⟩

/-- Whether a core needs no memory for a descriptor. -/
def tHas (s : State) (td : Nat) : Bool := td == 0 || (s.core 0).dcache.contains td

theorem paramReads_of {s : State} {w : Nat} {j : Job}
    (h : ((mapRecs (s.mapBytes j.slot.val (bits w 33 26))).all (fun r => r.drv != 6) && tHas s (bits w 45 34) &&
      [4, 6, 8, 10, 20].all (fun o => tHas s (fld (tDesc s j (bits w 45 34)) o 2 % 4096))) = true) :
    ParamReads s 0 w j (mapRecs (s.mapBytes j.slot.val (bits w 33 26))) (tParams s j w) s := by
  simp only [Bool.and_eq_true, bne_iff_ne, List.all_eq_true] at h
  have d (o : Nat) (ho : o ∈ [4, 6, 8, 10, 20]) := descReads_of (j := j) (h.2 o ho)
  exact ⟨rfl, fun r hr hd => absurd hd (h.1.1 r hr), s, s, s, s, s, descReads_of h.1.2, d 4 (by decide), d 6 (by decide),
    d 8 (by decide), d 10 (by decide), d 20 (by decide)⟩

/-- The cells of the box of tensor `td` and map `m`, and the transfer that loads them into queue 0. -/
def tCells (s : State) (j : Job) (td m : Nat) (st : Bool) : List (List Cell) :=
  let rs := mapRecs (s.mapBytes j.slot.val m)
  s.boxCells 0 j (tensorOf (s.lcnt 0) (s.descImg j.slot.val td)) st none (s.feOrigin 0 j rs) (rs.map (·.ext))
def tXfer (s : State) (j : Job) (td m : Nat) : Transfer :=
  let rs := mapRecs (s.mapBytes j.slot.val m)
  s.tileXfer 0 j 0 (tensorOf (s.lcnt 0) (s.descImg j.slot.val td)) (List.replicate 64 0) (tCells s j td m false) none
    (s.feOrigin 0 j rs) (rs.map (·.ext))

theorem witness_BarriersHoldUntilTheLastArrival :
    Issues (tDo .fe (tIns 3 0) tCore) 0 .fe (tIns 3 0) ∧ (tDo .fe (tIns 3 0) tCore).coreJob 0 = some tPair ∧
      (tDo .fe (tIns 3 0) tCore).barMask 0 0 = [0, 1, 2, 3] ∧
      ((tProg tPair { tCore with fe := { Eng.reset with wait := .barrier 1 false } } tCore).core 0).fe.wait = .barrier 1 false ∧
      (tProg tPair { tCore with fe := { Eng.reset with wait := .barrier 1 false } } tCore).quiet 0 .fe = true ∧
      (tProg tPair tCore tCore).barScope 0 0 = 0 ∧ (tProg tPair tCore tCore).barScope 0 1 = 1 ∧
      (tProg { tPair with jobBars := [⟨0, 5, 1, [0, 1]⟩] } tCore tCore).barMask 0 1 = [0, 1] ∧
      (tProg { tPair with jobBars := [⟨0, 5, 1, [0, 1]⟩] } tCore tCore).arrived 0 { tPair with jobBars := [⟨0, 5, 1, [0, 1]⟩] } 1 =
        [0, 1] := by
  and_intros <;> first | decide +kernel | exact issues_of (by decide +kernel)

theorem witness_SlatesAndEndsGatherTheTake :
    Issues (tDo .fe (tIns 5 (3 * 2 ^ 41)) tCore) 0 .fe (tIns 5 (3 * 2 ^ 41)) ∧
      (tDo .fe (tIns 5 (3 * 2 ^ 41)) tCore).coreJob 0 = some tPair ∧ 0 ∈ tPair.cores ∧
      (tDo .fe (tIns 5 0) tCore).quiet 0 .fe = true ∧ ((tDo .fe (tIns 5 0) tCore).core 0).queuesBusy = false ∧
      Issues (tDo .xe (tIns 8 0) tCore) 0 .xe (tIns 8 0) ∧ ((tDo .xe (tIns 8 0) { tCore with tq3 := [0] }).core 0).queuesBusy = true ∧
      (tDo .xe (tIns 8 0) tCore).trkDue = [] ∧ tPair.rebind = none ∧ tPair.cur = some { tRun with start := some 0 } := by
  and_intros <;> first | decide +kernel | exact issues_of (by decide +kernel) | rfl

/-- LD of descriptor 1 with map 0 into queue 0; LDP of parameter descriptor 3. -/
def tLd : Nat := tIns 0x10 (2 ^ 34)
def tLdp : Nat := tIns 0x17 (3 * 2 ^ 34 + 2 ^ 26)

theorem witness_LoadsReserveATokenAndASlot :
    Issues (tDo .fe tLd tCore) 0 .fe tLd ∧ (tDo .fe tLd tCore).coreJob 0 = some tPair ∧ isOp 0x10 tLd = true ∧ bit tLd 50 = false ∧
      (tDo .fe tLd tCore).loadWaits 0 0 = false ∧
      (tDo .fe tLd { tCore with busy := [(0, 0)] }).loadWaits 0 0 = true ∧
      LoadReads (tDo .fe tLd tCore) 0 tLd tPair (tensorOf ((tDo .fe tLd tCore).lcnt 0) ((tDo .fe tLd tCore).descImg 0 1))
        (mapRecs ((tDo .fe tLd tCore).mapBytes 0 0)) (List.replicate 64 0) none (tDo .fe tLd tCore) ∧
      (∀ r ∈ tCells (tDo .fe tLd tCore) tPair 1 0 false, Cell.bad ∉ r) ∧
      (tXfer (tDo .fe tLd tCore) tPair 1 0).bytes ≤ ((tDo .fe tLd tCore).ring 0 0).2.1 ∧
      (tXfer (tDo .fe tLd tCore) tPair 1 0).lines ≠ [] ∧
      Issues (tDo .fe tLdp tCore) 0 .fe tLdp ∧
      ParamReads (tDo .fe tLdp tCore) 0 tLdp tPair (mapRecs ((tDo .fe tLdp tCore).mapBytes 0 1)) (tParams (tDo .fe tLdp tCore) tPair tLdp)
        (tDo .fe tLdp tCore) ∧
      Cell.bad ∉ (tDo .fe tLdp tCore).paramSrc 0 tPair (tParams (tDo .fe tLdp tCore) tPair tLdp)
        (((tDo .fe tLdp tCore).feOrigin 0 tPair (mapRecs ((tDo .fe tLdp tCore).mapBytes 0 1))).getD 0 0) ∧
      512 ≤ ((tDo .fe tLdp tCore).ring 0 0).2.1 := by
  have h7 := loadReads_of (s := tDo .fe tLd tCore) (w := tLd) (j := tPair) (by decide +kernel) (by decide +kernel)
  have h12 := paramReads_of (s := tDo .fe tLdp tCore) (w := tLdp) (j := tPair) (by decide +kernel)
  refine ⟨?_, ?_, ?_, ?_, ?_, ?_, h7, ?_, ?_, ?_, ?_, h12, ?_, ?_⟩
  all_goals first | decide +kernel | exact issues_of (by decide +kernel)

/-- GATHER of the same box with an index tensor in the scratchpad. -/
def tGather : Nat := tIns 0x12 (2 ^ 34 + 3 * 2 ^ 14)

theorem witness_LoadsReserveATokenAndASlot_gather :
    Issues (tDo .fe tGather tCore) 0 .fe tGather ∧ (tDo .fe tGather tCore).loadWaits 0 0 = false ∧
      ∃ t rs sc ix, LoadReads (tDo .fe tGather tCore) 0 tGather tPair t rs sc (some ix) (tDo .fe tGather tCore) := by
  obtain ⟨ix, h⟩ := idxReads_of (s := tDo .fe tGather tCore) (w := tGather) (j := tPair)
    (t := tensorOf ((tDo .fe tGather tCore).lcnt 0) ((tDo .fe tGather tCore).descImg 0 1))
    (origin := (tDo .fe tGather tCore).feOrigin 0 tPair (mapRecs ((tDo .fe tGather tCore).mapBytes 0 0)))
    (ext := (mapRecs ((tDo .fe tGather tCore).mapBytes 0 0)).map (·.ext)) _ _ rfl rfl (by decide +kernel)
  exact ⟨issues_of (by decide +kernel), by decide +kernel, _, _, _, ix, _, _,
    boxReady_of (j := tPair) (td := 1) (m := 0) (by decide +kernel), descReads_of (by decide +kernel), h⟩

/-- LD of the multicast group's source, and RCV. -/
def tMc : Nat := tIns 0x10 (2 ^ 50 + 2 ^ 34)
def tRcv : Nat := tIns 0x11 (2 ^ 34)
/-- The source and its member hold their paired transfers. -/
def tPaired : State :=
  let x := tXfer (tDo .fe tMc tCore) tPair 1 0
  tProg tPair { tCore with xfers := [{ x with group := some (0, 0), waiting := true, source := true }] }
    { tCore with lcore := 1, xfers := [{ x with group := some (0, 0), waiting := true }] }

theorem witness_MulticastLoadsPair :
    Issues (tDo .fe tMc tCore) 0 .fe tMc ∧ (tDo .fe tMc tCore).coreJob 0 = some tPair ∧ bit tMc 50 = true ∧
      (tDo .fe tMc tCore).localIdx 0 tPair = ((tDo .fe tMc tCore).mcEntry 0 0).1 ∧ (tDo .fe tMc tCore).loadWaits 0 0 = false ∧
      Issues (tDo .fe tRcv tCore) 0 .fe tRcv ∧ (tDo .fe tRcv tCore).localIdx 0 tPair ∉ ((tDo .fe tRcv tCore).mcEntry 0 0).2 ∧
      Issues (tDo .fe tRcv { tCore with lcore := 1 }) 0 .fe tRcv ∧
      (tDo .fe tRcv { tCore with lcore := 1 }).localIdx 0 tPair ∈ ((tDo .fe tRcv tCore).mcEntry 0 0).2 ∧
      ((tPaired.core 0).xfers.find? (fun x => x.source && x.waiting)).isSome = true ∧
      (tPaired.core 0).mode = .running ∧ (tPaired.mcEntry 0 0).2 = [1] ∧ tPaired.peer 0 tPair 1 = some 1 ∧
      ((tPaired.core 1).groupXfer 0 0).isSome = true ∧ tPaired.gatedAt 0 = false := by
  and_intros <;> first | decide +kernel | exact issues_of (by decide +kernel)

/-- SRD and SWR of one word of descriptor 1 by map 1, of a descriptor (map 255), and of the counter window. -/
def tSrd (td m : Nat) : Nat := tIns 0x15 (td * 2 ^ 34 + m * 2 ^ 26 + 3)
def tSwr (td m : Nat) : Nat := tIns 0x16 (td * 2 ^ 34 + m * 2 ^ 26 + 3)
/-- Core 0 with short-buffer entry 0 as given. -/
def tSb (e : SBEntry) : Core := { tCore with sb := e :: List.replicate 31 SBEntry.reset }
def tWindow (w : Nat) : Option Nat :=
  let s := tDo .fe w tCore
  windowOff (tensorOf (s.lcnt 0) (s.descImg 0 6)) (s.feOrigin 0 tPair (mapRecs (s.mapBytes 0 1)))

theorem witness_ShortReadsFillTheirEntry :
    Issues (tDo .fe (tSrd 1 1) tCore) 0 .fe (tSrd 1 1) ∧ (tDo .fe (tSrd 1 1) tCore).coreJob 0 = some tPair ∧
      isOp 0x15 (tSrd 1 1) = true ∧ (tDo .fe (tSrd 1 1) tCore).shortBusy 0 = false ∧
      (((tDo .fe (tSrd 1 1) tCore).core 0).sbAt 0).pend = .none ∧
      BoxReady (tDo .fe (tSrd 1 1) tCore) 0 tPair 1 1
        (tensorOf ((tDo .fe (tSrd 1 1) tCore).lcnt 0) ((tDo .fe (tSrd 1 1) tCore).descImg 0 1))
        (mapRecs ((tDo .fe (tSrd 1 1) tCore).mapBytes 0 1)) (tDo .fe (tSrd 1 1) tCore) ∧
      bits (tSrd 1 255) 33 26 = 255 ∧ tWindow (tSrd 6 1) = some 0 ∧
      ((tDo .fe (tSrd 6 1) tCore).cluster 0).counterAt 5 0 = some 0 ∧
      (((tDo .fe 0 (tSb { SBEntry.reset with pend := .read [some dramBase] })).core 0).sbAt 0).pend = .read [some dramBase] ∧
      ((tDo .fe 0 tCore).passKeys 0 [dramBase]).isSome = true ∧ isSpadKey dramBase = false ∧ LineClean (tDo .fe 0 tCore) 0 (dramBase / 64 * 64) := by
  have h11 : LineClean (tDo .fe 0 tCore) 0 (dramBase / 64 * 64) := by
      have h1 : isSpadKey (dramBase / 64 * 64) = false := by decide +kernel
      have h2 : isDramKey (dramBase / 64 * 64) = true := by decide +kernel
      rw [LineClean, h1, h2]
      exact ⟨by decide +kernel, by decide +kernel⟩
  have h6 := boxReady_of (s := tDo .fe (tSrd 1 1) tCore) (j := tPair) (td := 1) (m := 1) (by decide +kernel)
  refine ⟨?_, ?_, ?_, ?_, ?_, h6, ?_, ?_, ?_, ?_, ?_, ?_, h11⟩
  all_goals first | decide +kernel | exact issues_of (by decide +kernel)

theorem witness_ShortWritesStoreTheirBytes :
    Issues (tDo .fe (tSwr 1 1) (tSb { SBEntry.reset with valid := true })) 0 .fe (tSwr 1 1) ∧ isOp 0x16 (tSwr 1 1) = true ∧
      (((tDo .fe (tSwr 1 1) (tSb { SBEntry.reset with valid := true })).core 0).sbAt 0).valid = true ∧
      (((tDo .fe (tSwr 1 1) tCore).core 0).sbAt 0).valid = false ∧
      (((tDo .fe 0 (tSb { SBEntry.reset with valid := true, poison := some ⟨1, 0, 0⟩ })).core 0).sbAt 0).poison ≠ none ∧
      (tDo .fe (tSwr 1 255) tCore).descAddr tPair 1 + 64 ≤ 2 ^ 40 ∧ (tDo .fe (tSwr 1 1) tCore).shortBusy 0 = false ∧
      BoxReady (tDo .fe (tSwr 1 1) (tSb { SBEntry.reset with valid := true })) 0 tPair 1 1
        (tensorOf ((tDo .fe (tSwr 1 1) (tSb { SBEntry.reset with valid := true })).lcnt 0)
          ((tDo .fe (tSwr 1 1) (tSb { SBEntry.reset with valid := true })).descImg 0 1))
        (mapRecs ((tDo .fe (tSwr 1 1) (tSb { SBEntry.reset with valid := true })).mapBytes 0 1))
        (tDo .fe (tSwr 1 1) (tSb { SBEntry.reset with valid := true })) ∧
      tWindow (tSwr 6 1) = some 0 := by
  have h8 := boxReady_of (s := tDo .fe (tSwr 1 1) (tSb { SBEntry.reset with valid := true })) (j := tPair) (td := 1) (m := 1)
    (by decide +kernel)
  refine ⟨?_, ?_, ?_, ?_, ?_, ?_, ?_, h8, ?_⟩
  all_goals first | decide +kernel | exact issues_of (by decide +kernel)

theorem witness_WorkCountersServeAndTrack :
    Issues (tDo .fe (tIns 0x18 0) tCore) 0 .fe (tIns 0x18 0) ∧ ((tDo .fe (tIns 0x18 0) tCore).cluster 0).counterAt 5 0 = some 0 ∧
      ((tDo .fe (tIns 0x18 0) tCore).cluster 0).counters[0]? = some { WorkCnt.reset with job := 5, limit := 2 } ∧
      (((tDo .fe 0 (tSb { SBEntry.reset with pend := .served [1] })).core 0).sbAt 0).pend = .served [1] ∧
      ((tDo .fe 0 { tCore with tickets := [⟨0, 1, 0⟩] }).core 0).tickets = [⟨0, 1, 0⟩] ∧
      (tDo .fe 0 { tCore with tickets := [⟨0, 1, 0⟩] }).coreJob 0 = some tPair := by
  and_intros <;> first | decide +kernel | exact issues_of (by decide +kernel)

/-- ST of descriptor 1 by map 0 from result slot 0. -/
def tSt : Nat := tIns 0x13 (2 ^ 34)
def tStC : Core := { tCore with tq3 := [0], busy := [(3, 0)] }
def tOut : Core := { tStC with spad := [(24576, 7)] }

theorem witness_StoresWriteTheirBox :
    Issues (tDo .fe tSt tStC) 0 .fe tSt ∧ (tDo .fe tSt tStC).coreJob 0 = some tPair ∧ isOp 0x13 tSt = true ∧
      ((tDo .fe tSt tStC).core 0).tq3 = [0] ∧ ((tDo .fe tSt tCore).core 0).tq3 = [] ∧
      StoreReads (tDo .fe tSt tStC) 0 tSt tPair (tensorOf ((tDo .fe tSt tStC).lcnt 0) ((tDo .fe tSt tStC).descImg 0 1))
        (mapRecs ((tDo .fe tSt tStC).mapBytes 0 0)) none (tDo .fe tSt tStC) ∧
      (∀ r ∈ tCells (tDo .fe tSt tStC) tPair 1 0 true, Cell.bad ∉ r) ∧
      ((tDo .fe tSt tStC).core 0).spadChk ((tDo .fe tSt tStC).slotAt 0 3 0) 64 = .ok ∧
      covered (storedBytes (tensorOf [] ((tDo .fe tSt tStC).descImg 0 1)) (storedElems (tensorOf [] ((tDo .fe tSt tStC).descImg 0 1)) [16]
        (tCells (tDo .fe tSt tStC) tPair 1 0 true) [])) ((dramBase + 0x1000000) / 1024) = false ∧
      (tensorOf ((tDo .fe tSt tStC).lcnt 0) ((tDo .fe tSt tStC).descImg 0 1)).region ≠ 2 ∧
      (tensorOf ((tDo .fe tSt tStC).lcnt 0) ((tDo .fe tSt tStC).descImg 0 3)).region = 2 := by
  have h6 := storeReads_of (s := tDo .fe tSt tStC) (w := tSt) (j := tPair) (by decide +kernel)
  refine ⟨?_, ?_, ?_, ?_, ?_, h6, ?_, ?_, ?_, ?_, ?_⟩
  all_goals first | decide +kernel | exact issues_of (by decide +kernel)

/-- SCATTER to the same box with an index tensor in the scratchpad. -/
def tScatter : Nat := tIns 0x14 (2 ^ 34 + 3 * 2 ^ 14)

theorem witness_StoresWriteTheirBox_scatter :
    Issues (tDo .fe tScatter tStC) 0 .fe tScatter ∧ ((tDo .fe tScatter tStC).core 0).tq3 = [0] ∧
      ∃ t rs ix, StoreReads (tDo .fe tScatter tStC) 0 tScatter tPair t rs (some ix) (tDo .fe tScatter tStC) := by
  obtain ⟨ix, h⟩ := idxReads_of (s := tDo .fe tScatter tStC) (w := tScatter) (j := tPair)
    (t := tensorOf ((tDo .fe tScatter tStC).lcnt 0) ((tDo .fe tScatter tStC).descImg 0 1))
    (origin := (tDo .fe tScatter tStC).feOrigin 0 tPair (mapRecs ((tDo .fe tScatter tStC).mapBytes 0 0)))
    (ext := (mapRecs ((tDo .fe tScatter tStC).mapBytes 0 0)).map (·.ext)) _ _ rfl rfl (by decide +kernel)
  exact ⟨issues_of (by decide +kernel), by decide +kernel, _, _, ix, _,
    boxReady_of (j := tPair) (td := 1) (m := 0) (by decide +kernel), h⟩

/-- A transfer of one line waits for its response. -/
def tXf : Transfer := { tXfer (tDo .fe tLd tCore) tPair 1 0 with lines := [(0, dramBase + 0x1000000)] }
def tResp : State := tProg tPair { tCore with tq0 := [⟨0, false, false, none⟩], xfers := [tXf] } tCore
/-- Core 0 wants line 0 of its execute stream. -/
def tWant : State := tProg tPair tCore tCore

theorem witness_ResponsesCompleteWhatTheyAnswer :
    (tResp.core 0).mode = .running ∧ tResp.coreJob 0 = some tPair ∧
      ((tResp.core 0).inFlight.filter (fun e => e.1.q == (0 : Fin 3).val))[0]? = some (tXf, 0, dramBase + 0x1000000) ∧
      tXf.group = none ∧ (tResp.passKeys 0 [dramBase + 0x1000000]).isSome = true ∧
      isSpadKey (dramBase + 0x1000000) = false ∧ LineClean tResp 0 (dramBase + 0x1000000) ∧
      tResp.keyTagOk (dramBase + 0x1000000) = true ∧
      tWant.icWant 0 0 .xe = some 0 ∧ isDramKey (tWant.slotAddr 0 + tWant.secOff 0 3) = true ∧
      tWant.memCheck 0 (lineOf (tWant.slotAddr 0 + tWant.secOff 0 3)) 64 false = none ∧
      tWant.linesClean (lineOf (tWant.slotAddr 0 + tWant.secOff 0 3)) 64 = true ∧
      (tWant.passKeys 0 [tWant.icAddr 0 false 0]).isSome = true := by
  have h5 : LineClean tResp 0 (dramBase + 0x1000000) := by
      have h1 : isSpadKey (dramBase + 0x1000000) = false := by decide +kernel
      have h2 : isDramKey (dramBase + 0x1000000) = true := by decide +kernel
      rw [LineClean, h1, h2]
      exact ⟨by decide +kernel, by decide +kernel⟩
  refine ⟨?_, ?_, ?_, ?_, ?_, ?_, h5, ?_, ?_, ?_, ?_, ?_, ?_⟩
  all_goals decide +kernel

/-- MM of 32 x 32 x 32 from slots 0 of rings 0 and 1, whose headers name rows of format 2. -/
def tMm : Nat := tIns 0x20 (2 ^ 47 + 2 ^ 16)
def tCv : Nat := tIns 0x21 (2 ^ 47 + 2 ^ 16)
def tHdr (a : Nat) : SMap Byte := [(a, 2), (a + 4, 32), (a + 6, 32)]
def tMmC : Core := { tCore with tq0 := [⟨0, true, false, none⟩], tq1 := [⟨0, true, false, none⟩], spad := tHdr 0 ++ tHdr 8192 }
def tSet : ArrSet :=
  ⟨0, false, 8, 8, 32, List.replicate 64 0, false, false, List.replicate 8 0, List.replicate 8 0, 0, false, true, false,
    List.replicate 8 0, 0, 0⟩

theorem witness_ProductsFormAndDrain :
    Issues (tDo .xe tMm tMmC) 0 .xe tMm ∧ isOp 0x20 tMm = true ∧ (tDo .xe tMm tMmC).coreJob 0 = some tPair ∧
      ((tDo .xe tMm tMmC).core 0).sets.length < 4 ∧
      ((tDo .xe tMm tMmC).core 0).osTile 0 = false ∧ bits tMm 44 41 < (tDo .xe tMm tMmC).accTiles 0 ∧
      (((tDo .xe tMm tMmC).core 0).tq 0).head? = some ⟨0, true, false, none⟩ ∧
      OperandsFit false false (slotHdr (tMmC.spadBytes 0 64)) (slotHdr (tMmC.spadBytes 8192 64)) (convEntry []) 32 32 32 ∧
      ((tDo .xe tMm tCore).core 0).tq 0 = [] ∧ Issues (tDo .xe tCv tMmC) 0 .xe tCv ∧
      ((tProg tPair { tCore with sets := [tSet] } tCore).core 0).sets = [tSet] ∧
      failing 0 8 8 true tSet.vals tSet.rowChk tSet.colChk 0 = ([], [], false) ∧
      (tProg tPair { tCore with sets := [tSet] } tCore).gatedAt 0 = false := by
  have h6 : OperandsFit false false (slotHdr (tMmC.spadBytes 0 64)) (slotHdr (tMmC.spadBytes 8192 64)) (convEntry []) 32 32 32 := by unfold OperandsFit; decide +kernel
  and_intros <;> first | assumption | decide +kernel | exact issues_of (by decide +kernel)

/-- OS of tile 0 with the parameter block in slot 0 of ring 0. -/
def tOs : Nat := tIns 0x22 (2 ^ 20)
def tOsC : Core :=
  { tCore with tq0 := [⟨0, true, true, none⟩], tiles := { Tile.reset with valid := false } :: List.replicate 15 Tile.reset }

theorem witness_OutputStageWritesTheResultSlot :
    Issues (tDo .xe tOs tOsC) 0 .xe tOs ∧ (tDo .xe tOs tOsC).coreJob 0 = some tPair ∧ isOp 0x22 tOs = true ∧
      bits tOs 52 49 < (tDo .xe tOs tOsC).accTiles 0 ∧ ((tDo .xe tOs tOsC).core 0).tileBusy 0 = false ∧
      ((tDo .xe tOs tOsC).core 0).osq = [] ∧ osClaims tOs = true ∧
      ((tDo .xe tOs tOsC).core 0).slotBusy 3 (((tDo .xe tOs tOsC).core 0).nextOf 3) = false ∧
      (((tDo .xe tOs tOsC).core 0).tq 0).head? = some ⟨0, true, true, none⟩ ∧
      ((tDo .xe tOs tOsC).core 0).spadChk ((tDo .xe tOs tOsC).slotAt 0 0 0) 512 = .ok ∧
      (paramOf (tOsC.spadBytes 0 512)).zp = false ∧ (paramOf (tOsC.spadBytes 0 512)).retry = false ∧ bit tOs 39 = false ∧
      TileReads ((tDo .xe tOs tOsC).core 0) 0 ∧ bits (paramOf (tOsC.spadBytes 0 512)).ctl 1 0 = 0 ∧
      (tDo .xe tOs tOsC).vaTo tPair (paramOf (tOsC.spadBytes 0 512)).stats 16 true = some (dramBase + 0x1000000) := by
  have h11 : TileReads ((tDo .xe tOs tOsC).core 0) 0 := Or.inr (Or.inl (by decide +kernel))
  and_intros <;> first | assumption | decide +kernel | exact issues_of (by decide +kernel)

/-- VADD of INT32 lanes, with VB and with a short-buffer word as the shared operand. -/
def tVop : Nat := tIns 0x23 (2 ^ 45 + 3 * 2 ^ 40 + 2 ^ 35 + 2 * 2 ^ 30 + 2 ^ 17)

theorem witness_VectorOperations :
    Issues (tDo .xe tVop tCore) 0 .xe tVop ∧ isOp 0x23 tVop = true ∧ bits tVop 52 45 = 1 ∧ bits tVop 18 17 = 1 ∧
      bit tVop 16 = false ∧ Shared ((tDo .xe tVop tCore).core 0) tVop (((tDo .xe tVop tCore).core 0).vrAt 2) ∧
      Shared (tSb { SBEntry.reset with valid := true }) (tVop + 2 * 2 ^ 28) (List.replicate 32 0) ∧
      ((tDo .xe tVop tCore).core 0).vr.length = 32 ∧ (∀ v ∈ ((tDo .xe tVop tCore).core 0).vr, v.length = 32) := by
  have h5 : Shared ((tDo .xe tVop tCore).core 0) tVop (((tDo .xe tVop tCore).core 0).vrAt 2) := by
      have h : bits tVop 29 28 = 0 := by decide +kernel
      rw [Shared, h]
      exact congrArg _ (by decide +kernel)
  have h6 : Shared (tSb { SBEntry.reset with valid := true }) (tVop + 2 * 2 ^ 28) (List.replicate 32 0) := by
      have h : bits (tVop + 2 * 2 ^ 28) 29 28 = 2 := by decide +kernel
      rw [Shared, h]
      exact ⟨by decide +kernel, by decide +kernel, by decide +kernel⟩
  and_intros <;> first | assumption | decide +kernel | exact issues_of (by decide +kernel)

theorem witness_VectorLoadsStoresAndRows :
    Issues (tDo .xe (tIns 0x24 0) tOsC) 0 .xe (tIns 0x24 0) ∧ (((tDo .xe (tIns 0x24 0) tOsC).core 0).tq 0).head? = some ⟨0, true, true, none⟩ ∧
      ((tDo .xe (tIns 0x24 0) tOsC).core 0).spadChk ((tDo .xe (tIns 0x24 0) tOsC).slotAt 0 0 0 + 64) 1036 = .ok ∧
      Issues (tDo .xe (tIns 0x28 0) tOsC) 0 .xe (tIns 0x28 0) ∧ Issues (tDo .xe (tIns 0x25 (2 ^ 21)) tCore) 0 .xe (tIns 0x25 (2 ^ 21)) ∧
      bit (tIns 0x25 (2 ^ 21)) 21 = true ∧
      ((tDo .xe (tIns 0x25 (2 ^ 21)) tCore).core 0).slotBusy 3 (((tDo .xe (tIns 0x25 (2 ^ 21)) tCore).core 0).nextOf 3) = false ∧
      (((tDo .xe 0 tCore).core 0).vrAt 0).length = 32 ∧
      Issues (tDo .xe (tIns 0x26 (2 ^ 52)) tCore) 0 .xe (tIns 0x26 (2 ^ 52)) ∧ Issues (tDo .xe (tIns 0x26 0) tCore) 0 .xe (tIns 0x26 0) ∧
      bits (tIns 0x26 0) 51 48 < (tDo .xe 0 tCore).accTiles 0 ∧ ((tDo .xe 0 tCore).core 0).tileBusy 0 = false ∧
      0 < ((tDo .xe 0 tCore).core 0).tiles.length ∧ ((tDo .xe 0 tCore).core 0).osTile 0 = false ∧ ((tDo .xe 0 tCore).core 0).osq = [] ∧
      ((tDo .xe 0 tCore).core 0).curSlot = none ∧ ((tDo .xe 0 tCore).core 0).vr.length = 32 ∧ TileReads ((tDo .xe 0 tOsC).core 0) 0 := by
  have h13 : TileReads ((tDo .xe 0 tOsC).core 0) 0 := Or.inr (Or.inl (by decide +kernel))
  and_intros <;> first | assumption | decide +kernel | exact issues_of (by decide +kernel)

/-- SUPD of one record for scale descriptor 2, which is mutable, so that its working copy stands in the job's area. -/
def tSupd : Nat := tIns 0x27 (2 * 2 ^ 34 + 2 ^ 24)
def tMut : State :=
  let s := tDo .xe tSupd tOsC
  { s with
    dram := mapPut s.dram (dramBase + 0x100000 + 1408) 10
    jobs := [{ tPair with parts := [4096, 20480, 20480, 8192, 0, 0, 4096, 4096, 0, 4096] }] }

theorem witness_ScaleUpdateRewritesTheDescriptor :
    Issues tMut 0 .xe tSupd ∧ tMut.coreJob 0 = tMut.jobs.head? ∧ isOp 0x27 tSupd = true ∧
      ((tMut.core 0).tq 0).head? = some ⟨0, true, true, none⟩ ∧
      (tMut.core 0).spadChk (tMut.slotAt 0 0 0 + 64) 16 = .ok ∧
      (∀ j ∈ tMut.jobs.head?, tMut.descAddr j 2 = dramBase + 0x200D000) ∧ isDramKey (dramBase + 0x200D000) = true ∧
      tMut.memCheck 0 (lineOf (dramBase + 0x200D000)) 64 false = none ∧ tMut.linesClean (lineOf (dramBase + 0x200D000)) 64 = true ∧
      tMut.shortBusy 0 = false ∧ (tMut.passKeys 0 [lineOf (dramBase + 0x200D000)]).isSome = true := by
  and_intros <;> first | decide +kernel | exact issues_of (by decide +kernel)


/-- The state after reset with one record for cluster 0, in each of the moods a clock command acts on. -/
def tClu (c : Cluster) : State := { State.reset with clusters := State.reset.clusters.set 0 c }

theorem witness_ClocksAndTheGaffer :
    ((tClu { Cluster.reset with change := some ⟨3, false⟩ }).cluster 0).change = some ⟨3, false⟩ ∧
      ((tClu { Cluster.reset with change := some ⟨3, true⟩, op := 3, target := 3 }).cluster 0).change = some ⟨3, true⟩ ∧
      ((tClu { Cluster.reset with change := some ⟨3, true⟩, op := 3, target := 3 }).cluster 0).target = 3 ∧
      ((tClu { Cluster.reset with change := some ⟨3, true⟩, op := 3, target := 5 }).cluster 0).op = 3 ∧
      (State.reset.cluster 0).stretched = false ∧ ((tClu { Cluster.reset with stretched := true }).cluster 0).stretched = true ∧
      State.reset.power.prochotEnd = false ∧
      ({ State.reset with power := { Power.reset with prochotEnd := true, prochot := true } } : State).power.prochotEnd = true ∧
      ({ State.reset with power := { Power.reset with capPending := [(31, 7, 0, 20000)] } } : State).power.capPending =
        [] ++ [(31, 7, 0, 20000)] ∧
      State.reset.fixed = false ∧ State.reset.power.gains.length = 11 ∧ State.reset.power.failReads.length = 11 ∧
      State.reset.power.estSum.length = 11 ∧ State.reset.noRegulator 10 = true ∧ State.reset.noRegulator 0 = false ∧
      ([some 900] : List (Option Nat)).getD 0 none = some 900 ∧
      ({ State.reset with power := { Power.reset with estSum := Power.reset.estSum.set 0 (3600, 4) } } : State).power.estSum.getD 0 (0, 0) =
        (3600, 4) := by
  and_intros <;> decide +kernel

theorem witness_SupplyAndTemperature :
    bit (State.reset.rn pgSupply (0x100 + 4 * 15)) 16 = true ∧
      bit ((tRegs [(0x104, 0x20), (rkey pgSupply 0x13C, 0)] []).rn pgSupply (0x100 + 4 * 15)) 16 = false ∧
      State.reset.fixed = false ∧ (tRegs [(0x104, 0x20), (rkey pgGaffer 0x100, 1)] []).fixed = true ∧
      (List.replicate 48 (440 : BitVec 10)).length = 48 ∧
      (440 : Int) ≤ sext 10 ((List.replicate 48 (440 : BitVec 10)).getD 47 0).toNat ∧
      ({ State.reset with power := { Power.reset with hot100 := [3, 47] } } : State).power.hot100 = [3, 47] := by
  and_intros <;> decide +kernel

/-- A running device with a session 1 whose frames come through port 0. -/
def tSess : Session :=
  { Session.reset 1 with isOpen := true, role := .operator, gen := 5, port := some 0, mac := 0x1234, ip := 7, udp := 9000 }
def tUp : State :=
  { State.reset with
    power := { Power.reset with chipReset := false, twice := [47] }
    sec := { Sec.reset with sessions := Sec.reset.sessions.set 1 tSess } }
/-- A header of type t for session 1, and a frame of its binding that carries it. -/
def tHd (t : Byte) (count len : BitVec 16) (seq : Word) : ReelHdr := ⟨0x474B, 1, t, 1, 5, 3, count, seq, 0, len, 0⟩
def tIp : IpInfo := ⟨false, false, false, false, false, 0, 7, 0, 9000, 0xB964⟩
def tFrm (p : Payload) : Frame := ⟨List.replicate 64 0, 0x1234, false, 0, 0, some tIp, none, false, 0, 0, 0, p⟩
def tStby : State :=
  { tUp with regs := [(0x104, 0x20), (rkey pgGaffer 0x134, 3)], power := { Power.reset with standby := true, chipReset := false } }

theorem witness_ResetsStandbyAndBootEnd :
    State.reset.power.chipReset = true ∧ State.reset.power.thermtrip = false ∧ tUp.power.chipReset = false ∧
      (47 : Fin 48).val ∈ tUp.power.twice ∧ Opens tUp .sec pgSys 0x110 .sys 0 ⟨0x110, 1, 4, .wo, 0, 0xFFFFFFFF⟩ ∧
      Opens tUp .sec pgGaffer 0x130 .gaffer 0 ⟨0x130, 1, 4, .wo, 0, 0xFFFFFFFF⟩ ∧ tUp.jobs = [] ∧
      ({ tUp with jobs := [tJob] } : State).jobs ≠ [] ∧ tStby.power.standby = true ∧ bit (tStby.rn pgGaffer 0x134) 1 = true ∧
      bit (tStby.rn pgGaffer 0x134) 0 = true ∧
      (tStby.boundTo 0 (tStby.received 0 (tFrm (.reel (tHd 0x18 0 0 0) []))) (tHd 0x18 0 0 0)).isSome = true ∧
      Opens (tRegs [(8, 2), (0x104, 0x20)] []) .sec pgSys 0x400 .sys 0 ⟨0x400, 1, 4, .rw, 0, 1⟩ ∧
      Opens tUp .sec pgSec 0x104 .sec 0 ⟨0x104, 1, 4, .wo, 0, 0xFFFFFFFF⟩ := by
  and_intros <;> first | decide +kernel | exact opens_of (by decide +kernel)

/-- Axis 0 counts quadrature, axis 1 every edge of A, axis 2 is read by SSI and axis 3 sampled by software; every edge is
recorded; cue 0 is armed on a PHA edge of axis 0. -/
def tAxes : State :=
  { tRegs [(0x104, 0x20), (rkey pgTk 0x110, 0x4FFFFFF), (rkey (pgAx 0) 0x100, 1), (rkey (pgAx 0) 0x104, 1),
      (rkey (pgAx 1) 0x100, 3), (rkey (pgAx 1) 0x104, 1), (rkey (pgAx 2) 0x100, 0x20C004), (rkey (pgAx 3) 0x100, 7),
      (rkey pgCue 0x800, 0x80005)] [] with
    axes := State.reset.axes.set 1 { Axis.reset with lastT := some 100, count := 2, meas := some (7, 100) } }

theorem witness_EdgesCountAndAreRecorded :
    tAxes.axGlitch 0 = 0 ∧ tAxes.axSource 0 = 1 ∧ (tAxes.axis 0).undo = none ∧ tAxes.axSource 1 = 3 ∧
      -2 ^ 63 ≤ (tAxes.axis 0).pos + tAxes.axInc 0 ∧ (tAxes.axis 0).pos + tAxes.axInc 0 < 2 ^ 63 ∧
      (bit (tAxes.rn pgTk 0x110) (pinMaskBit (.phaA 0)) && bits (tAxes.rn pgTk 0x110) 26 25 == 2) = true ∧
      bit (State.reset.rn pgTk 0x110) (pinMaskBit (.phaA 0)) = false ∧
      256 ≤ ({ tAxes with evts := List.replicate 256 ⟨0, 0, 0, 0⟩ } : State).evts.length ∧
      tAxes.cueArmed 0 = true ∧ tAxes.cueKind 0 = 2 ∧ bits (tAxes.cueReg 0 0) 17 16 = pinRin (.phaA 0) ∧
      tAxes.cueAxis 0 = pinGrp (.phaA 0) ∧ bits (tAxes.cueReg 0 0) 19 18 = 2 ∧ (tAxes.cue 0).fireAt = none ∧
      Opens State.reset .sec pgTk 0x130 .tk 0 ⟨0x130, 1, 4, .wo, 0, 0xFFFFFFFF⟩ := by
  and_intros <;> first | decide +kernel | exact opens_of (by decide +kernel)

theorem witness_MeasurementsMoveTheFilter :
    tAxes.axSource 2 = 4 ∧ bits (tAxes.rn (pgAx 2) 0x158) 15 8 < 255 ∧ bit (tAxes.rn (pgAx 2) 0x100) 21 = true ∧
      Opens tAxes .sec (pgAx 3) 0x808 .axis 3 ⟨0x808, 1, 4, .wo, 0, 0xFFFFFFFF⟩ ∧ tAxes.axSource 3 = 7 ∧
      (tAxes.axis 3).lastT = none ∧ tAxes.axSource 1 ≠ 0 ∧ (tAxes.axis 1).held = [] ∧ (tAxes.axis 1).meas = some (7, 100) ∧
      2 ≤ (tAxes.axis 1).count ∧ (100 : Int) - (tAxes.axis 1).tk ≠ 0 ∧ tAxes.axSource 0 ≠ 0 ∧
      ({ tAxes with axes := State.reset.axes.set 1 { Axis.reset with count := 2 } } : State).axSource 1 ≠ 0 ∧
      (({ tAxes with axes := State.reset.axes.set 1 { Axis.reset with count := 2 } } : State).axis 1).count ≠ 0 ∧
      (({ tAxes with axes := State.reset.axes.set 1 { Axis.reset with count := 2 } } : State).axis 1).meas = none := by
  and_intros <;> first | decide +kernel | exact opens_of (by decide +kernel)

/-- Cue 0 fires at 1000: on pin 3 as a pulse, with an interrupt and an event, on flow 2 (a stream of port 1), releasing the
armed job 5. -/
def tFire (ctl : Nat) : State :=
  { tRegs [(0x104, 0x20), (rkey pgPin 0x10C, 1), (rkey pgPin 0x144, 5), (rkey pgCue 0x800, w32 ctl),
      (rkey pgCue 0x810, w32 (3 + 2 * 16 + 2 * 64 + 100 * 2 ^ 17))] [] with
    winTab := [(winKey pgFlows 128 2 0, 1), (winKey pgFlows 128 2 1, 1), (winKey pgFlows 128 2 88, 9)]
    cues := State.reset.cues.set 0 { Cue.reset with fireAt := some 1000000 }
    jobs := [{ tJob with st := .armed, cur := some { tRun with armed := true } }] }

theorem witness_CuesFireAtTheirMoment :
    ((tFire 1).cue 0).fireAt = some 1000000 ∧ ((tFire 1).cue 0).handed = false ∧ ((tFire 1).cue 0).later = [] ∧ (tFire 0x401).cueRemote 0 = true ∧
      ((tFire 0x401).cue 0).remoteSent = false ∧ (tFire 0x401).cueArmed 0 = true ∧ (tFire 0x401).flowType ((tFire 0x401).cueFlow 0) ≠ 0 ∧
      (tFire 0x401).flowNat ((tFire 0x401).cueFlow 0) 88 2 ≠ 0 ∧
      max ((tFire 0x401).time : Int) (32 * 1000000 - 256000 * ((tFire 0x401).rn pgCue 0x110 : Nat)) < 32 * 1000000 ∧
      bit ((tFire 0x201).rn pgPin (0x100 + 4 * 3)) 0 = true ∧ ((tFire 0x201).pin 3).lastAt ≠ some 1000000 ∧
      ((tFire 0x201).pin 3).lastEdge = none ∧ bits ((tFire 0x201).cueReg 0 0x10) 3 0 = 3 ∧ bits ((tFire 0x201).cueReg 0 0x10) 5 4 = 2 ∧
      bit ((tFire 0x3801).cueReg 0 0) 12 = true ∧ bit ((tFire 0x3801).cueReg 0 0) 13 = true ∧ (tFire 0x3801).evts.length < 256 ∧
      bit ((tFire 0x3801).cueReg 0 0) 11 = true ∧ (tFire 0x3801).jobs.map (fun j => (j.st, j.cancel, j.cur.map (·.cue))) = [(.armed, none, some 0)] ∧
      ({ State.reset with pins := State.reset.pins.set 3 { Pin.reset with pulse := some 50 } } : State).pins[3].pulse = some 50 ∧
      bit ((tFire 1).rn pgPin 0x144) 0 = true ∧ ({ tFire 1 with ppsHigh := true } : State).ppsHigh = true := by
  and_intros <;> decide +kernel

/-- Network time from software, in state st, unlocked or locked, with the servo given. -/
def tNt (st : Nat) (v : Servo) : State :=
  { tRegs [(0x104, 0x20), (rkey pgNte 0x100, 1), (rkey pgNte 0x10C, w32 st), (rkey pgNte 0x400, 10), (rkey pgNte 0x404, 1)] [] with
    servo := v }

theorem witness_TheServoLocksAndHolds :
    Opens (tRegs [(rkey pgSys 0x104, 0x20), (rkey pgNte 8, 3), (rkey pgNte 0x100, 1)] []) .sec pgNte 0x410 .nte 0
        ⟨0x410, 1, 4, .wo, 0, 0xFFFFFFFF⟩ ∧
      (tNt 1 Servo.reset).ntSource = 1 ∧ (tNt 1 Servo.reset).ntBit 9 = false ∧ (tNt 0x202 Servo.reset).ntBit 9 = true ∧
      (tNt 0x202 Servo.reset).ntState ≠ 4 ∧ (tNt 0x202 { Servo.reset with tPrev := some 5 }).servo.tPrev = some 5 ∧
      (tNt 0x204 Servo.reset).ntState = 4 ∧ (tNt 0x204 Servo.reset).ntBit 10 = false ∧ (tNt 0x604 Servo.reset).ntBit 10 = true ∧
      State.reset.ntState ≠ 2 ∧ (tNt 0x202 Servo.reset).ntState = 2 ∧
      Opens State.reset .sec pgNte 0x11C .nte 0 ⟨0x11C, 1, 4, .wo, 0, 0xFFFFFFFF⟩ := by
  and_intros <;> first | decide +kernel | exact opens_of (by decide +kernel)

/-- DRAM open with segment 0 initialised, some registers and some requests waiting. -/
def tMem (regs : SMap Word) (q : List Queued) : State :=
  { tRegs ((0x104, 0x20) :: (0x400, 1) :: regs) [] with segInit := (List.range 8).map (segKey · 0), queue := q }
/-- A read and a write of four bytes of DRAM by the APU's port. -/
def tRd : MemReq := ⟨20, BitVec.ofNat 40 dramBase, false, false, false, false, false, [0, 0, 0, 0], 0⟩
def tWr (poisoned : Bool) : MemReq := ⟨20, BitVec.ofNat 40 dramBase, true, false, false, poisoned, false, [1, 2, 3, 4], 0⟩

/-- A waiting request of channel 0, and a meter of port 0 that lacks a credit. -/
def tQ (r : MemReq) : Queued := ⟨r, chanOf State.reset.fuse.grade dramBase, 0, none⟩
def tMetered : MemReq := { tRd with port := 0, metered := true }
def tSpent : State :=
  let g := State.reset.fuse.grade
  { tMem [] [] with meters := [(0, ⟨[], [(bankKey (chanOf g dramBase) (bankOf g dramBase), ⟨0, 0, 0⟩)]⟩)] }
/-- A read of SEC SRAM by SEC, and one of the register range. -/
def tSecRd : MemReq := { tRd with port := 22, addr := 0x10000000 }
def tPageRd : MemReq := { tRd with addr := BitVec.ofNat 40 pageBase }

theorem witness_MemoryServesItsRequests :
    (tMem [] []).portAbsent 20 = false ∧ inPages tRd.addr.toNat = false ∧
      (reqSpan tRd).1 = dramBase ∧ (tMem [] []).memCheck 20 (reqSpan tRd).1 (reqSpan tRd).2 false = none ∧
      (tMem [] []).meterOk tRd = true ∧ (tMem [] []).meterOk tMetered = true ∧ tSpent.meterOk tMetered = false ∧
      mapGet? ({ tMem [] [] with l2 := [(dramBase, ⟨List.replicate 64 7, true⟩)] } : State).l2 (lineOf (tWr false).addr.toNat) =
        some ⟨List.replicate 64 7, true⟩ ∧ (tWr false).port.val = 20 ∧
      (∃ x, State.reset.memCheck 20 (reqSpan tRd).1 (reqSpan tRd).2 false = some x ∧ x ≠ .locked) ∧
      tSmall.portAbsent 11 = true ∧ inPages tPageRd.addr.toNat = true ∧ mayReachPages (reqWho tPageRd) = true ∧
      secOnly tSecRd.addr.toNat = true ∧ tSecRd.port.val = 22 ∧
      (tMem [] []).meterDue 0 = none ∧ (tSpent.meterDue 0).isSome = true ∧ ((tSpent.meter 0).bank.map (·.1)).Nodup ∧
      (tMem [] []).waitingOn 0 false = [] ∧ (tMem [] [tQ tRd]).waitingOn (tQ tRd).ch false ≠ [] ∧ (tQ tRd).ch < 64 ∧
      (tMem [] [tQ tRd]).lineBad (lineOf tRd.addr.toNat) = false ∧ lineOf tRd.addr.toNat ∉ (tMem [] []).poison ∧
      lineOf tRd.addr.toNat ∈ ({ tMem [] [tQ tRd] with poison := [dramBase] } : State).poison ∧
      (tMem [] [tQ (tWr true)]).waitingOn (tQ tRd).ch true ≠ [] ∧
      (tMem [] [tQ (tWr true)]).memCheck 20 (tWr true).addr.toNat 4 true = none ∧ (tQ (tWr false)).nibs = [] ∧
      (tMem [] [tQ (tWr false)]).firstServed 1 ((tMem [] [tQ (tWr false)]).queue.filter (fun q => q.ch == (tQ tRd).ch)) =
        [tQ (tWr false)] := by
  have h10 : (∃ x, State.reset.memCheck 20 (reqSpan tRd).1 (reqSpan tRd).2 false = some x ∧ x ≠ .locked) := ⟨.closed, by decide +kernel, by decide⟩
  and_intros <;> first | assumption | decide +kernel | rfl

theorem witness_DramIsRefreshedTunedAndFilled :
    (63 : Fin 64).val < (tMem [] []).fuse.grade.channels ∧ tSmall.fuse.grade.channels ≤ (63 : Fin 64).val ∧
      (tMem [] []).pagePresent (pgMc 7) = true ∧
      bit ((tMem [(rkey (pgMc 7) 0x10, 4)] []).rn (pgMc 7) 0x10) 2 = true ∧
      (tMem [(rkey (pgMc 7) 0x10, 4)] []).armed (pgMc 7) = false ∧ (tMem [(rkey (pgMc 7) 0x10, 4)] []).stagedOf (pgMc 7) = [] ∧
      (tMem [(rkey (pgMc 7) 0x10, 4)] []).mcOwnFails 7 = [] ∧ (tMem [(rkey (pgMc 7) 0x10, 4)] []).lock (pgMc 7) 2 ≠ 3 ∧
      (tMem [(rkey (pgMc 7) 0xC, 8), (rkey (pgMc 7) 0x10, 4)] []).armed (pgMc 7) = true ∧
      Opens (tMem [] []) .sec (pgMc 0) 0x180 .mc 0 ⟨0x180, 1, 4, .wo, 0, 0x8000003F⟩ ∧
      bit (0x8000003F : Word).toNat 31 = true ∧ (0x8000003F : Word).toNat % 64 < (tMem [] []).fuse.grade.segments ∧
      (tMem [] []).segInUse 63 = false ∧
      ({ tMem [] [] with jobs := [tJob] } : State).segInUse 0 = true ∧
      segKey 0 63 ∈ ({ tMem [] [] with fills := [segKey 0 63] } : State).fills ∧ segKey 0 63 ∉ (tMem [] []).fills := by
  and_intros <;> first | decide +kernel | exact opens_of (by decide +kernel)

/-- Port 0 up, with a descriptor ring of two entries for the APU and session 1 open behind it. -/
def tPort (x : Port) : State :=
  { tMem [(rkey (pgPort 0) 8, 1), (rkey (pgPort 0) 0x160, w32 (dramBase / 4096)), (rkey (pgPort 0) 0x164, 0x80000001),
      (rkey (pgPort 0) 0x16C, 1), (rkey (pgPort 0) 0x170, w32 (dramBase / 4096 + 1))] [] with
    ports := State.reset.ports.set 0 x
    reels := State.reset.reels.set 3 { Reel.reset with attached := some 1, unacked := [(1, 0, 1, 1)], chead := 1, ackOwed := true }
    sec := { Sec.reset with sessions := Sec.reset.sessions.set 1 tSess } }
def tUpPort : Port := { Port.reset with link := true }
/-- A command-class frame (PCP 7), a media frame, and one of the media flow 2. -/
def tOther : Frame := { tFrm (.other []) with tagged := true, pcp := 7 }
def tMedia : Frame := tFrm (.avtp 7 9 0 0 true [] [1, 2, 3])
def tTx : TxFrame := ⟨7, some 0, .other [], 64, none, 0, 0, 0, none, none⟩

theorem witness_PortsReceiveAndSendFrames :
    (tPort Port.reset).enabled (pgPort 0) = true ∧ ((tPort Port.reset).port 0).link = false ∧
      ((tPort tUpPort).port 0).link = true ∧ (tPort tUpPort).cmdClass tOther = true ∧ (tPort tUpPort).cmdClass tMedia = false ∧
      (tPort tUpPort).verified 0 tMedia = false ∧ (tPort tUpPort).replayed 0 tMedia = false ∧ frameLen tMedia ≤ 9216 ∧ bit ((tPort tUpPort).rn (pgPort 0) 0x100) 2 = false ∧
      bit ((tPort tUpPort).secy 0) 0 = false ∧ bufFill ((tPort tUpPort).port 0).cmdBuf + frameLen tOther ≤ 32768 ∧
      ((tPort { tUpPort with xoff := true }).port 0).xoff = true ∧
      ((tPort { tUpPort with cmdBuf := [tOther] }).port 0).cmdBuf = tOther :: [] ∧ (tPort tUpPort).forApu tOther = true ∧
      ((tPort tUpPort).ringOn 0 0x160 && (tPort tUpPort).rn (pgPort 0) 0x168 % 2 ^ (tPort tUpPort).ringLog 0 0x160 !=
        (tPort tUpPort).rn (pgPort 0) 0x16C % 2 ^ (tPort tUpPort).ringLog 0 0x160) = true ∧
      (tPort tUpPort).memCheck (netPort 0) ((tPort tUpPort).descAt 0 0x160 0) 32 false = none ∧
      (tPort tUpPort).isPoison ((tPort tUpPort).descAt 0 0x160 0) 32 = false ∧
      (tPort { tUpPort with staging := [tMedia] }).flowOf 0 tMedia = none ∧ bit ((tPort tUpPort).rn (pgPort 0) 0x100) 3 = false ∧
      (tPort { tUpPort with egress := [tTx] }).nextTx 0 = some tTx ∧
      ((tPort { tUpPort with egress := [tTx], txSa := some ⟨0, 0, 0xFFFFFFFF⟩ }).port 0).txNext = none ∧
      (tPort tUpPort).memCheck (netPort 0) ((tPort tUpPort).descAt 0 0x170 0) 32 false = none := by
  and_intros <;> decide +kernel

/-- A reel frame of type t for reel 3 at the front of port 0's command buffer; reel 3 is a network reel of 16 entries. -/
def tReelPort (h : ReelHdr) (body : List Byte) (x : Reel) : State :=
  let s := tPort { tUpPort with cmdBuf := [tFrm (.reel h body)] }
  { s with
    regs := [(0x104, 0x20), (0x400, 1), (rkey (pgPort 0) 8, 1), (rkey pgReels 0x130, w32 (dramBase / 4096)), (rkey pgReels 0x134, 0xA4)]
    reels := s.reels.set 3 x }

/-- Whether a frame of session 1's binding with that header stands at the front of port 0's command buffer. -/
def tFront (s : State) (ty : Nat) (h : ReelHdr) (body : List Byte) : Bool :=
  decide ((s.port 0).cmdBuf.head? = some (tFrm (.reel h body))) && s.isReel (tFrm (.reel h body)) && hdrOk h body &&
    decide (h.type.toNat = ty) && decide (s.boundTo 0 (tFrm (.reel h body)) h = some 1) && decide (h.reel.toNat < 32)

theorem sessionFront_of {s : State} {ty : Nat} {h : ReelHdr} {body : List Byte} (e : tFront s ty h body = true) :
    SessionFront s 0 ty h body 1 := by
  simp only [tFront, Bool.and_eq_true, decide_eq_true_eq] at e
  obtain ⟨⟨⟨⟨⟨e1, e2⟩, e3⟩, e4⟩, e5⟩, e6⟩ := e
  exact ⟨⟨_, ⟨e1, rfl, e2, rfl, e3, e4⟩, e5⟩, e6⟩

def tLast : Reel := { Reel.reset with attached := some 1, unacked := [(1, 0, 1, 1)], chead := 1, sent := 1, ackOwed := true }
def tAtt : State := tReelPort (tHd 0x02 0 0 0) [] Reel.reset
def tDet : State := tReelPort (tHd 0x03 0 0 0) [] tLast
def tCmdF : State := tReelPort (tHd 0x10 1 64 1) (tBytes [7]) tLast
def tAck : State := tReelPort { tHd 0x12 0 0 0 with ack := 1 } [] tLast

theorem witness_ReelFramesCarryASession :
    SessionFront tAtt 0 0x02 (tHd 0x02 0 0 0) [] 1 ∧ tAtt.reelSource 3 = 2 ∧ (tAtt.reel 3).attached = none ∧
      roleMeets (tAtt.sessionRole 1) (tAtt.lock pgReels 2) = true ∧ tAtt.reelOn 3 = true ∧
      ({ tAtt with reels := tAtt.reels.set 3 { Reel.reset with lastSession := some (1, 5) } } : State).attachStatus 1 3 true = 0 ∧
      tAtt.attachStatus 1 3 true = 5 ∧ SessionFront tDet 0 0x03 (tHd 0x03 0 0 0) [] 1 ∧
      SessionFront tCmdF 0 0x10 (tHd 0x10 1 64 1) (tBytes [7]) 1 ∧ (tCmdF.reel 3).attached = some 1 ∧
      (tHd 0x10 1 64 1).seq = (tCmdF.reel 3).cmdSeq ∧ (tHd 0x10 1 64 1).count.toNat ≤ tCmdF.reelRoom 3 ∧
      tCmdF.memCheck 19 (tCmdF.reelBase 3) 64 true = none ∧ seqDiff 0 (tCmdF.reel 3).cmdSeq < 0 ∧
      SessionFront tAck 0 0x12 { tHd 0x12 0 0 0 with ack := 1 } [] 1 ∧
      (tAck.reel 3).unacked.filter (fun u => seqDiff u.1 1 ≤ 0) = [] ++ [(1, 0, 1, 1)] ∧
      (tAck.session 1).port = some 0 ∧ (tAck.reel 3).ackOwed = true ∧
      0 < min 8 (ringCount (tAck.reelLog 3) { tLast with sent := 0 }.chead { tLast with sent := 0 }.sent) ∧
      tAck.memCheck (netPort 0) (tAck.reelBase 3 + 64 * 2 ^ tAck.reelLog 3) 64 false = none ∧
      tAck.linesClean (tAck.reelBase 3 + 64 * 2 ^ tAck.reelLog 3) 64 = true ∧ tAck.reelSource 3 = 2 ∧ tCmdF.reelSource 3 = 2 ∧
      1 ≤ tAck.rn pgNet 0x10C ∧ (∀ m, m < 32 → (tAtt.reel m).attached ≠ some 2) := by
  have h0 : SessionFront tAtt 0 0x02 (tHd 0x02 0 0 0) [] 1 := sessionFront_of (by decide +kernel)
  have h7 : SessionFront tDet 0 0x03 (tHd 0x03 0 0 0) [] 1 := sessionFront_of (by decide +kernel)
  have h8 : SessionFront tCmdF 0 0x10 (tHd 0x10 1 64 1) (tBytes [7]) 1 := sessionFront_of (by decide +kernel)
  have h14 : SessionFront tAck 0 0x12 { tHd 0x12 0 0 0 with ack := 1 } [] 1 := sessionFront_of (by decide +kernel)
  and_intros <;> first | assumption | decide +kernel

/-- A frame in front of port 0's staging, for the media flow 2 (IEEE 1722 stream 9). -/
def tFlowAt (x : Flow) (gated : Byte) : State :=
  { tPort { tUpPort with staging := [tMedia] } with
    winTab := [(winKey pgFlows 128 2 0, 3), (winKey pgFlows 128 2 1, 0x40 + gated), (winKey pgFlows 128 2 4, 9)]
    flows := [(2, x)] }
def tFlow0 : Flow := ⟨false, [], 0, 0, none, 0, [], false, false, false, false, 0, 0, 0, 0⟩
/-- A handshake frame in front of port 0's command buffer, and a PHASE frame. -/
def tHs : State := tPort { tUpPort with cmdBuf := [tFrm (.reel (tHd 0x01 0 44 0) (List.replicate 44 0))] }
def tPh : State := tPort { tUpPort with cmdBuf := [tFrm (.reel (tHd 0x21 1 24 0) (List.replicate 24 0))] }

theorem witness_FlowsAndPhasesAreTakenFromFrames :
    tFront tHs 0x01 (tHd 0x01 0 44 0) (List.replicate 44 0) = true ∧ (0 : Nat) < tHs.rn pgCmd 0x104 ∧
      (tFlowAt tFlow0 0).flowOf 0 tMedia = some 2 ∧ (tFlowAt tFlow0 0).flowType 2 ≠ 6 ∧ ipBad tMedia = false ∧
      bit ((tFlowAt tFlow0 0).flowNat 2 1 1) 7 = false ∧ bit ((tFlowAt tFlow0 0x80).flowNat 2 1 1) 7 = true ∧
      pktOf tMedia = some ⟨0, 8, 0, true, [], [1, 2, 3]⟩ ∧ ((tFlowAt tFlow0 0).flow 2).lastSeq = none ∧
      ((tFlowAt { tFlow0 with open_ := true, lastSeq := some 7 } 0).flow 2).open_ = true ∧
      (0 : Nat) ≠ (7 + 1) % 2 ^ 8 ∧ ((tFlowAt { tFlow0 with open_ := true, lastSeq := some 255 } 0).flow 2).skip = false ∧
      partOf 3 { tFlow0 with open_ := true, lastSeq := some 255 } ⟨0, 8, 0, true, [], [1, 2, 3]⟩ = some ([1, 2, 3], false, 0) ∧
      tFront tPh 0x21 (tHd 0x21 1 24 0) (List.replicate 24 0) = true ∧
      tPh.flowOf 0 (tFrm (.reel (tHd 0x21 1 24 0) (List.replicate 24 0))) = none ∧
      ({ tPh with winTab := [(winKey pgFlows 128 2 0, 6), (winKey pgFlows 128 2 1, 0x40), (winKey pgFlows 128 2 12, 7),
          (winKey pgFlows 128 2 46, 0x64), (winKey pgFlows 128 2 47, 0xB9)] } : State).flowOf 0
        (tFrm (.reel (tHd 0x21 1 24 0) (List.replicate 24 0))) = some 2 := by
  and_intros <;> decide +kernel

/-- CSI port 0 receives virtual channel 0 for ISP 0, a two-pixel RAW12 line; output 0 of the ISP writes the picture. -/
def tIsp (x : Isp) : State :=
  { tMem [(rkey (pgIsp 0) 8, 1), (rkey (pgIsp 0) 0x100, 0x12C00), (rkey (pgIsp 0) 0x104, 0x10002),
      (rkey (pgIsp 0) 0x11C, w32 (dramBase / 4096)), (rkey (pgIsp 0) 0x140, 9), (rkey (pgIsp 0) 0x144, 0x10002),
      (rkey (pgIsp 0) 0x148, w32 (dramBase / 4096)), (rkey (pgIsp 0) 0x14C, 1024), (rkey (pgCsi 0) 8, 1),
      (rkey (pgCsi 0) 0x100, 0x10000)] [] with
    csiClk := [0]
    isps := State.reset.isps.set 0 x }
def tIspOn : Isp := { Isp.reset with active := true }

/-- No controller of that state keeps a private range. -/
theorem tIsp_open : (tIsp Isp.reset).memCheck 8 dramBase 29192 false = none := by
  have h2 : ∀ k : Fin 8, (tIsp Isp.reset).rn (pgMc k.val) 0xD84 = 0 := by decide +kernel
  have h3 : (tIsp Isp.reset).inPriv dramBase 29192 = false := by
    simp only [State.inPriv, List.any_eq_false]
    intro l _
    have h4 : mcOf .wq7128 (64 * l) < 8 := by
      have h : bits (64 * l - dramBase) 13 8 ^^^ bits (64 * l - dramBase) 19 14 < 2 ^ 6 :=
        Nat.xor_lt_two_pow (Nat.mod_lt _ (by decide)) (Nat.mod_lt _ (by decide))
      show (bits (64 * l - dramBase) 13 8 ^^^ bits (64 * l - dramBase) 19 14) / 8 < 8
      omega
    have h5 : (tIsp Isp.reset).rn (pgMc (mcOf (tIsp Isp.reset).fuse.grade (64 * l))) 0xD84 = 0 := h2 ⟨_, h4⟩
    simp only [meets, h5, Bool.and_eq_true, decide_eq_true_eq]
    omega
  have h6 : (tIsp Isp.reset).inDram dramBase 29192 = true := by decide +kernel
  have h7 : (tIsp Isp.reset).dramOpen = true := by decide +kernel
  have h8 : (tIsp Isp.reset).segsAny (tIsp Isp.reset).fills dramBase 29192 = false := by decide +kernel
  have h9 : (tIsp Isp.reset).segsAll (tIsp Isp.reset).segInit dramBase 29192 = true := by decide +kernel
  simp only [State.memCheck, h3, h6, h7, h8, h9]
  rfl

theorem linesClean_of {s : State} (p : s.poison = []) (c : s.cellErr = []) (a n : Nat) : s.linesClean a n = true := by
  simp [State.linesClean, p, c, mapGet?]

theorem witness_LinesBecomeFrames :
    (tIsp tIspOn).pagePresent (pgCsi 0) = true ∧ (tIsp tIspOn).enabled (pgCsi 0) = true ∧
      bit ((tIsp tIspOn).rn (pgCsi 0) 0x100) (16 + (0 : BitVec 4).toNat) = true ∧ 0 ∈ (tIsp tIspOn).ispsOfVc 0 0 ∧
      dtShift 0x2C = some 4 ∧ (tIsp tIspOn).ispOf 0 0 0x2C = some 0 ∧ (tIsp tIspOn).enabled (pgIsp 0) = true ∧
      ((tIsp tIspOn).isp 0).active = true ∧ (tIsp tIspOn).lineScan 0 = false ∧ (tIsp tIspOn).lineEarly 0 0 = false ∧ (0 : Nat) < (tIsp tIspOn).ispHeight 0 ∧
      (tIsp tIspOn).ispWidth 0 = 2 ∧ dtShift 0 = none ∧ (0 : Fin 4).val ∈ (tIsp tIspOn).csiClk ∧ (1 : Fin 4).val ∉ (tIsp tIspOn).csiClk ∧
      ((tIsp { Isp.reset with wantParams := true }).isp 0).wantParams = true ∧
      (tIsp Isp.reset).memCheck 8 dramBase 29192 false = none ∧ (tIsp Isp.reset).linesClean dramBase 29192 = true ∧
      ((tIsp { tIspOn with complete := true }).isp 0).complete = true ∧ bit ((tIsp tIspOn).outW 0 0 0) 0 = true ∧
      ((tIsp tIspOn).ispOut 0 0).clmem = none ∧ (tIsp tIspOn).ispExact 0 ((tIsp tIspOn).ispOut 0 0) = true ∧
      (tIsp tIspOn).lineTbl 0 = false ∧ 0 < ((tIsp tIspOn).ispOut 0 0).frameBytes ∧
      ((tIsp tIspOn).ispOut 0 0).width * ((tIsp tIspOn).ispOut 0 0).height * ((tIsp tIspOn).ispOut 0 0).channels = 2 ∧
      (tIsp tIspOn).memCheck ((tIsp tIspOn).ispOut 0 0).port ((tIsp tIspOn).ispOut 0 0).base 4 true = none := by
  have h15 : (tIsp Isp.reset).memCheck 8 dramBase 29192 false = none := tIsp_open
  have h16 : (tIsp Isp.reset).linesClean dramBase 29192 = true := linesClean_of rfl rfl _ _
  and_intros <;> first | with_reducible assumption | decide +kernel

/-- Context 0 of codec unit 0 decodes from a ring at the start of DRAM with one access unit, and context 1 encodes. -/
def tVc (wr : Byte) : State :=
  { tMem [(rkey (pgVc 0) 8, 1)] [] with
    winTab := [(winKey (pgVc 0) 128 0 0, 2), (winKey (pgVc 0) 128 0 12, 8), (winKey (pgVc 0) 128 0 16, 3),
      (winKey (pgVc 0) 128 1 0, 3), (winKey (pgVc 0) 128 1 12, 8)]
    dram := [(dramBase, wr), (dramBase + 1024, 1), (dramBase + 1037, 1)] }
/-- Feed 0 of TRK follows job 5, whose detections are due. -/
def tTrk (head : List Byte) : State :=
  let s := tState [] tJob Core.reset
  { s with
    regs := s.regs ++ [(rkey pgTrk 8, 1), (rkey pgTrk 0x100, w32 (dramBase / 4096 + 0x300)), (rkey pgTrk 0x800, 1),
      (rkey pgTrk 0x804, 5), (rkey pgTrk 0x810, 1)]
    dram := mapPut s.dram (dramBase + 0x100000 + 445) 16 ++ tPut (tJob.areaPart 4) [(0, head)]
    trkDue := [0] }

theorem witness_CodecsAndTracksTakeTheirFrames :
    (tVc 1).pagePresent (pgVc 0) = true ∧ (tVc 1).enabled (pgVc 0) = true ∧
      (∃ x, (tVc 1).vcChoose 0 ((tVc 1).vcIds 0) = some (0, 1, 0, x)) ∧ (tVc 1).vcRing 0 0 = some (dramBase, 3) ∧
      (tVc 1).memCheck (vcPort 0) (auBlock dramBase 3 0) 64 false = none ∧ (tVc 1).isPoison (auBlock dramBase 3 0) 64 = false ∧
      bit (fld ((tVc 1).rawBytes (auBlock dramBase 3 0) 64) 13 1) 0 = true ∧ (tVc 0).vcChoose 0 ((tVc 0).vcIds 0) = none ∧
      (tVc 1).vcMode 0 1 = 3 ∧ (tVc 1).vcNat 0 1 8 8 = dramBase ∧ (tVc 1).memCheck (vcPort 0) dramBase 64 false = none ∧ (tVc 1).linesClean dramBase 64 = true ∧
      fld ((tVc 1).rawBytes dramBase 64) 0 4 = 1 ∧ ((tVc 1).vcCtx 0 1).srcSeq = 0 ∧
      (1 : Fin 16).val ∉ (tTrk []).trkDue ∧ (0 : Fin 16).val ∈ (tTrk [1]).trkDue ∧
      (tTrk [1]).job? (BitVec.ofNat 16 ((tTrk [1]).feedW 0 1)) = some tJob ∧ (tTrk [1]).enabled pgTrk = true ∧
      bit ((tTrk [1]).feedW 0 0) 0 = true ∧ (tTrk [1]).feedW 0 2 + 160 ≤ (tTrk [1]).shTakeBuf 0 ∧
      (tTrk [1]).memCheck 18 (tJob.areaPart 4) 160 false = none ∧ (tTrk [1]).linesClean (tJob.areaPart 4) 160 = true ∧
      (tTrk [1]).tagsOk (tJob.areaPart 4) 160 = true ∧ fld ((tTrk [1]).rawBytes (tJob.areaPart 4) 64) 0 4 = 1 ∧
      1024 < fld ((tTrk [1, 4]).rawBytes (tJob.areaPart 4) 64) 0 4 ∧ (tTrk [1]).partCount 0 = 1 ∧
      (tTrk [1]).memCheck 18 ((tTrk [1]).trkAddr ((tTrk [1]).partBase 0)) 128 true = none ∧
      (trkOf ((tTrk [1]).rawBytes ((tTrk [1]).trkAddr ((tTrk [1]).partBase 0)) 128)).st = 0 ∧ loH ((tTrk [1]).feedW 0 7) = 0 ∧
      (∀ r, r < 16 → bit ((tTrk [1]).ruleW r 0) 0 = false) := by
  have h2 : (∃ x, (tVc 1).vcChoose 0 ((tVc 1).vcIds 0) = some (0, 1, 0, x)) := ⟨_, rfl⟩
  and_intros <;> first | assumption | decide +kernel

/-- Units 0 (a core) and 141, due for their daily, with a signed pack of version 3 in force. -/
def tDaily (h : Health) (c : Core) : State :=
  { tMem [(rkey pgHealth 0x100, 1), (rkey pgHealth 0x118, 0x80000004), (rkey (pgTc 0) 8, 1)] [] with
    health := State.reset.health.set 0 h
    cores := State.reset.cores.set 0 c
    uptime := 2 ^ 60
    sec := { Sec.reset with pack := some (3, 0, []), packBusy := true } }

theorem witness_DailiesAndHealth :
    let s := tDaily Health.reset Core.reset
    let r := tDaily { Health.reset with st := 1, passes := 95, running := true } { Core.reset with mode := .running, daily := true }
    let b := tDaily Health.reset { Core.reset with mode := .running }
    s.unitHere 0 = true ∧ (s.healthOf 0).st ≠ 3 ∧ (s.healthOf 0).running = false ∧ s.sec.pack ≠ none ∧ s.dailyEn = true ∧
      s.dueFrom 0 ≤ s.uptime ∧ s.unitIdle 0 = true ∧ b.unitIdle 0 = false ∧ (r.healthOf 0).running = true ∧ (r.core 0).daily = true ∧
      (r.core 0).mode ≠ .stopped ∧ bit (r.rn pgHealth 0x118) 31 = true ∧
      ringFull (r.rn pgHealth 0x11C) (r.rn pgHealth 0x120) (r.rn pgHealth 0x118 % 16) = false ∧ (b.healthOf 0).overdue = false ∧
      b.dueFrom 0 + b.dailyInt 0 < b.uptime ∧ s.sec.packBusy = true := by
  and_intros <;> decide +kernel

/-- The pack at the start of DRAM, whose memory the management core reads, and a written health state. -/
def tPack : State :=
  { tMem [(rkey pgHealth 0x10C, w32 (dramBase / 4096))] [] with
    dram := [(dramBase + 17, 0x20)], sec := { Sec.reset with packBusy := true } }

theorem witness_DailiesAndHealth_packs :
    tPack.sec.packBusy = true ∧ tPack.memCheck 22 dramBase 64 false = none ∧ tPack.linesClean dramBase 64 = true ∧
      max 64 (min (fld (tPack.rawBytes dramBase 64) 16 4) (tPack.fuse.grade.dramEnd - dramBase)) = 8192 ∧
      tPack.memCheck 22 dramBase 8192 false = none ∧ tPack.linesClean dramBase 8192 = true ∧
      packBad (tPack.rawBytes dramBase 64) 64 = true ∧
      Opens tPack .sec pgHealth (0x800 + 4 * 141) .health 0 ⟨0x800, 142, 4, .rw, 0, 0xFFFF1F⟩ ∧ tPack.unitHere 141 = true := by
  have h5 : tPack.linesClean dramBase 8192 = true := linesClean_of rfl rfl _ _
  and_intros <;> first | with_reducible assumption | decide +kernel | rfl | exact opens_of (by decide +kernel)

/-- One message of a hart waits for the management core, one handshake is under way, and session 1 is a link of port 0. -/
def tMsg (kind : Byte) (n : Nat) : HsMsg := ⟨.hart 2, kind, 9, List.replicate n 0, 0, 0, 0, none⟩
def tHand (status : Nat) (offer : List Byte) (accepted : Bool) : Handshake :=
  ⟨.hart 2, 9, List.replicate 36 0, offer, .operator, 1, false, some 4, 1, 5, status, 0, 0, 0, 0, accepted, false, 0, 0, 0, none⟩
def tMan (box : List HsMsg) (hands : List Handshake) (tx : Option Sa) : State :=
  { tPort { tUpPort with txSa := tx, linkSession := some 1 } with
    sec := { Sec.reset with sessions := Sec.reset.sessions.set 1 tSess, inbox := box, hands := hands } }

theorem msgFront_of {s : State} {o : HsOrigin} {kind : Nat} {m : HsMsg} {rest : List HsMsg}
    (h : s.sec.inbox = m :: rest ∧ m.origin = o ∧ m.msg.toNat = kind) : MsgFront s o kind m rest :=
  ⟨⟨[], rest, h.1, rfl, fun _ n => nomatch n⟩, h.2.1, h.2.2⟩

theorem handFront_of {s : State} {o : HsOrigin} {id : Byte} {p : Handshake → Prop} {h : Handshake} {rest : List Handshake}
    (e : s.sec.hands = h :: rest ∧ h.origin = o ∧ h.hsId = id) (hp : p h) : HandFront s o id p h rest :=
  ⟨[], rest, e.1, rfl, e.2.1, e.2.2, hp, fun _ n => nomatch n⟩

/-- Whether a tag matches is a matter of a constant without a body, so both cases of CLOSE are shown by the message alone. -/
theorem witness_SessionsOpenAndClose :
    MsgFront (tMan [tMsg 1 36] [] none) (.hart 2) 0x01 (tMsg 1 36) [] ∧ (tMsg 1 36).body.length = 36 ∧
      beFld (tMsg 1 36).body 3 1 = 0 ∧ beFld (tMsg 1 36).body 2 1 ≤ 1 ∧ (tMsg 1 35).body.length ≠ 36 ∧
      HandFront (tMan [] [tHand 0 [] false] none) (.hart 2) 9 (fun x => x.offer = []) (tHand 0 [] false) [] ∧
      MsgFront (tMan [tMsg 3 6199] [tHand 0 [1] false] none) (.hart 2) 0x03 (tMsg 3 6199) [] ∧
      (tHand 0 [1] false).isOf (tMsg 3 6199) = true ∧
      HandFront (tMan [] [tHand 0 [1] true] none) (.hart 2) 9 (fun x => x.accepted = true) (tHand 0 [1] true) [] ∧
      (tHand 0 [1] true).session = some 4 ∧
      ({ tMan [] [{ tHand 0 [1] true with keySlot := 0x20 }] none with fuse := Fuses.reset } : State).slotDigest 0x20 =
        some { tHand 0 [1] true with keySlot := 0x20 }.keyDigest ∧
      (tMan [] [tHand 0 [1] true] none).slotDigest 1 ≠ some (tHand 0 [1] true).keyDigest ∧
      HandFront (tMan [] [tHand 0 [] false] none) (.hart 2) 9 (fun _ => True) (tHand 0 [] false) [] ∧
      MsgFront (tMan [tMsg 5 40] [] none) (.hart 2) 0x05 (tMsg 5 40) [] ∧
      Opens (tMan [] [] none) .sec pgSess 0x108 .sess 0 ⟨0x108, 1, 4, .wo, 0, 0xFF⟩ ∧
      ((tMan [] [] none).session 1).isOpen = true ∧ ((tMan [] [] none).session 2).isOpen = false ∧
      Opens (tMan [] [] none) (.hart 2) pgSess 0x114 .sess 0 ⟨0x114, 1, 4, .wo, 0, 0xFFFFFFFF⟩ ∧
      (mapGet ({ tMan [] [] none with sec := { Sec.reset with mboxAddr := [(2, w32 (dramBase / 4096))] } } : State).sec.mboxAddr 2 0).toNat %
        2 ^ 28 * 4096 = dramBase ∧
      (tMan [] [] none).memCheck 22 dramBase 8 false = none ∧ (tMan [] [] none).linesClean dramBase 8 = true ∧
      ((tMan [] [] (some ⟨0, 0, 0xF0000000⟩)).port 0).txSa = some ⟨0, 0, 0xF0000000⟩ ∧
      ((tMan [] [] (some ⟨0, 0, 0xF0000000⟩)).port 0).linkSession = some 1 ∧
      ((tPort { tUpPort with txNext := some ⟨1, 0, 1⟩ }).port 0).txNext = some ⟨1, 0, 1⟩ := by
  have h0 : MsgFront (tMan [tMsg 1 36] [] none) (.hart 2) 0x01 (tMsg 1 36) [] := msgFront_of (by decide +kernel)
  have h5 : HandFront (tMan [] [tHand 0 [] false] none) (.hart 2) 9 (fun x => x.offer = []) (tHand 0 [] false) [] := handFront_of (by decide +kernel) rfl
  have h6 : MsgFront (tMan [tMsg 3 6199] [tHand 0 [1] false] none) (.hart 2) 0x03 (tMsg 3 6199) [] := msgFront_of ⟨rfl, rfl, by decide +kernel⟩
  have h8 : HandFront (tMan [] [tHand 0 [1] true] none) (.hart 2) 9 (fun x => x.accepted = true) (tHand 0 [1] true) [] := handFront_of (by decide +kernel) rfl
  have h12 : HandFront (tMan [] [tHand 0 [] false] none) (.hart 2) 9 (fun _ => True) (tHand 0 [] false) [] := handFront_of (by decide +kernel) trivial
  have h13 : MsgFront (tMan [tMsg 5 40] [] none) (.hart 2) 0x05 (tMsg 5 40) [] := msgFront_of (by decide +kernel)
  and_intros <;> first | with_reducible assumption | decide +kernel | rfl | exact opens_of (by decide +kernel)

/-- The management core's memory holds an image of 7,475 bytes by its length field. -/
def tFw : State := { tMem [] [] with dram := [(dramBase + 8, 0x33), (dramBase + 9, 0x1D)] }
def tAud : AuditEntry := ⟨255, 0, 0, 0, 0, 0, 0, 0, 0, 0, 0, 0, 0, [], 0⟩

theorem witness_ProofsOfIdentityAndFirmware :
    MsgFront (tMan [tMsg 6 72] [] none) (.hart 2) 0x06 (tMsg 6 72) [] ∧
      ((tMan [tMsg 6 72] [] none).tagged (tMsg 6 72) 40 = none) ∧
      Opens tFw .sec pgAttest 0x100 .attest 0 ⟨0x100, 1, 4, .wo, 0, 0xFFFFFFF⟩ ∧
      Opens tFw .sec pgAttest 0x108 .attest 0 ⟨0x108, 1, 4, .wo, 0, 0xFFFFFFF⟩ ∧
      (w32 (dramBase / 4096)).toNat % 2 ^ 28 * 4096 = dramBase ∧
      tFw.memCheck 22 dramBase 256 false = none ∧ tFw.linesClean dramBase 256 = true ∧
      Opens tFw .sec pgSec 0x108 .sec 0 ⟨0x108, 1, 4, .wo, 0, 0xFFFFFFF⟩ ∧ fld (tFw.rawBytes dramBase 256) 8 4 = 7475 ∧
      fwLenOk 7475 = true ∧ tFw.memCheck 22 dramBase 7475 false = none ∧ tFw.linesClean dramBase 7475 = true ∧
      tFw.fwStatus (tFw.rawBytes dramBase 12) = 3 ∧ tFw.tokenStatus [] = 1 ∧
      Opens tFw .sec pgSec 0x130 .sec 0 ⟨0x130, 1, 4, .wo, 0, 0xFFFFFFF⟩ ∧ tFw.memCheck 22 dramBase (72 + trailerLen) false = none ∧
      tFw.linesClean dramBase (72 + trailerLen) = true := by
  have h0 : MsgFront (tMan [tMsg 6 72] [] none) (.hart 2) 0x06 (tMsg 6 72) [] := msgFront_of (by decide +kernel)
  have h11 : tFw.linesClean dramBase 7475 = true := linesClean_of rfl rfl _ _
  have h16 : tFw.linesClean dramBase (72 + trailerLen) = true := linesClean_of rfl rfl _ _
  and_intros <;> first | with_reducible assumption | decide +kernel | exact opens_of (by decide +kernel)

/-- An OEM key whose digest stands beside the root's. -/
def tKeys (f : Fuses) : State := { tMem [] [] with fuse := f }

theorem witness_KeysAreEnrolledAndRevoked :
    Opens (tKeys Fuses.reset) .sec pgKeys 0x100 .keystore 0 ⟨0x100, 1, 4, .wo, 0, 0xFFFFFFF⟩ ∧
      (tKeys Fuses.reset).memCheck 22 dramBase recordLen false = none ∧ (tKeys Fuses.reset).linesClean dramBase recordLen = true ∧
      (tKeys Fuses.reset).enrolStatus [] = 1 ∧
      Opens (tKeys Fuses.reset) .sec pgFuses 0x128 .fuses 0 ⟨0x128, 1, 4, .wo, 0, 0xFFFFFFFF⟩ ∧
      (w32 (dramBase / 4096 * 16 + 1)).toNat % 16 = 1 ∧ (w32 (dramBase / 4096 * 16 + 1)).toNat / 16 % 2 ^ 28 * 4096 = dramBase ∧
      (tKeys Fuses.reset).fuse.oemValid = false ∧ (tKeys { Fuses.reset with oemValid := true }).fuse.oemValid = true ∧
      (tKeys { Fuses.reset with oemValid := true }).fuse.oemRevoked = false ∧ (tKeys Fuses.reset).fuse.rootValid = true ∧
      (tKeys Fuses.reset).fuse.rootRevoked = false ∧ (tKeys { Fuses.reset with rootRevoked := true }).fuse.rootRevoked = true := by
  have h2 : (tKeys Fuses.reset).linesClean dramBase recordLen = true := linesClean_of rfl rfl _ _
  and_intros <;> first | with_reducible assumption | decide +kernel | exact opens_of (by decide +kernel)

end Sys2Proof.Machine
end

section
/-! PROOFS. ROLE_LOCK, aborts and STORE_IF_GEN (R54, R61, R69). -/

namespace Sys2Proof.Machine

/-! ### Which registers an update leaves -/

theorem OtherRegs.trans {s t u : State} {l m : List (Nat × Nat)} (h : OtherRegs s t l) (g : OtherRegs t u m) :
    OtherRegs s u (l ++ m) := by
  intro page off ho hn
  rw [List.mem_append, not_or] at hn
  rw [g page off ho hn.2, h page off ho hn.1]

theorem OtherRegs.setReg (s : State) (page off : Nat) (v : Word) (ho : off < 4096) :
    OtherRegs s (s.setReg page off v) [(page, off)] := by
  intro q r hr hn
  refine State.reg_setReg_other s page off q r v (fun he => hn ?_)
  obtain ⟨rfl, rfl⟩ := rkey_inj hr ho he
  exact List.mem_singleton.2 rfl

/-! ### COMMIT_RES -/

/-- The lowest four bits of a word of COMMIT_RES are its RESULT (R63). -/
theorem commitWord_result (seq b off result : Nat) (hr : result < 16) :
    bits (w32 (seq * 2 ^ 24 + b * 2 ^ 16 + off * 16 + result)).toNat 3 0 = result := by
  simp only [bits, w32, BitVec.toNat_ofNat, Nat.reducePow, Nat.reduceAdd, Nat.reduceSub]
  omega

/-- Writing COMMIT_RES puts one word there, whose RESULT is the one given. -/
theorem State.commitRes_spec (s : State) (page off b : Nat) (count : Bool) {result : Nat} (hr : result < 16) :
    ∃ w : Word, s.commitRes page result off b count = s.setReg page 0x24 w ∧ bits w.toNat 3 0 = result :=
  ⟨_, rfl, commitWord_result _ _ _ _ hr⟩

/-- The role of an access does not look at registers (R44). -/
theorem State.roleOf_setReg (s : State) (page off : Nat) (v : Word) (who : Requester) :
    (s.setReg page off v).roleOf who = s.roleOf who := by
  cases who <;> rfl

/-- An error recorded after a write of COMMIT_RES is one recorded on the state before it. -/
theorem ErrorRecorded.of_setCommitRes {s t : State} {page code : Nat} {w : Word} {who : Requester} {write : Bool}
    (h : ErrorRecorded (s.setReg page 0x24 w) t page code who write) : ErrorRecorded s t page code who write := by
  have h18 := OtherRegs.setReg s page 0x24 w (by decide) page 0x18 (by decide) (by simp)
  have h1C := OtherRegs.setReg s page 0x24 w (by decide) page 0x1C (by decide) (by simp)
  unfold ErrorRecorded State.rn at h ⊢
  rwa [h18, h1C, State.roleOf_setReg] at h

/-! ### Aborts (R61) -/

/-- The state without a page's staged words (R61). -/
def State.dropStaged (s : State) (page : Nat) : State := { s with staged := dropPage s.staged page (fun _ => false) }

theorem State.stagedOf_dropStaged_same (s : State) (page : Nat) : (s.dropStaged page).stagedOf page = [] := by
  unfold State.stagedOf State.dropStaged dropPage
  rw [List.filter_filter, List.filter_eq_nil_iff]
  intro p _
  simp +contextual

theorem State.stagedOf_dropStaged_other (s : State) {page q : Nat} (hq : q ≠ page) :
    (s.dropStaged page).stagedOf q = s.stagedOf q := by
  unfold State.stagedOf State.dropStaged dropPage
  rw [List.filter_filter]
  refine List.filter_congr (fun p _ => ?_)
  by_cases hp : p.1 / 4096 = q
  · simp [hp, hq]
  · simp [hp]

/-- A write to COMMIT that reaches its page is the page's commit write. -/
theorem State.put_commit {s : State} {who : Requester} {page : Nat} {k : Kind} {i : Nat} (v : Word)
    (h : Reaches s who page 0x20 k i) : s.put who page 0x20 v = s.commitWrite page who v := by
  rw [State.put_reaches v h]
  rfl

/-- An abort with nothing staged reports RESULT 7 and does nothing else. -/
theorem State.commitA5_nothing_spec {s : State} {page : Nat} {who : Requester} (h : s.stagedOf page = []) :
    let t := s.commitA5 page who
    bits (t.rn page 0x24) 3 0 = 7 ∧ OtherRegs s t [(page, 0x24)] ∧ t = { s with regs := t.regs, rsp := t.rsp } ∧ t.accepted := by
  intro t
  obtain ⟨w, hw, hresult⟩ := s.commitRes_spec page 0 0 false (show 7 < 16 by decide)
  have ht : t = (s.setReg page 0x24 w).ok := by
    rw [← hw]
    exact if_pos (by rw [h]; rfl)
  rw [ht]
  refine ⟨?_, OtherRegs.setReg s page 0x24 w (by decide), rfl, rfl, rfl⟩
  show bits ((s.setReg page 0x24 w).rn page 0x24) 3 0 = 7
  rwa [State.rn_setReg_same]

/-- An abort by the role of a commit drops the staged words and withdraws the armed commit. -/
theorem State.commitA5_dropped {s : State} {page : Nat} {who : Requester} (h : s.stagedOf page ≠ [])
    (hr : s.commitRole page (s.roleOf who) = true) :
    s.commitA5 page who = (((s.dropStaged page).setArmed page false).commitRes page 5 0 0 false).ok := by
  unfold State.commitA5
  rw [if_neg (by simpa using h), if_neg (by simp [hr])]
  rfl

/-- An abort from a lower role is denied. -/
theorem State.commitA5_denied {s : State} {page : Nat} {who : Requester} (h : s.stagedOf page ≠ [])
    (hr : s.commitRole page (s.roleOf who) = false) :
    s.commitA5 page who = s.commitDenied page who 0xA5 false := by
  unfold State.commitA5
  rw [if_neg (by simpa using h), if_pos (by simp [hr])]

/-- What a denied commit or abort leaves (R60, R61). -/
theorem State.commitDenied_spec (s : State) (page : Nat) (who : Requester) (v : Word) (count : Bool) :
    let t := s.commitDenied page who v count
    bits (t.rn page 0x24) 3 0 = 4 ∧ ErrorRecorded s t page 0x80 who true ∧
      OtherRegs s t [(page, 0x24), (page, 0x18), (page, 0x1C)] ∧ t.staged = s.staged ∧ t.discarded := by
  intro t
  obtain ⟨w, hw, hresult⟩ := s.commitRes_spec page 0 0 count (show 4 < 16 by decide)
  have ht : t = (s.setReg page 0x24 w).deny page 0x20 who v := congrArg (fun x => State.deny x page 0x20 who v) hw
  obtain ⟨herr, hother, hframe⟩ := (s.setReg page 0x24 w).deny_spec page 0x20 who v
  rw [← ht] at herr hother hframe
  refine ⟨?_, herr.of_setCommitRes, (OtherRegs.setReg s page 0x24 w (by decide)).trans hother, ?_, ?_⟩
  · rw [State.rn, hother page 0x24 (by decide) (by simp), State.reg_setReg_same]
    exact hresult
  · rw [hframe]
    rfl
  · rw [hframe]
    exact ⟨rfl, rfl⟩

/-- What an abort by the role of a commit leaves. -/
theorem State.commitA5_dropped_spec {s : State} {page : Nat} {who : Requester} (h : s.stagedOf page ≠ [])
    (hr : s.commitRole page (s.roleOf who) = true) :
    let t := s.commitA5 page who
    t.stagedOf page = [] ∧ (∀ q, q ≠ page → t.stagedOf q = s.stagedOf q) ∧ t.armed page = false ∧
      bits (t.rn page 0x24) 3 0 = 5 ∧ OtherRegs s t [(page, 0xC), (page, 0x24)] ∧ t.accepted ∧
      t = { s with regs := t.regs, staged := t.staged, rsp := t.rsp } := by
  intro t
  obtain ⟨w, hw, hresult⟩ :=
    ((s.dropStaged page).setReg page 0xC (w32 0)).commitRes_spec page 0 0 false (show 5 < 16 by decide)
  have ht : t = (((s.dropStaged page).setReg page 0xC (w32 0)).setReg page 0x24 w).ok :=
    (State.commitA5_dropped h hr).trans (congrArg State.ok hw)
  have hC : OtherRegs s ((s.dropStaged page).setReg page 0xC (w32 0)) [(page, 0xC)] :=
    OtherRegs.setReg (s.dropStaged page) page 0xC _ (by decide)
  have h24 : OtherRegs ((s.dropStaged page).setReg page 0xC (w32 0)) t [(page, 0x24)] := by
    rw [ht]
    exact OtherRegs.setReg _ page 0x24 w (by decide)
  have hstaged : ∀ q, t.stagedOf q = (s.dropStaged page).stagedOf q := by
    rw [ht]
    exact fun q => rfl
  refine ⟨(hstaged page).trans (s.stagedOf_dropStaged_same page),
    fun q hq => (hstaged q).trans (s.stagedOf_dropStaged_other hq), ?_, ?_, hC.trans h24, ?_, ?_⟩
  · rw [State.armed, State.rn, h24 page 0xC (by decide) (by simp), State.reg_setReg_same]
    rfl
  · rw [ht]
    show bits ((((s.dropStaged page).setReg page 0xC (w32 0)).setReg page 0x24 w).rn page 0x24) 3 0 = 5
    rwa [State.rn_setReg_same]
  · rw [ht]
    exact ⟨rfl, rfl⟩
  · rw [ht]
    rfl

/-- Settles O11: an abort finds nothing staged, the role of a commit, or a lower role; another key than 0x5A and 0xA5 is
COMMIT_KEY. -/
theorem abortRule : Obligations.AbortRule := by
  intro s who page k i hreach
  constructor
  · refine ⟨s.commitA5 page.toNat who, congrArg Host.Outcome.next (State.put_commit 0xA5 hreach), ?_, ?_, ?_⟩
    · intro hnone
      exact State.commitA5_nothing_spec hnone
    · intro hsome hrole
      exact State.commitA5_dropped_spec hsome hrole
    · intro hsome hrole
      rw [State.commitA5_denied hsome hrole]
      exact s.commitDenied_spec page.toNat who 0xA5 false
  · intro key h5A hA5
    obtain ⟨herr, hother, hframe⟩ := s.errAcc_spec page.toNat 0x84 who true 0x20 (by decide)
    refine ⟨(s.errAcc page.toNat 0x84 who true 0x20).discard, congrArg Host.Outcome.next ?_, ⟨rfl, rfl⟩, hother, herr, ?_⟩
    · rw [State.put_commit key hreach, State.commitWrite, if_neg h5A, if_neg hA5]
    · rw [hframe]
      rfl

/-! ### ROLE_LOCK (R54) -/

/-- ROLE_LOCK of the first axis page holds a bit that R46 does not list, above its three fields, which stand at operator; boot is
over, so that a hart without a session acts as operator. -/
def strayLock : State :=
  { State.reset with regs := [(rkey 0x022 0x28, 0x40)], sec := { Sec.reset with bootDone := true } }

/-- The operator writes the fields as they stand, and is denied: the stray bit is not in the value written. -/
theorem strayLock_write :
    (∀ f, f < 3 → (strayLock.put (.hart 0) 0x022 0x28 0).lock 0x022 f = bits (0 : Word).toNat (2 * f + 1) (2 * f)) ∧
      (strayLock.put (.hart 0) 0x022 0x28 0).rsp.discarded = true := by
  decide +kernel

/-- Refutes O7: where the word of ROLE_LOCK holds a bit above its three fields, an operator's write that changes no field is
discarded with ROLE_DENIED all the same, for the model compares the whole word with the value's low six bits. (No write of
ROLE_LOCK sets such a bit; the statement speaks of every state.) -/
theorem not_roleLockRule : ¬ Obligations.RoleLockRule := by
  intro h
  have hreach : Reaches strayLock (.hart 0) (0x022#16).toNat 0x28 .axis 0 :=
    ⟨rfl, by decide, by decide, by decide, by decide +kernel⟩
  obtain ⟨⟨t, ht, _, _, _, _, haccepted⟩, _⟩ := h strayLock (.hart 0) 0x022 .axis 0 0 hreach
  have hput : t = strayLock.put (.hart 0) 0x022 0x28 0 := (Host.Outcome.next.inj ht).symm
  rw [hput] at haccepted
  obtain ⟨hkept, hdiscarded⟩ := strayLock_write
  obtain ⟨_, _, hanswered⟩ := haccepted hkept
  exact absurd (hdiscarded.symm.trans hanswered) (by decide)

/-! ### STORE_IF_GEN (R69) -/

/-- Context 0 of the first codec decodes (MODE 1) to an output that is enabled and may be written over, and holds one decoded
picture; the window holds the same entry with MODE 0. -/
def closingDecoder : State :=
  { State.reset with
    regs := [(rkey 0x050 0x910, 0x4100)]
    winTab := [(winKey 0x050 128 0 0, 1), (winKey 0x050 128 0 17, 0x41)]
    vcs := State.reset.vcs.set 0 [{ VcCtx.reset 0 with held := [0] }] }

/-- The store counts once, and the picture that it puts out counts once more (R70, R584). -/
theorem closingDecoder_store : (closingDecoder.put .sec 0x050 0x804 3).winGenOf 0x050 0 = 2 := by
  decide +kernel

/-- Refutes O13: a STORE_IF_GEN that sets a decoding context's MODE to 0 also writes the picture held for it, whose counts are a
second write of the entry by hardware, so the generation goes on by two. -/
theorem not_storeIfGenRule : ¬ Obligations.StoreIfGenRule := by
  intro h
  have hreach : Reaches closingDecoder .sec (0x050#16).toNat 0x804 .codec 0 :=
    ⟨rfl, by decide, by decide, by decide, by decide +kernel⟩
  have hopens : Opens closingDecoder .sec (0x050#16).toNat 0x804 .codec 0 ⟨0x804, 1, 4, .wo, 0, 0xFFFFFFFF⟩ :=
    ⟨hreach, by decide, by decide +kernel, by decide +kernel, fun _ h => absurd h (by decide)⟩
  obtain ⟨hstore, _⟩ := h closingDecoder .sec 0x050 .codec 0 _ hopens rfl rfl (by decide +kernel)
  obtain ⟨t, ht, _, _, hgen⟩ := hstore (by decide +kernel) (by decide +kernel)
  have hput : t = closingDecoder.put .sec 0x050 0x804 3 := (Host.Outcome.next.inj ht).symm
  rw [hput] at hgen
  exact absurd (closingDecoder_store.symm.trans hgen) (by decide +kernel)

end Sys2Proof.Machine
end
